-- ==== Sys2Proof/Word.lean ====
section
/-! DEFINITION. The word types of the LRX-5120: registers are 32 bits wide and memories are addressed by byte
(00_scope R7, R9). Only the types and their plainest arithmetic stand here. -/

namespace Sys2Proof

/-- A register word. -/
abbrev Word := BitVec 32

/-- A memory byte. -/
abbrev Byte := BitVec 8

/-- The byte with value `n mod 256`. -/
abbrev byte (n : Nat) : Byte := BitVec.ofNat 8 n

/-- The word with value `n mod 2^32`. -/
abbrev word (n : Nat) : Word := BitVec.ofNat 32 n

end Sys2Proof
end

