-- ==== Sys2Proof/Syntax.lean ====
section
/-! DEFINITION. The commands of the block, one constructor for each row of the opcode table, and the types of their
operands. A command names its source where the rule distinguishes sources, and what happens outside the device is an operand. -/
namespace Sys2Proof

/-- A requester of the register bus (15 R369). -/
inductive Req where
  | sup | portA | portB | ctrl
deriving DecidableEq, Repr

/-- What a read of an HBM burst meets (12 R312 to R314): nothing, damage to its codeword as (symbol 0 to 35, difference) pairs, or a
parity error on its command, which may come again when the command is repeated. -/
inductive HbmFind where
  | clean
  | damaged (errs : List (Nat × Byte))
  | parity (again : Bool)
deriving DecidableEq, Repr

/-- What goes wrong in one pass of a lane over a hogel (04 R101; 17 R419): nothing, the correction multiply of value `i` delivers the
product `got`, or the conversion of value `i` delivers the code `got`. -/
inductive LaneBad where
  | none | product (i got : Nat) | code (i got : Nat)
deriving DecidableEq, Repr

/-- What goes wrong when a lane runs a hogel: in its first pass, and in the recomputation if it comes to one (07 R181). -/
structure LaneFault where
  first : LaneBad
  retry : LaneBad
deriving DecidableEq, Repr

/-- What start-up finds outside the device: BOOT_MODE, the validity of both references, whether a fuse bit cannot be programmed,
whether the flash answers, and the slots whose reads time out (16 R390, R393, R394, R404). -/
structure BootIn where
  mode      : Nat
  refclk    : Bool
  mra       : Bool
  fuseFails : Bool
  flashOk   : Bool
  timeouts  : Nat
deriving DecidableEq, Repr

/-- What a read of an on-chip memory finds (05 R109): nothing, one damaged bit, or more, with the number of the memory, the
address and, for a hogel in flight, its layer. -/
inductive MemFind where
  | clean | corrected (mem addr : Nat) | uncorrectable (mem addr layer : Nat)
deriving DecidableEq, Repr

/-- A 66-bit block as a receiver sees it (08 R192, 11 R268): good, of an unknown type, or with an invalid sync header. -/
inductive BlockSeen where
  | good | unknownType | badHeader
deriving DecidableEq, Repr

/-- What followed the SOP of a received packet or the SOF of a received frame (08 R194, 11 R277): the number of data blocks, the CRC that
the last block carried, and whether another start block or anything else cut it short. -/
structure RxEnd where
  blocks : Nat
  crc    : Nat
  cut    : Bool
deriving DecidableEq, Repr

/-- What invalidates a reference (10 R258): so many missing edges in succession, so many cycles in 10 µs of the island oscillator, or a phase error
in ps. -/
inductive RefFault where
  | edges (missing : Nat) | cycles (count : Nat) | phase (ps : Int)
deriving DecidableEq, Repr

/-- A reference found at fault (10 R258): which (false REFCLK, true the forwarded clock), what is found, and the phase error in ps against the
other one. -/
structure RefLost where
  ref   : Bool
  why   : RefFault
  phase : Int
deriving DecidableEq, Repr

/-- A reference found valid for 10 ms (10 R258), with the phase error in ps against it. -/
structure RefFound where
  ref   : Bool
  phase : Int
deriving DecidableEq, Repr

/-- The codes COARSE and MEDIUM of the DCO (10 R252). -/
structure DcoBand where
  coarse : Nat
  medium : Nat
deriving DecidableEq, Repr

/-- What a lane meets in a hogel: a word of the Keystone store that it finds uncorrectable (07 R177), and the residue check (04 R101). -/
structure LaneFind where
  ecc   : Option Nat
  fault : LaneFault
deriving DecidableEq, Repr

/-- A control block as it arrives: the blocks seen on the line up to it, and its bytes D1 to D7 (08 R192, 11 R267). -/
structure RxBlock where
  seen  : List BlockSeen
  bytes : List Byte
deriving DecidableEq, Repr

/-- The blocks seen on the line of a pier. -/
structure PierSeen where
  pier : Nat
  seen : List BlockSeen
deriving DecidableEq, Repr

/-- The blocks seen on each lane of a Moror port. -/
structure LanesSeen where
  port  : Nat
  lanes : List (List BlockSeen)
deriving DecidableEq, Repr

/-- The cycles of the received clock of a Moror port in 10 µs (11 R270). -/
structure ClockSeen where
  port  : Nat
  count : Nat
deriving DecidableEq, Repr

/-- A packet of a tile as it arrives on a pier (08 R194). -/
structure RxPkt where
  pier : Nat
  e    : RxEnd
deriving DecidableEq, Repr

/-- A TELEM packet of a tile with its SEQ (08 R197). -/
structure RxTelem where
  pier : Nat
  seq  : Nat
  e    : RxEnd
deriving DecidableEq, Repr

/-- The bits HOGEL_ERR and FLIP_MISSED of a FRAME_ACK (08 R197). -/
structure AckFlags where
  hogelErr : Bool
  missed   : Bool
deriving DecidableEq, Repr

/-- The INFO word of a NAK: the SEQ expected and REASON (08 R197). -/
structure NakInfo where
  seq    : Nat
  reason : Nat
deriving DecidableEq, Repr

/-- A declaration of a tile (08 R207): version, hogels across and down, views across and down, the code widths it takes, the
range of its latencies, and its identifier. -/
structure Declared where
  version : Nat
  nh      : Nat
  nv      : Nat
  h       : Nat
  v       : Nat
  widths  : Nat
  latMin  : Nat
  latMax  : Nat
  tileId  : Nat
deriving DecidableEq, Repr

/-- The commands. -/
inductive Instr where
  /-- REGISTER_WRITE (R9). -/
  | registerWrite (r : Req) (a : Nat) (v : Word)
  /-- SHADOW_WRITE (R37). -/
  | shadowWrite (r : Req) (a : Nat) (v : Word)
  /-- DECK_RUN (R451). -/
  | deckRun (r : Req) (v : Word)
  /-- DECK_STOP (R451). -/
  | deckStop (r : Req) (v : Word)
  /-- FRAME_START (R26). -/
  | frameStart
  /-- SCAN_LINE_START (R27). -/
  | scanLineStart
  /-- LATCH_POINT (R43). -/
  | latchPoint
  /-- FLIP_EMISSION (R202). -/
  | flipEmission (p : Nat)
  /-- DECK_COMMIT_GO (R38). -/
  | deckCommitGo (r : Req) (v : Word)
  /-- COMMIT_VALIDATED (R39). -/
  | commitValidated
  /-- DECK_COMMIT_CANCEL (R452). -/
  | deckCommitCancel (r : Req) (v : Word)
  /-- COMMIT_REVALIDATED (R452). -/
  | commitRevalidated
  /-- DECK_STATE_REQ (R24). -/
  | deckStateReq (r : Req) (v : Word)
  /-- BAND_JOB_ISSUE (R110). -/
  | bandJobIssue (p : Nat)
  /-- CELL_JOB_DISPATCH (R111). -/
  | cellJobDispatch (c : Nat)
  /-- CELL_JOB_COMPLETE (R111). -/
  | cellJobComplete (c : Nat) (k : Nat) (f : MemFind)
  /-- JOB_DEADLINE (R112). -/
  | jobDeadline (p : Nat) (u : Nat)
  /-- BAND_FETCH_START (R115). -/
  | bandFetchStart (c : Nat)
  /-- BAND_RESIDENT (R115). -/
  | bandResident (c : Nat) (n : Nat) (f : HbmFind)
  /-- BAND_DEADLINE (R116). -/
  | bandDeadline (c : Nat)
  /-- COMB_WAKE_DONE (R124). -/
  | combWakeDone (c : Nat)
  /-- AUDIT_COMPARE (R121). -/
  | auditCompare (c : Nat) (f : Option (List Nat))
  /-- AUDIT_ARBITRATE (R122). -/
  | auditArbitrate (c : Nat) (late : Bool) (f : Option (List Nat))
  /-- CELL_PROGRAM_RELOAD (R109). -/
  | cellProgramReload (c : Nat) (k : Nat)
  /-- LUT_STORE_SCRUB (R109). -/
  | lutStoreScrub (c : Nat) (bad : Option Nat)
  /-- FENCE_WRITE (R68). -/
  | fenceWrite (r : Req) (n : Nat) (v : Word)
  /-- LUT_LOAD_START (R80). -/
  | lutLoadStart (r : Req) (v : Word)
  /-- PALETTE_LOAD_START (R80). -/
  | paletteLoadStart (r : Req) (v : Word)
  /-- LUT_LOAD_DONE (R80). -/
  | lutLoadDone (f : HbmFind)
  /-- SCENE_FRAME_RECEIVE (R282). -/
  | sceneFrameReceive (x : Nat) (seq : Nat) (first : Bool) (last : Bool) (payload : List Byte) (e : RxEnd)
  /-- NEC_BLOCK_TAKE (R144). -/
  | necBlockTake (u : Nat)
  /-- NEC_FSN_OPEN (R144). -/
  | necFsnOpen (u : Nat) (n : Nat)
  /-- NEC_DEFERRED_RELEASE (R145). -/
  | necDeferredRelease (u : Nat) (n : Nat)
  /-- NEC_BLOCK_END (R149). -/
  | necBlockEnd (u : Nat) (bad : Option (Nat × HbmFind))
  /-- NEC_THROTTLE_PAUSE_END (R164). -/
  | necThrottlePauseEnd (u : Nat)
  /-- CTX_FLUSH (R153). -/
  | ctxFlush (r : Req) (v : Word)
  /-- CTX_FLUSH_DONE (R153). -/
  | ctxFlushDone
  /-- JOB_POST (R154). -/
  | jobPost (r : Req) (v : Word)
  /-- DECODE (R155). -/
  | decode (u : Nat)
  /-- ENCODE (R158). -/
  | encode (u : Nat)
  /-- RESUME (R156). -/
  | resume (u : Nat)
  /-- NEC_JOB_END (R156). -/
  | necJobEnd (u : Nat) (bad : Option (Nat × HbmFind))
  /-- PLAY_START (R162). -/
  | playStart (r : Req) (v : Word)
  /-- PLAY_STOP (R162). -/
  | playStop (r : Req) (v : Word)
  /-- CLIP_FRAME_QUEUE (R162). -/
  | clipFrameQueue
  /-- UNI_FETCH_DONE (R179). -/
  | uniFetchDone (p : Nat) (u : Nat) (f : HbmFind)
  /-- HOGEL_PROCESS (R167). -/
  | hogelProcess (p : Nat) (f : LaneFind)
  /-- KEYSTONE_HOGEL_GEN (R169). -/
  | keystoneHogelGen (p : Nat) (ecc : Option Nat) (f : LaneFault)
  /-- KEY_REQ_INPUT (R174). -/
  | keyReqInput (a : Bool) (b : Bool)
  /-- KEY_REQ_REGISTERED (R174). -/
  | keyReqRegistered
  /-- KEY_SUP_MASK_WRITE (R175). -/
  | keySupMaskWrite (r : Req) (v : Word)
  /-- KEY_SCRUB (R177). -/
  | keyScrub (ecc : Nat) (crc : Nat) (locked : Bool)
  /-- PLUT_LOAD_START (R183). -/
  | plutLoadStart (r : Req) (v : Word)
  /-- PLUT_LOAD_DONE (R183). -/
  | plutLoadDone (f : HbmFind)
  /-- CRC_RECT_EVAL (R185). -/
  | crcRectEval (n : Nat)
  /-- PACKET_ENQUEUE (R217). -/
  | packetEnqueue (p : Nat) (c : Nat) (info : Nat) (payload : List Byte)
  /-- VDT_SCHEDULE (R218). -/
  | vdtSchedule (p : Nat)
  /-- PACKET_SENT (R218). -/
  | packetSent (p : Nat)
  /-- GATE_CYCLE_START (R221). -/
  | gateCycleStart (g : Nat)
  /-- GATE_ENTRY_BOUNDARY (R222). -/
  | gateEntryBoundary (g : Nat)
  /-- GATE_EN_WRITE (R455). -/
  | gateEnWrite (r : Req) (v : Word)
  /-- GATE_BANK_WRITE (R230). -/
  | gateBankWrite (r : Req) (a : Nat) (v : Word)
  /-- GATE_SWAP_REQUEST (R229). -/
  | gateSwapRequest (r : Req) (g : Nat) (v : Word)
  /-- GATE_SWAP_START (R230). -/
  | gateSwapStart (g : Nat)
  /-- FREE_WINDOW (R199). -/
  | freeWindow (p : Nat)
  /-- REVERSE_TURN_RECEIVE (R200). -/
  | reverseTurnReceive (p : Nat) (b : RxBlock) (rx : List Bool)
  /-- REVERSE_WINDOW_TIMEOUT (R200). -/
  | reverseWindowTimeout (w : PierSeen)
  /-- PIER_IDLE_PERIOD (R454). -/
  | pierIdlePeriod (p : Nat)
  /-- FRAME_ACK (R200). -/
  | frameAck (k : RxPkt) (frame : Nat) (crc : Nat) (ack : Nat) (kept : Nat) (f : AckFlags)
  /-- ECHO_REP (R204). -/
  | echoRep (k : RxPkt) (id : Nat) (rtt : Nat) (res : Nat)
  /-- NAK (R198). -/
  | nak (k : RxPkt) (n : NakInfo)
  /-- DECLARE (R207). -/
  | declare (k : RxTelem) (d : Declared)
  /-- STATUS (R197). -/
  | status (k : RxTelem) (temp : Int) (missed : Nat) (losses : Nat) (discarded : Nat)
  /-- READ_DATA (R197). -/
  | readData (k : RxTelem) (payload : List Byte)
  /-- TEST_RESULT (R211). -/
  | testResult (k : RxTelem) (errors : Nat) (bits : Nat)
  /-- TILE_TELEM (R197). -/
  | tileTelem (k : RxTelem) (kind : Nat) (payload : List Byte)
  /-- MISMATCH_REDISCOVER (R206). -/
  | mismatchRediscover (p : Nat)
  /-- FLIPLAT_WRITE (R208). -/
  | fliplatWrite (r : Req) (p : Nat) (v : Word)
  /-- PIER_ENABLE_WRITE (R206). -/
  | pierEnableWrite (r : Req) (p : Option Nat) (v : Word)
  /-- PIER_TEST_START (R211). -/
  | pierTestStart (r : Req) (v : Word)
  /-- NT_ADJ (R239). -/
  | ntAdj (r : Req) (v : Word)
  /-- NT_SET (R240). -/
  | ntSet (r : Req) (v : Word)
  /-- NT_SLEW_END (R239). -/
  | ntSlewEnd
  /-- NT_FREQ_WRITE (R238). -/
  | ntFreqWrite (r : Req) (v : Word)
  /-- NT_ALARM_ARM (R245). -/
  | ntAlarmArm (r : Req) (n : Nat) (v : Word)
  /-- NT_ALARM_DISARM (R245). -/
  | ntAlarmDisarm (r : Req) (n : Nat) (v : Word)
  /-- NT_ALARM_FIRE (R245). -/
  | ntAlarmFire (n : Nat)
  /-- PPS_OUT_RISE (R246). -/
  | ppsOutRise
  /-- PPS_OUT_FALL (R246). -/
  | ppsOutFall
  /-- TIME_FRAME_TRANSMIT (R251). -/
  | timeFrameTransmit (x : Nat) (msg : List Byte) (stamp : Nat)
  /-- TIME_FRAME_RECEIVE (R250). -/
  | timeFrameReceive (x : Nat) (msg : List Byte) (stamp : Nat) (done : Nat) (e : RxEnd)
  /-- NT_TXQ_READ (R251). -/
  | ntTxqRead (r : Req) (x : Nat)
  /-- ADPLL_CODES_FOUND (R254). -/
  | adpllCodesFound (c : DcoBand) (check : Bool) (phase : Int)
  /-- ADPLL_LOCKED (R257). -/
  | adpllLocked (phaseErr : Int)
  /-- ADPLL_FAST_HOP (R255). -/
  | adpllFastHop
  /-- REF_LOSS (R258). -/
  | refLoss (r : RefLost)
  /-- REF_QUALIFIED (R258). -/
  | refQualified (r : RefFound)
  /-- REF_REVERT (R258). -/
  | refRevert
  /-- DCO_CHECK (R260). -/
  | dcoCheck (ppm : Int)
  /-- CLOCK_MONITOR_WINDOW (R261). -/
  | clockMonitorWindow (clock : Nat) (count : Nat) (other : Nat)
  /-- MR_TS_RECEIVE (R271). -/
  | mrTsReceive (x : Nat) (b : RxBlock) (foms : List Nat) (ams : List (List Byte × Nat))
  /-- MR_CLOCK_DETECT (R270). -/
  | mrClockDetect (c : ClockSeen)
  /-- MR_EQ_PRESET_DONE (R272). -/
  | mrEqPresetDone (x : Nat) (foms : List Nat)
  /-- MR_TRAIN_TIMEOUT (R270). -/
  | mrTrainTimeout (x : Nat)
  /-- MR_RECOVERY_TIMEOUT (R270). -/
  | mrRecoveryTimeout (x : Nat)
  /-- MR_LINK_LOSS (R293). -/
  | mrLinkLoss (x : Nat) (seen : List (List BlockSeen)) (count : Nat)
  /-- MR_RETRAIN (R270). -/
  | mrRetrain (r : Req) (x : Nat) (v : Word)
  /-- MR_LCB_RECEIVE (R279). -/
  | mrLcbReceive (x : Nat) (d : List Byte)
  /-- MR_REPLAY_TIMER (R278). -/
  | mrReplayTimer (x : Nat)
  /-- CTRL_FRAME_RECEIVE (R283). -/
  | ctrlFrameReceive (x : Nat) (seq : Nat) (payload : List Byte) (e : RxEnd)
  /-- WRITE (R283). -/
  | write (x : Nat) (a : Nat) (ws : List Word)
  /-- COMMIT (R283). -/
  | commit (x : Nat) (tag : Nat) (timed : Bool) (target : Nat)
  /-- CANCEL (R283). -/
  | cancel (x : Nat)
  /-- MARK (R283). -/
  | mark (x : Nat) (v : Nat)
  /-- READ (R284). -/
  | read (x : Nat) (seq : Nat) (tag : Nat) (n : Nat) (a : Nat) (e : RxEnd) (f : HbmFind)
  /-- REG_WRITE (R284). -/
  | regWrite (x : Nat) (seq : Nat) (tag : Nat) (a : Nat) (ws : List Word) (e : RxEnd)
  /-- RELAY_FRAME_RECEIVE (R289). -/
  | relayFrameReceive (x : Nat) (seq : Nat) (payload : List Byte) (e : RxEnd)
  /-- PORT_B_FRAME_RECEIVE (R289). -/
  | portBFrameReceive (cls : Nat) (seq : Nat) (first : Bool) (last : Bool) (payload : List Byte) (e : RxEnd)
  /-- MR_M1_ENTRY (R273). -/
  | mrM1Entry (x : Nat)
  /-- MR_M1_EXIT (R273). -/
  | mrM1Exit (x : Nat)
  /-- M2_REQ (R274). -/
  | m2Req (r : Req) (x : Nat) (v : Word)
  /-- MR_M2_EIE_SEND (R274). -/
  | mrM2EieSend (x : Nat)
  /-- MR_EIE_RECEIVE (R274). -/
  | mrEieReceive (x : Nat) (d : List Byte)
  /-- MR_TEST_START (R275). -/
  | mrTestStart (r : Req) (x : Nat) (v : Word)
  /-- MR_TEST_STOP (R275). -/
  | mrTestStop (r : Req) (x : Nat) (v : Word) (rx : List (List Bool))
  /-- MR_TEST_DURATION_END (R275). -/
  | mrTestDurationEnd (x : Nat) (rx : List (List Bool))
  /-- MR_LOOP_EXIT (R275). -/
  | mrLoopExit (x : Nat)
  /-- MR_ROLE_HOLD_EXPIRY (R292). -/
  | mrRoleHoldExpiry
  /-- HBM_REFRESH (R305). -/
  | hbmRefresh (pc : Nat) (busy : Bool)
  /-- HBM_REQUEST_AGING (R302). -/
  | hbmRequestAging (src : Nat)
  /-- HBM_TEMP_READ (R306). -/
  | hbmTempRead (t : Nat)
  /-- HBM_SR_ENTRY (R307). -/
  | hbmSrEntry
  /-- HBM_SR_EXIT (R308). -/
  | hbmSrExit
  /-- HBM_TRAIN_REQ (R310). -/
  | hbmTrainReq (r : Req) (v : Word)
  /-- HBM_RETRAIN_PAUSE (R310). -/
  | hbmRetrainPause (eye : Nat)
  /-- HBM_SCRUB (R315). -/
  | hbmScrub (find : HbmFind)
  /-- HBM_GO (R394). -/
  | hbmGo (r : Req) (v : Word)
  /-- HBM_WIPE_DONE (R317). -/
  | hbmWipeDone (eyes : List Nat) (us : Nat)
  /-- BOOT_HBM_LOAD_DONE (R394). -/
  | bootHbmLoadDone
  /-- BLT_POST (R326). -/
  | bltPost (r : Req) (v : Word)
  /-- FILL (R323). -/
  | fill (f : HbmFind)
  /-- COPY (R325). -/
  | copy (f : HbmFind)
  /-- CONVERT (R323). -/
  | convert (f : HbmFind)
  /-- EXPAND (R324). -/
  | expand (f : HbmFind)
  /-- TEXT (R324). -/
  | text (f : HbmFind)
  /-- BLT_WAIT_START (R328). -/
  | bltWaitStart
  /-- BLT_BURST_PAUSE_END (R330). -/
  | bltBurstPauseEnd
  /-- BLT_DESCRIPTOR_END (R327). -/
  | bltDescriptorEnd
  /-- ABORT (R332). -/
  | abort (r : Req) (v : Word)
  /-- THM_SAMPLE (R340). -/
  | thmSample (a : Int) (b : Int) (stuckA : Bool) (stuckB : Bool)
  /-- THM_LIMITS_WRITE (R338). -/
  | thmLimitsWrite (r : Req) (v : Word)
  /-- THM_FORCE_WRITE (R340). -/
  | thmForceWrite (r : Req) (v : Word)
  /-- THM_POWERDOWN_WAIT (R342). -/
  | thmPowerdownWait
  /-- CAL_REQ (R349). -/
  | calReq (r : Req) (v : Word)
  /-- CAL_RUN_START (R349). -/
  | calRunStart (ms : List (Int × Int))
  /-- CAL_PIER_MEASURE (R351). -/
  | calPierMeasure (p : Nat) (vals : Option (List Int))
  /-- CAL_INTERVAL_END (R350). -/
  | calIntervalEnd
  /-- CAL_JUDGE (R352). -/
  | calJudge
  /-- CAL_STORE_DONE (R353). -/
  | calStoreDone
  /-- PWR_RAIL_ENABLE (R355). -/
  | pwrRailEnable (good : Bool)
  /-- PWR_RAIL_TIMEOUT (R355). -/
  | pwrRailTimeout (rail : Nat) (vout : Nat) (status : Nat)
  /-- PWR_STAGE4_RETRY (R407). -/
  | pwrStage4Retry
  /-- PWR_QUAD_CHECK (R354). -/
  | pwrQuadCheck (v0 : Nat) (v1 : Nat) (v2 : Nat) (v3 : Nat)
  /-- AVS_ADJUST (R358). -/
  | avsAdjust (margin : Nat) (vout : Nat)
  /-- PMB_TRANSACTION (R359). -/
  | pmbTransaction (r : Req) (v : Word)
  /-- PMB_DONE (R359). -/
  | pmbDone (err : Nat) (alert : Bool) (data : Nat)
  /-- POWER_DOWN (R356). -/
  | powerDown
  /-- EVENT_HOST_SEND (R375). -/
  | eventHostSend
  /-- LOG_SUMMARY_WRITE (R379). -/
  | logSummaryWrite
  /-- EVT_REC_READ (R375). -/
  | evtRecRead (r : Req)
  /-- EVT_POST (R377). -/
  | evtPost (r : Req) (v : Word)
  /-- CLEAR (R380). -/
  | clear (r : Req) (v : Word)
  /-- WDT_KICK (R381). -/
  | wdtKick (r : Req) (v : Word)
  /-- WDT_WARN (R381). -/
  | wdtWarn
  /-- WDT_EXPIRE (R381). -/
  | wdtExpire
  /-- LOCK (R381). -/
  | lock (r : Req) (v : Word)
  /-- LOCKSTEP_MISMATCH (R363). -/
  | lockstepMismatch (pc : Nat)
  /-- TCM_ECC_ERROR (R363). -/
  | tcmEccError (a : Nat) (unc : Bool)
  /-- MBX_H2S_SEND (R382). -/
  | mbxH2sSend (r : Req) (v : Word)
  /-- MBX_H2S_ACK (R382). -/
  | mbxH2sAck (r : Req) (v : Word)
  /-- MBX_S2H_SEND (R382). -/
  | mbxS2hSend (r : Req) (v : Word)
  /-- MBX_S2H_ACK (R382). -/
  | mbxS2hAck (r : Req) (v : Word)
  /-- SEM_ACQUIRE (R371). -/
  | semAcquire (r : Req) (n : Nat)
  /-- SEM_RELEASE (R371). -/
  | semRelease (r : Req) (n : Nat)
  /-- FORCE (R371). -/
  | force (r : Req) (n : Nat)
  /-- POWER_ON_RESET (R398). -/
  | powerOnReset (e : BootIn)
  /-- SYSRST_PIN (R398). -/
  | sysrstPin (e : BootIn)
  /-- SYSRST (R398). -/
  | sysrst (r : Req) (v : Word) (e : BootIn)
  /-- FIELD (R401). -/
  | field (r : Req) (arg : Nat)
  /-- ENTER_SERVICE (R401). -/
  | enterService (r : Req) (arg : Nat)
  /-- LEAVE_SERVICE (R401). -/
  | leaveService (r : Req) (arg : Nat)
  /-- RETIRE (R401). -/
  | retire (r : Req) (arg : Nat)
  /-- ADVANCE_ROLLBACK (R401). -/
  | advanceRollback (r : Req) (arg : Nat)
  /-- REVOKE_KEY (R401). -/
  | revokeKey (r : Req) (arg : Nat)
  /-- PROGRAM_KEYS (R401). -/
  | programKeys (r : Req) (arg : Nat)
  /-- SET_SLOT (R401). -/
  | setSlot (r : Req) (arg : Nat)
  /-- CONFIRM_SLOT (R392). -/
  | confirmSlot (r : Req) (arg : Nat)
  /-- LC_CMD_RESET (R402). -/
  | lcCmdReset (e : BootIn)
  /-- RESCUE_START (R405). -/
  | rescueStart (r : Req) (v : Word)
  /-- HOSTLESS_START (R406). -/
  | hostlessStart (clip : Option Nat)
  /-- FS_SELFTEST (R422). -/
  | fsSelftest (bad : Nat)
  /-- FS_SUPPLY_FAULT (R421). -/
  | fsSupplyFault (rail : Nat) (high : Bool) (e : BootIn)
  /-- FS_TEST_START (R431). -/
  | fsTestStart (r : Req) (v : Word)
  /-- FS_TEST_END (R431). -/
  | fsTestEnd
  /-- FS_CAUSE_CLEAR (R424). -/
  | fsCauseClear (r : Req) (v : Word)
  /-- FS_PIER_CLEAR (R424). -/
  | fsPierClear (r : Req) (n : Nat) (v : Word)
  /-- FS_FAULT_RELEASE (R424). -/
  | fsFaultRelease
  /-- FS_HEARTBEAT_TOGGLE (R426). -/
  | fsHeartbeatToggle
  /-- MR_PORT_ENABLE (R270). -/
  | mrPortEnable (r : Req) (x : Nat) (v : Word)
  /-- MR_M2_EXIT (R274). -/
  | mrM2Exit (x : Nat)
  /-- MR_M1_LOCK_REGAIN (R273). -/
  | mrM1LockRegain (w : LanesSeen)
  /-- RESCUE_PROGRAM_DONE (R405). -/
  | rescueProgramDone (result : Nat) (e : BootIn)
  /-- SUPERVISOR_RELEASE (R394). -/
  | supervisorRelease
deriving DecidableEq, Repr
end Sys2Proof
end

