-- ==== Sys2Proof/Decode.lean ====
section
/-! DEFINITION. The words of the opcode table: it gives no row a field, so no word spells a command. -/

namespace Sys2Proof

/-- The command that a word of `nbits` bits spells. -/
def decodeTableWord (_nbits _w : Nat) : Option Instr := none

end Sys2Proof
end

