-- ==== Sys2Proof/Config.lean ====
section
/-! DEFINITION. What the spec leaves open or defines outside itself: constants without a body. No proof can see their
values, so a claim holds whatever they are. -/

namespace Sys2Proof.Config

/-- The n-th free value that the machine draws (log 3). -/
opaque freeValue : Nat → BitVec 64

/-- The start count that the device record of MRAM holds; the record's layout is not stated (15 R368, R378; log 6). -/
opaque startCount : List (Nat × Byte) → BitVec 32

/-- SHA-384 of a byte string (FIPS 180-4, named by 16 R385; log 7). -/
opaque sha384 : List Byte → List Byte

/-- ECDSA P-384 verification of a signature by a key over a digest (FIPS 186, named by 16 R385; log 7). -/
opaque ecdsaVerify : (key sig digest : List Byte) → Bool

/-- The bytes of the 4 KiB glyph ROM at the printable codes, whose shapes stand outside the spec (13 R324; log 8). -/
opaque glyphByte : Nat → Byte

/-- The section hogel of the top-left hogel of the tile of a pier. The image holds the tile geometry (01 R18); no rule
states where (log 10). -/
opaque tileX : (pier : Nat) → Nat

/-- As `tileX`, for the row. -/
opaque tileY : (pier : Nat) → Nat

/-- Width of the section's hogel grid (03 R72; log 10). -/
opaque gridW : Nat

/-- Height of the section's hogel grid. -/
opaque gridH : Nat

/-- Is one of the two slots of the anchor record in MRAM valid, and is it slot 1? The layout of a record's payload is not stated
(14 R346, R353; log 23). -/
opaque anchorSlot : (mram : List (Nat × Byte)) → Option Bool

/-- The value of a quantity (numbered as in `Machine/Thermal.lean`) at anchor `a` of the record in MRAM. -/
opaque anchorValue : (mram : List (Nat × Byte)) → (quantity a : Nat) → Int

end Sys2Proof.Config
end

