-- ==== Sys2Proof/Machine/Codes.lean ====
section
/-! DEFINITION. Integer operators (00 R6), number formats (00 R5), byte order (00 R7) and the check codes the spec
defines bit by bit: CRC-32C (04 R104), the CRC-8 of pier blocks (08 R192) and others built from one bit-serial loop. -/

namespace Sys2Proof

/-- `clamp(a, lo, hi)` of R6. -/
def clampI (a lo hi : Int) : Int := if a < lo then lo else if hi < a then hi else a

/-- `a div b`, rounding down (R6). -/
def divI (a : Int) (b : Nat) : Int := Int.fdiv a b

/-- `a mod b`, 0 … b − 1 (R6). -/
def modI (a : Int) (b : Nat) : Nat := (Int.fmod a b).toNat

/-- `a >> k` (R6). -/
def shrI (a : Int) (k : Nat) : Int := Int.fdiv a (2 ^ k)

/-- The signed value of the low `n` bits of `w` (R5). -/
def signed (n w : Nat) : Int :=
  let v := w % 2 ^ n
  if v < 2 ^ (n - 1) then (v : Int) else (v : Int) - 2 ^ n

/-- The `n`-bit two's-complement code of `a`. -/
def unsignedOf (n : Nat) (a : Int) : Nat := (Int.emod a (2 ^ n)).toNat

/-- The `n` little-endian bytes of `v` (R7). -/
def leBytes : Nat → Nat → List Byte
  | 0, _ => []
  | n + 1, v => byte v :: leBytes n (v / 256)

/-- The number that little-endian bytes spell (R7). -/
def leNat : List Byte → Nat
  | [] => 0
  | b :: bs => b.toNat + 256 * leNat bs

/-- The number that big-endian bytes spell. -/
def beNat (bs : List Byte) : Nat := bs.foldl (fun a b => a * 256 + b.toNat) 0

/-- `len` bytes of the list from offset `o`. -/
def slice (bs : List Byte) (o len : Nat) : List Byte := (bs.drop o).take len

/-- The little-endian number in `len` bytes from offset `o`. -/
def leAt (bs : List Byte) (o len : Nat) : Nat := leNat (slice bs o len)

/-- Bits `lo` to `lo + len - 1` of `n`. -/
def bits (n lo len : Nat) : Nat := n / 2 ^ lo % 2 ^ len

/-- Bit `k` of `n`. -/
def bit (n k : Nat) : Bool := n / 2 ^ k % 2 == 1

/-- `ceil(a / b)`. -/
def ceilDiv (a b : Nat) : Nat := (a + b - 1) / b

/-- `n` with bit `k` set. -/
def setBit (n k : Nat) : Nat := n ||| 2 ^ k

/-- `n` with bit `k` cleared. -/
def clearBit (n k : Nat) : Nat := if bit n k then n - 2 ^ k else n

/-- The number whose set bits are the listed ones. -/
def maskOf : List Nat → Nat
  | [] => 0
  | k :: ks => setBit (maskOf ks) k

/-- The parity of the bits of `n`, over its low `k` bits. -/
def parity : Nat → Nat → Bool
  | 0, _ => false
  | k + 1, n => xor (n % 2 == 1) (parity k (n / 2))

/-- How many of the low `k` bits of `n` are set. -/
def popCount : Nat → Nat → Nat
  | 0, _ => 0
  | k + 1, n => n % 2 + popCount k (n / 2)

/-- The number of bits needed to write `n` (0 for 0). -/
def bitLen (n : Nat) : Nat := if n = 0 then 0 else Nat.log2 n + 1

/-- One bit-serial step of a reflected CRC with polynomial `poly`. -/
def crcStep (poly c : Nat) : Nat := if c % 2 = 1 then c / 2 ^^^ poly else c / 2

/-- Eight steps of a reflected CRC after a byte has been mixed in. -/
def crcByte (poly c : Nat) (b : Byte) : Nat :=
  let c := c ^^^ b.toNat
  crcStep poly (crcStep poly (crcStep poly (crcStep poly (crcStep poly (crcStep poly (crcStep poly (crcStep poly c)))))))

/-- A reflected 32-bit CRC with initial value and final XOR all ones. -/
def crcReflected (poly : Nat) (bs : List Byte) : Nat := (bs.foldl (crcByte poly) 0xFFFFFFFF) ^^^ 0xFFFFFFFF

/-- CRC-32C (04 R104). -/
def crc32c (bs : List Byte) : Nat := crcReflected 0x82F63B78 bs

/-- The CRC-32 of IEEE 802.3 (11 R276). -/
def crc32 (bs : List Byte) : Nat := crcReflected 0xEDB88320 bs

/-- One byte of the CRC-8 with polynomial 0x07, most significant bit first (08 R193). -/
def crc8Byte (c : Nat) (b : Byte) : Nat :=
  let st := fun c : Nat => if 128 ≤ c then (2 * c % 256) ^^^ 7 else 2 * c
  st (st (st (st (st (st (st (st (c ^^^ b.toNat))))))))

/-- The CRC-8 of FLIP, TURN, TS, LCB, AM and EIE blocks (08 R193, 11 R269). -/
def crc8 (bs : List Byte) : Nat := bs.foldl crc8Byte 0

/-- Bits taken least significant first from a list of values of `w` bits each. -/
def packBits (w : Nat) : List Nat → Nat
  | [] => 0
  | v :: vs => v % 2 ^ w + 2 ^ w * packBits w vs

end Sys2Proof
end

