-- ==== Sys2Proof/Machine/RegMap.lean ====
section
/-! DEFINITION. The registers of the LRX-5120 as the register tables of the spec give them: their addresses (15 R366),
their fields, their access codes (00 R9) and their reset values. A field name follows its register name after a dot
(00 R4); an index in a register name is an argument. -/

namespace Sys2Proof

/-- A field of a 32-bit register: the register's address, the field's lowest bit and its width. -/
structure Field where
  addr : Nat
  lo   : Nat
  len  : Nat

/-- One row of the register tables: first address, index ranges with their strides, the bits of each access code of
R9, and the reset value where the table gives a number. -/
structure RegSpec where
  base  : Nat
  dims  : List (Nat × Nat)
  rw    : Nat
  rws   : Nat
  w1c   : Nat
  w1s   : Nat
  rwl   : Nat
  wo    : Nat
  reset : Nat
deriving DecidableEq, Repr

namespace Reg

abbrev SYS_DIE_ID : Nat := 0x10000000
abbrev SYS_BOOT_STATUS : Nat := 0x10000010
abbrev SYS_BOOT_STATUS.PHASE : Field := ⟨SYS_BOOT_STATUS, 28, 4⟩
abbrev SYS_BOOT_STATUS.SLOT : Field := ⟨SYS_BOOT_STATUS, 27, 1⟩
abbrev SYS_BOOT_STATUS.TRIAL : Field := ⟨SYS_BOOT_STATUS, 26, 1⟩
abbrev SYS_BOOT_STATUS.MODE : Field := ⟨SYS_BOOT_STATUS, 23, 3⟩
abbrev SYS_BOOT_STATUS.RESULT_B : Field := ⟨SYS_BOOT_STATUS, 8, 8⟩
abbrev SYS_BOOT_STATUS.RESULT_A : Field := ⟨SYS_BOOT_STATUS, 0, 8⟩
abbrev SYS_IMAGE : Nat := 0x10000014
abbrev SYS_IMAGE.ROLLBACK : Field := ⟨SYS_IMAGE, 24, 8⟩
abbrev SYS_IMAGE.KEY_IDX : Field := ⟨SYS_IMAGE, 16, 1⟩
abbrev SYS_IMAGE.BUILD : Field := ⟨SYS_IMAGE, 0, 16⟩
abbrev SYS_BOOT_CTRL : Nat := 0x10000020
abbrev SYS_BOOT_CTRL.HBM_GO : Field := ⟨SYS_BOOT_CTRL, 31, 1⟩
abbrev SYS_BOOT_CTRL.RESCUE_NEXT : Field := ⟨SYS_BOOT_CTRL, 30, 1⟩
abbrev SYS_RESET : Nat := 0x10000024
abbrev SYS_RESET.KEY : Field := ⟨SYS_RESET, 16, 16⟩
abbrev SYS_RESET.SYSRST : Field := ⟨SYS_RESET, 0, 1⟩
abbrev SYS_RESET_CAUSE : Nat := 0x10000028
abbrev SYS_RESET_CAUSE.RESCUE_END : Field := ⟨SYS_RESET_CAUSE, 5, 1⟩
abbrev SYS_RESET_CAUSE.LC : Field := ⟨SYS_RESET_CAUSE, 4, 1⟩
abbrev SYS_RESET_CAUSE.HOST : Field := ⟨SYS_RESET_CAUSE, 3, 1⟩
abbrev SYS_RESET_CAUSE.SOFTWARE : Field := ⟨SYS_RESET_CAUSE, 2, 1⟩
abbrev SYS_RESET_CAUSE.PIN : Field := ⟨SYS_RESET_CAUSE, 1, 1⟩
abbrev SYS_RESET_CAUSE.POWER_ON : Field := ⟨SYS_RESET_CAUSE, 0, 1⟩
abbrev SYS_RESCUE : Nat := 0x10000030
abbrev SYS_RESCUE.START : Field := ⟨SYS_RESCUE, 31, 1⟩
abbrev SYS_RESCUE.SLOT : Field := ⟨SYS_RESCUE, 24, 1⟩
abbrev SYS_RESCUE.STATE : Field := ⟨SYS_RESCUE, 20, 4⟩
abbrev SYS_RESCUE.RESULT : Field := ⟨SYS_RESCUE, 0, 8⟩
abbrev LC_STATE : Nat := 0x10001000
abbrev LC_STATE.STATE : Field := ⟨LC_STATE, 30, 2⟩
abbrev LC_STATE.PENDING : Field := ⟨LC_STATE, 24, 4⟩
abbrev LC_CMD : Nat := 0x10001004
abbrev LC_CMD.OP : Field := ⟨LC_CMD, 24, 8⟩
abbrev LC_CMD.ARG : Field := ⟨LC_CMD, 0, 8⟩
abbrev LC_RESULT : Nat := 0x10001008
abbrev LC_RESULT.BUSY : Field := ⟨LC_RESULT, 31, 1⟩
abbrev LC_RESULT.CODE : Field := ⟨LC_RESULT, 0, 8⟩
abbrev LC_NONCE : Nat := 0x10001010
abbrev LC_FUSE : Nat := 0x10001018
abbrev LC_FUSE.KEY1_REVOKED : Field := ⟨LC_FUSE, 13, 1⟩
abbrev LC_FUSE.KEY0_REVOKED : Field := ⟨LC_FUSE, 12, 1⟩
abbrev LC_FUSE.KEY1_SET : Field := ⟨LC_FUSE, 11, 1⟩
abbrev LC_FUSE.KEY0_SET : Field := ⟨LC_FUSE, 10, 1⟩
abbrev LC_FUSE.RETIRED : Field := ⟨LC_FUSE, 9, 1⟩
abbrev LC_FUSE.TEST_DONE : Field := ⟨LC_FUSE, 8, 1⟩
abbrev LC_FUSE.ROLLBACK : Field := ⟨LC_FUSE, 0, 6⟩
abbrev LC_SLOT : Nat := 0x1000101C
abbrev LC_SLOT.TRIES : Field := ⟨LC_SLOT, 16, 2⟩
abbrev LC_SLOT.TRIAL : Field := ⟨LC_SLOT, 9, 1⟩
abbrev LC_SLOT.PREFERRED : Field := ⟨LC_SLOT, 8, 1⟩
abbrev LC_SLOT.CONFIRMED_B : Field := ⟨LC_SLOT, 1, 1⟩
abbrev LC_SLOT.CONFIRMED_A : Field := ⟨LC_SLOT, 0, 1⟩
abbrev LC_TOKEN (w : Nat) : Nat := 0x10001100 + 0x4 * w
abbrev LC_TOKEN.DATA (w : Nat) : Field := ⟨LC_TOKEN w, 0, 32⟩
abbrev SUP_HBM_WIN : Nat := 0x10002000
abbrev SUP_HBM_WIN.WIN : Field := ⟨SUP_HBM_WIN, 0, 4⟩
abbrev SUP_TCM_ECC : Nat := 0x10002008
abbrev SUP_TCM_ECC.CORR : Field := ⟨SUP_TCM_ECC, 0, 16⟩
abbrev SUP_IRQ_PEND : Nat := 0x1000200C
abbrev SUP_IRQ_PEND.S2H_ACK : Field := ⟨SUP_IRQ_PEND, 5, 1⟩
abbrev SUP_IRQ_PEND.H2S : Field := ⟨SUP_IRQ_PEND, 4, 1⟩
abbrev SUP_IRQ_PEND.WDT : Field := ⟨SUP_IRQ_PEND, 3, 1⟩
abbrev SUP_IRQ_PEND.BLT : Field := ⟨SUP_IRQ_PEND, 2, 1⟩
abbrev SUP_IRQ_PEND.ALARM : Field := ⟨SUP_IRQ_PEND, 1, 1⟩
abbrev SUP_IRQ_PEND.EVT : Field := ⟨SUP_IRQ_PEND, 0, 1⟩
abbrev SUP_IRQ_EN : Nat := 0x10002010
abbrev SUP_IRQ_EN.S2H_ACK : Field := ⟨SUP_IRQ_EN, 5, 1⟩
abbrev SUP_IRQ_EN.H2S : Field := ⟨SUP_IRQ_EN, 4, 1⟩
abbrev SUP_IRQ_EN.WDT : Field := ⟨SUP_IRQ_EN, 3, 1⟩
abbrev SUP_IRQ_EN.BLT : Field := ⟨SUP_IRQ_EN, 2, 1⟩
abbrev SUP_IRQ_EN.ALARM : Field := ⟨SUP_IRQ_EN, 1, 1⟩
abbrev SUP_IRQ_EN.EVT : Field := ⟨SUP_IRQ_EN, 0, 1⟩
abbrev SUP_WDT_CFG : Nat := 0x10002020
abbrev SUP_WDT_CFG.LOCK : Field := ⟨SUP_WDT_CFG, 31, 1⟩
abbrev SUP_WDT_CFG.TIMEOUT : Field := ⟨SUP_WDT_CFG, 16, 12⟩
abbrev SUP_WDT_CFG.OPEN : Field := ⟨SUP_WDT_CFG, 0, 12⟩
abbrev SUP_WDT_KICK : Nat := 0x10002024
abbrev SUP_WDT_KICK.KEY : Field := ⟨SUP_WDT_KICK, 0, 16⟩
abbrev SUP_WDT_STATUS : Nat := 0x10002028
abbrev SUP_WDT_STATUS.KICKS : Field := ⟨SUP_WDT_STATUS, 16, 16⟩
abbrev SUP_WDT_STATUS.WARN : Field := ⟨SUP_WDT_STATUS, 1, 1⟩
abbrev SUP_WDT_STATUS.NEXT : Field := ⟨SUP_WDT_STATUS, 0, 1⟩
abbrev SUP_SEM (n : Nat) : Nat := 0x10002040 + 0x4 * n
abbrev SUP_SEM.GOT (n : Nat) : Field := ⟨SUP_SEM n, 31, 1⟩
abbrev SUP_SEM.FORCE (n : Nat) : Field := ⟨SUP_SEM n, 30, 1⟩
abbrev SUP_SEM.OWNER (n : Nat) : Field := ⟨SUP_SEM n, 0, 2⟩
abbrev SUP_MBX_H2S_CTRL : Nat := 0x10002100
abbrev SUP_MBX_H2S_CTRL.SEND : Field := ⟨SUP_MBX_H2S_CTRL, 31, 1⟩
abbrev SUP_MBX_H2S_CTRL.ACK : Field := ⟨SUP_MBX_H2S_CTRL, 30, 1⟩
abbrev SUP_MBX_H2S_CTRL.BUSY : Field := ⟨SUP_MBX_H2S_CTRL, 29, 1⟩
abbrev SUP_MBX_H2S_CTRL.ACKED : Field := ⟨SUP_MBX_H2S_CTRL, 28, 1⟩
abbrev SUP_MBX_H2S_CTRL.OVERRUN : Field := ⟨SUP_MBX_H2S_CTRL, 27, 1⟩
abbrev SUP_MBX_H2S_CTRL.LEN : Field := ⟨SUP_MBX_H2S_CTRL, 8, 5⟩
abbrev SUP_MBX_H2S_CTRL.MSEQ : Field := ⟨SUP_MBX_H2S_CTRL, 0, 8⟩
abbrev SUP_MBX_H2S_DATA (i : Nat) : Nat := 0x10002140 + 0x4 * i
abbrev SUP_MBX_H2S_DATA.DATA (i : Nat) : Field := ⟨SUP_MBX_H2S_DATA i, 0, 32⟩
abbrev SUP_MBX_S2H_CTRL : Nat := 0x10002180
abbrev SUP_MBX_S2H_CTRL.SEND : Field := ⟨SUP_MBX_S2H_CTRL, 31, 1⟩
abbrev SUP_MBX_S2H_CTRL.ACK : Field := ⟨SUP_MBX_S2H_CTRL, 30, 1⟩
abbrev SUP_MBX_S2H_CTRL.BUSY : Field := ⟨SUP_MBX_S2H_CTRL, 29, 1⟩
abbrev SUP_MBX_S2H_CTRL.ACKED : Field := ⟨SUP_MBX_S2H_CTRL, 28, 1⟩
abbrev SUP_MBX_S2H_CTRL.OVERRUN : Field := ⟨SUP_MBX_S2H_CTRL, 27, 1⟩
abbrev SUP_MBX_S2H_CTRL.LEN : Field := ⟨SUP_MBX_S2H_CTRL, 8, 5⟩
abbrev SUP_MBX_S2H_CTRL.MSEQ : Field := ⟨SUP_MBX_S2H_CTRL, 0, 8⟩
abbrev SUP_MBX_S2H_DATA (i : Nat) : Nat := 0x100021C0 + 0x4 * i
abbrev SUP_MBX_S2H_DATA.DATA (i : Nat) : Field := ⟨SUP_MBX_S2H_DATA i, 0, 32⟩
abbrev EVT_CTRL : Nat := 0x10003000
abbrev EVT_CTRL.HOST_EN : Field := ⟨EVT_CTRL, 16, 1⟩
abbrev EVT_CTRL.HOST_MIN : Field := ⟨EVT_CTRL, 8, 2⟩
abbrev EVT_CTRL.IRQ_MIN : Field := ⟨EVT_CTRL, 4, 2⟩
abbrev EVT_CTRL.LOG_WARN : Field := ⟨EVT_CTRL, 0, 1⟩
abbrev EVT_STATUS : Nat := 0x10003004
abbrev EVT_STATUS.SUP_LEVEL : Field := ⟨EVT_STATUS, 16, 10⟩
abbrev EVT_STATUS.HOST_LEVEL : Field := ⟨EVT_STATUS, 0, 9⟩
abbrev EVT_COUNT : Nat := 0x10003008
abbrev EVT_COUNT.SUP_DROPPED : Field := ⟨EVT_COUNT, 16, 16⟩
abbrev EVT_COUNT.HOST_DROPPED : Field := ⟨EVT_COUNT, 0, 16⟩
abbrev EVT_REC (w : Nat) : Nat := 0x10003020 + 0x4 * w
abbrev EVT_REC.REC (w : Nat) : Field := ⟨EVT_REC w, 0, 32⟩
abbrev EVT_POST_DATA (w : Nat) : Nat := 0x10003040 + 0x4 * w
abbrev EVT_POST_DATA.DATA (w : Nat) : Field := ⟨EVT_POST_DATA w, 0, 32⟩
abbrev EVT_POST : Nat := 0x10003050
abbrev EVT_POST.CODE : Field := ⟨EVT_POST, 16, 16⟩
abbrev EVT_POST.SEV : Field := ⟨EVT_POST, 8, 2⟩
abbrev EVT_POST.LEN : Field := ⟨EVT_POST, 0, 5⟩
abbrev EVT_LOG_STATUS : Nat := 0x10003060
abbrev EVT_LOG_STATUS.HEAD : Field := ⟨EVT_LOG_STATUS, 0, 14⟩
abbrev EVT_LOG_SEQ : Nat := 0x10003064
abbrev EVT_LOG_SEQ.LOGSEQ : Field := ⟨EVT_LOG_SEQ, 0, 32⟩
abbrev EVT_LOG_CTRL : Nat := 0x10003068
abbrev EVT_LOG_CTRL.CLEAR : Field := ⟨EVT_LOG_CTRL, 0, 1⟩
abbrev EVT_LOG_COUNT : Nat := 0x1000306C
abbrev EVT_LOG_COUNT.SUPPRESSED : Field := ⟨EVT_LOG_COUNT, 16, 16⟩
abbrev EVT_LOG_COUNT.WRITTEN : Field := ⟨EVT_LOG_COUNT, 0, 16⟩
abbrev DECK_STATE : Nat := 0x11000000
abbrev DECK_STATE.REFUSED : Field := ⟨DECK_STATE, 8, 1⟩
abbrev DECK_STATE.REQ : Field := ⟨DECK_STATE, 4, 4⟩
abbrev DECK_STATE.CUR : Field := ⟨DECK_STATE, 0, 2⟩
abbrev DECK_CTRL : Nat := 0x11000004
abbrev DECK_CTRL.RUN : Field := ⟨DECK_CTRL, 0, 1⟩
abbrev DECK_FRAME_BASE_LO : Nat := 0x11000010
abbrev DECK_FRAME_BASE_LO.BASE : Field := ⟨DECK_FRAME_BASE_LO, 0, 32⟩
abbrev DECK_FRAME_BASE_HI : Nat := 0x11000014
abbrev DECK_FRAME_BASE_HI.BASE : Field := ⟨DECK_FRAME_BASE_HI, 0, 16⟩
abbrev DECK_PERIOD_NUM : Nat := 0x11000018
abbrev DECK_PERIOD_NUM.NUM : Field := ⟨DECK_PERIOD_NUM, 0, 32⟩
abbrev DECK_PERIOD_DEN : Nat := 0x1100001C
abbrev DECK_PERIOD_DEN.DEN : Field := ⟨DECK_PERIOD_DEN, 0, 7⟩
abbrev DECK_LINES : Nat := 0x11000020
abbrev DECK_LINES.LINES : Field := ⟨DECK_LINES, 0, 7⟩
abbrev DECK_LINE_PERIOD : Nat := 0x11000024
abbrev DECK_LINE_PERIOD.PERIOD : Field := ⟨DECK_LINE_PERIOD, 0, 32⟩
abbrev DECK_FLIP_OFFSET : Nat := 0x11000028
abbrev DECK_FLIP_OFFSET.OFFSET : Field := ⟨DECK_FLIP_OFFSET, 0, 32⟩
abbrev DECK_LEAD : Nat := 0x1100002C
abbrev DECK_LEAD.LEAD : Field := ⟨DECK_LEAD, 0, 3⟩
abbrev DECK_COMMIT : Nat := 0x11000040
abbrev DECK_COMMIT.GO : Field := ⟨DECK_COMMIT, 31, 1⟩
abbrev DECK_COMMIT.TIMED : Field := ⟨DECK_COMMIT, 30, 1⟩
abbrev DECK_COMMIT.CANCEL : Field := ⟨DECK_COMMIT, 29, 1⟩
abbrev DECK_COMMIT.TAG : Field := ⟨DECK_COMMIT, 0, 8⟩
abbrev DECK_COMMIT_TIME_LO : Nat := 0x11000044
abbrev DECK_COMMIT_TIME_LO.T : Field := ⟨DECK_COMMIT_TIME_LO, 0, 32⟩
abbrev DECK_COMMIT_TIME_HI : Nat := 0x11000048
abbrev DECK_COMMIT_TIME_HI.T : Field := ⟨DECK_COMMIT_TIME_HI, 0, 16⟩
abbrev DECK_COMMIT_SEQ : Nat := 0x1100004C
abbrev DECK_COMMIT_SEQ.LAST : Field := ⟨DECK_COMMIT_SEQ, 16, 16⟩
abbrev DECK_COMMIT_SEQ.ACTIVE : Field := ⟨DECK_COMMIT_SEQ, 0, 16⟩
abbrev DECK_COMMIT_QUEUE : Nat := 0x11000050
abbrev DECK_COMMIT_QUEUE.PENDING : Field := ⟨DECK_COMMIT_QUEUE, 0, 3⟩
abbrev DECK_SYNC_MAP (x : Nat) : Nat := 0x11000060 + 0x4 * x
abbrev DECK_SYNC_MAP.GROUP (x : Nat) : Field := ⟨DECK_SYNC_MAP x, 0, 32⟩
abbrev DECK_SHED_CFG : Nat := 0x11000080
abbrev DECK_SHED_CFG.FORCE_ALL : Field := ⟨DECK_SHED_CFG, 31, 1⟩
abbrev DECK_SHED_CFG.HOLDOFF : Field := ⟨DECK_SHED_CFG, 16, 8⟩
abbrev DECK_SHED_CFG.UNDERRUN : Field := ⟨DECK_SHED_CFG, 8, 8⟩
abbrev DECK_SHED_CFG.THROTTLE : Field := ⟨DECK_SHED_CFG, 0, 3⟩
abbrev DECK_SHED_STATUS : Nat := 0x11000084
abbrev DECK_SHED_STATUS.SHED : Field := ⟨DECK_SHED_STATUS, 0, 32⟩
abbrev DECK_FRAME_NUM_LO : Nat := 0x11000090
abbrev DECK_FRAME_NUM_LO.FRAME : Field := ⟨DECK_FRAME_NUM_LO, 0, 32⟩
abbrev DECK_FRAME_NUM_HI : Nat := 0x11000094
abbrev DECK_FRAME_NUM_HI.FRAME : Field := ⟨DECK_FRAME_NUM_HI, 0, 16⟩
abbrev DECK_SCAN_POS : Nat := 0x11000098
abbrev DECK_SCAN_POS.BLANK : Field := ⟨DECK_SCAN_POS, 16, 1⟩
abbrev DECK_SCAN_POS.LINE : Field := ⟨DECK_SCAN_POS, 0, 7⟩
abbrev DECK_COMMIT_STATUS_A (m : Nat) : Nat := 0x11000100 + 0x10 * m
abbrev DECK_COMMIT_STATUS_A.SEQ (m : Nat) : Field := ⟨DECK_COMMIT_STATUS_A m, 16, 16⟩
abbrev DECK_COMMIT_STATUS_A.TAG (m : Nat) : Field := ⟨DECK_COMMIT_STATUS_A m, 8, 8⟩
abbrev DECK_COMMIT_STATUS_A.WRITER (m : Nat) : Field := ⟨DECK_COMMIT_STATUS_A m, 7, 1⟩
abbrev DECK_COMMIT_STATUS_A.LATE (m : Nat) : Field := ⟨DECK_COMMIT_STATUS_A m, 6, 1⟩
abbrev DECK_COMMIT_STATUS_A.STATE (m : Nat) : Field := ⟨DECK_COMMIT_STATUS_A m, 3, 3⟩
abbrev DECK_COMMIT_STATUS_FRAME (m : Nat) : Nat := 0x11000104 + 0x10 * m
abbrev DECK_COMMIT_STATUS_FRAME.FRAME (m : Nat) : Field := ⟨DECK_COMMIT_STATUS_FRAME m, 0, 32⟩
abbrev DECK_COMMIT_STATUS_CODE (m : Nat) : Nat := 0x11000108 + 0x10 * m
abbrev DECK_COMMIT_STATUS_CODE.CODE (m : Nat) : Field := ⟨DECK_COMMIT_STATUS_CODE m, 8, 8⟩
abbrev DECK_COMMIT_STATUS_CODE.DETAIL (m : Nat) : Field := ⟨DECK_COMMIT_STATUS_CODE m, 0, 8⟩
abbrev DECK_SNAP_GEN (b : Nat) : Nat := 0x11000200 + 0x40 * b
abbrev DECK_SNAP_GEN.BUSY (b : Nat) : Field := ⟨DECK_SNAP_GEN b, 31, 1⟩
abbrev DECK_SNAP_GEN.FRAME (b : Nat) : Field := ⟨DECK_SNAP_GEN b, 0, 31⟩
abbrev DECK_SNAP_NT_LO (b : Nat) : Nat := 0x11000204 + 0x40 * b
abbrev DECK_SNAP_NT_LO.NT (b : Nat) : Field := ⟨DECK_SNAP_NT_LO b, 0, 32⟩
abbrev DECK_SNAP_NT_HI (b : Nat) : Nat := 0x11000208 + 0x40 * b
abbrev DECK_SNAP_NT_HI.REPEAT (b : Nat) : Field := ⟨DECK_SNAP_NT_HI b, 18, 1⟩
abbrev DECK_SNAP_NT_HI.LATE_FLIP (b : Nat) : Field := ⟨DECK_SNAP_NT_HI b, 17, 1⟩
abbrev DECK_SNAP_NT_HI.TIME_STEP (b : Nat) : Field := ⟨DECK_SNAP_NT_HI b, 16, 1⟩
abbrev DECK_SNAP_NT_HI.NT (b : Nat) : Field := ⟨DECK_SNAP_NT_HI b, 0, 16⟩
abbrev DECK_SNAP_SEQ (b : Nat) : Nat := 0x1100020C + 0x40 * b
abbrev DECK_SNAP_SEQ.APPLIED (b : Nat) : Field := ⟨DECK_SNAP_SEQ b, 16, 16⟩
abbrev DECK_SNAP_SEQ.ACTIVE (b : Nat) : Field := ⟨DECK_SNAP_SEQ b, 0, 16⟩
abbrev DECK_SNAP_UNDERRUN (b : Nat) : Nat := 0x11000210 + 0x40 * b
abbrev DECK_SNAP_UNDERRUN.MASK (b : Nat) : Field := ⟨DECK_SNAP_UNDERRUN b, 0, 32⟩
abbrev DECK_SNAP_HOLD (b : Nat) : Nat := 0x11000214 + 0x40 * b
abbrev DECK_SNAP_HOLD.MASK (b : Nat) : Field := ⟨DECK_SNAP_HOLD b, 0, 32⟩
abbrev DECK_SNAP_RAYHOLD (b : Nat) : Nat := 0x11000218 + 0x40 * b
abbrev DECK_SNAP_RAYHOLD.COUNT (b : Nat) : Field := ⟨DECK_SNAP_RAYHOLD b, 0, 32⟩
abbrev DECK_SNAP_TOTALS (b : Nat) : Nat := 0x1100021C + 0x40 * b
abbrev DECK_SNAP_TOTALS.UNDERRUNS (b : Nat) : Field := ⟨DECK_SNAP_TOTALS b, 16, 16⟩
abbrev DECK_SNAP_TOTALS.LATE (b : Nat) : Field := ⟨DECK_SNAP_TOTALS b, 0, 16⟩
abbrev DECK_SHOWN (n : Nat) : Nat := 0x11000400 + 0x4 * n
abbrev DECK_SHOWN.SRC (n : Nat) : Field := ⟨DECK_SHOWN n, 30, 2⟩
abbrev DECK_SHOWN.ADDR (n : Nat) : Field := ⟨DECK_SHOWN n, 0, 30⟩
abbrev LAYER_INFO (n : Nat) : Nat := 0x12000000 + 0x80 * n
abbrev LAYER_INFO.OWNER (n : Nat) : Field := ⟨LAYER_INFO n, 1, 1⟩
abbrev LAYER_INFO.KIND (n : Nat) : Field := ⟨LAYER_INFO n, 0, 1⟩
abbrev LAYER_CTRL (n : Nat) : Nat := 0x12000004 + 0x80 * n
abbrev LAYER_CTRL.LUT (n : Nat) : Field := ⟨LAYER_CTRL n, 24, 5⟩
abbrev LAYER_CTRL.SHED_RANK (n : Nat) : Field := ⟨LAYER_CTRL n, 16, 4⟩
abbrev LAYER_CTRL.PRIO (n : Nat) : Field := ⟨LAYER_CTRL n, 8, 5⟩
abbrev LAYER_CTRL.FORMAT (n : Nat) : Field := ⟨LAYER_CTRL n, 4, 3⟩
abbrev LAYER_CTRL.EDGE (n : Nat) : Field := ⟨LAYER_CTRL n, 2, 1⟩
abbrev LAYER_CTRL.MODE (n : Nat) : Field := ⟨LAYER_CTRL n, 1, 1⟩
abbrev LAYER_CTRL.ENABLE (n : Nat) : Field := ⟨LAYER_CTRL n, 0, 1⟩
abbrev LAYER_SIZE (n : Nat) : Nat := 0x12000008 + 0x80 * n
abbrev LAYER_SIZE.SRC_H (n : Nat) : Field := ⟨LAYER_SIZE n, 16, 13⟩
abbrev LAYER_SIZE.SRC_W (n : Nat) : Field := ⟨LAYER_SIZE n, 0, 13⟩
abbrev LAYER_PITCH (n : Nat) : Nat := 0x1200000C + 0x80 * n
abbrev LAYER_PITCH.PITCH (n : Nat) : Field := ⟨LAYER_PITCH n, 0, 20⟩
abbrev LAYER_BUF (n : Nat) (r : Nat) : Nat := 0x12000010 + 0x80 * n + 0x4 * r
abbrev LAYER_BUF.ADDR (n : Nat) (r : Nat) : Field := ⟨LAYER_BUF n r, 0, 26⟩
abbrev LAYER_STREAM (n : Nat) : Nat := 0x1200001C + 0x80 * n
abbrev LAYER_STREAM.COUNT (n : Nat) : Field := ⟨LAYER_STREAM n, 18, 14⟩
abbrev LAYER_STREAM.BASE (n : Nat) : Field := ⟨LAYER_STREAM n, 0, 18⟩
abbrev LAYER_PLANE (n : Nat) : Nat := 0x12000020 + 0x80 * n
abbrev LAYER_PLANE.PLANE_H (n : Nat) : Field := ⟨LAYER_PLANE n, 16, 13⟩
abbrev LAYER_PLANE.PLANE_W (n : Nat) : Field := ⟨LAYER_PLANE n, 0, 13⟩
abbrev LAYER_SCALER (n : Nat) : Nat := 0x12000024 + 0x80 * n
abbrev LAYER_SCALER.VTAPS (n : Nat) : Field := ⟨LAYER_SCALER n, 8, 3⟩
abbrev LAYER_SCALER.HTAPS (n : Nat) : Field := ⟨LAYER_SCALER n, 4, 3⟩
abbrev LAYER_SCALER.COEF (n : Nat) : Field := ⟨LAYER_SCALER n, 0, 4⟩
abbrev LAYER_STEP_X (n : Nat) : Nat := 0x12000028 + 0x80 * n
abbrev LAYER_STEP_X.STEP (n : Nat) : Field := ⟨LAYER_STEP_X n, 0, 20⟩
abbrev LAYER_STEP_Y (n : Nat) : Nat := 0x1200002C + 0x80 * n
abbrev LAYER_STEP_Y.STEP (n : Nat) : Field := ⟨LAYER_STEP_Y n, 0, 20⟩
abbrev LAYER_INIT_X (n : Nat) : Nat := 0x12000030 + 0x80 * n
abbrev LAYER_INIT_X.INIT (n : Nat) : Field := ⟨LAYER_INIT_X n, 0, 32⟩
abbrev LAYER_INIT_Y (n : Nat) : Nat := 0x12000034 + 0x80 * n
abbrev LAYER_INIT_Y.INIT (n : Nat) : Field := ⟨LAYER_INIT_Y n, 0, 32⟩
abbrev LAYER_ORG_X (n : Nat) : Nat := 0x12000038 + 0x80 * n
abbrev LAYER_ORG_X.ORG (n : Nat) : Field := ⟨LAYER_ORG_X n, 0, 32⟩
abbrev LAYER_ORG_Y (n : Nat) : Nat := 0x1200003C + 0x80 * n
abbrev LAYER_ORG_Y.ORG (n : Nat) : Field := ⟨LAYER_ORG_Y n, 0, 32⟩
abbrev LAYER_HSCALE (n : Nat) : Nat := 0x12000040 + 0x80 * n
abbrev LAYER_HSCALE.X (n : Nat) : Field := ⟨LAYER_HSCALE n, 16, 16⟩
abbrev LAYER_HSCALE.Y (n : Nat) : Field := ⟨LAYER_HSCALE n, 0, 16⟩
abbrev LAYER_DISP_H (n : Nat) : Nat := 0x12000044 + 0x80 * n
abbrev LAYER_DISP_H.DISP (n : Nat) : Field := ⟨LAYER_DISP_H n, 0, 17⟩
abbrev LAYER_DISP_V (n : Nat) : Nat := 0x12000048 + 0x80 * n
abbrev LAYER_DISP_V.DISP (n : Nat) : Field := ⟨LAYER_DISP_V n, 0, 17⟩
abbrev LAYER_DEPTH (n : Nat) : Nat := 0x1200004C + 0x80 * n
abbrev LAYER_DEPTH.DEPTH (n : Nat) : Field := ⟨LAYER_DEPTH n, 0, 24⟩
abbrev LAYER_DST (n : Nat) : Nat := 0x12000050 + 0x80 * n
abbrev LAYER_DST.DST_Y (n : Nat) : Field := ⟨LAYER_DST n, 16, 13⟩
abbrev LAYER_DST.DST_X (n : Nat) : Field := ⟨LAYER_DST n, 0, 13⟩
abbrev LAYER_FENCE (n : Nat) : Nat := 0x12000058 + 0x80 * n
abbrev LAYER_FENCE.VALID (n : Nat) : Field := ⟨LAYER_FENCE n, 31, 1⟩
abbrev LAYER_FENCE.ADDR (n : Nat) : Field := ⟨LAYER_FENCE n, 0, 26⟩
abbrev LAYER_CELL (n : Nat) : Nat := 0x1200005C + 0x80 * n
abbrev LAYER_CELL.CH (n : Nat) : Field := ⟨LAYER_CELL n, 16, 10⟩
abbrev LAYER_CELL.CW (n : Nat) : Field := ⟨LAYER_CELL n, 0, 10⟩
abbrev LAYER_LUT_SRC_LO : Nat := 0x12002000
abbrev LAYER_LUT_SRC_LO.ADDR : Field := ⟨LAYER_LUT_SRC_LO, 8, 24⟩
abbrev LAYER_LUT_SRC_HI : Nat := 0x12002004
abbrev LAYER_LUT_SRC_HI.ADDR : Field := ⟨LAYER_LUT_SRC_HI, 0, 2⟩
abbrev LAYER_LUT_CRC : Nat := 0x12002008
abbrev LAYER_LUT_CRC.CRC : Field := ⟨LAYER_LUT_CRC, 0, 32⟩
abbrev LAYER_LUT_LOAD : Nat := 0x1200200C
abbrev LAYER_LUT_LOAD.START : Field := ⟨LAYER_LUT_LOAD, 31, 1⟩
abbrev LAYER_LUT_LOAD.KIND : Field := ⟨LAYER_LUT_LOAD, 8, 1⟩
abbrev LAYER_LUT_LOAD.SLOT : Field := ⟨LAYER_LUT_LOAD, 0, 5⟩
abbrev LAYER_LUT_STATUS : Nat := 0x12002010
abbrev LAYER_LUT_STATUS.BUSY : Field := ⟨LAYER_LUT_STATUS, 31, 1⟩
abbrev LAYER_LUT_STATUS.ERR : Field := ⟨LAYER_LUT_STATUS, 16, 3⟩
abbrev LAYER_LUT_STATUS.DONE : Field := ⟨LAYER_LUT_STATUS, 0, 1⟩
abbrev LAYER_LUT_LOADED : Nat := 0x12002014
abbrev LAYER_LUT_LOADED.LOADED : Field := ⟨LAYER_LUT_LOADED, 0, 32⟩
abbrev COMB_MODE : Nat := 0x13000000
abbrev COMB_MODE.PROJ : Field := ⟨COMB_MODE, 4, 4⟩
abbrev COMB_MODE.ACTIVE : Field := ⟨COMB_MODE, 0, 4⟩
abbrev COMB_AUDIT_CFG : Nat := 0x13000004
abbrev COMB_AUDIT_CFG.EN : Field := ⟨COMB_AUDIT_CFG, 0, 1⟩
abbrev COMB_AUDIT_SEED : Nat := 0x13000008
abbrev COMB_AUDIT_SEED.SEED : Field := ⟨COMB_AUDIT_SEED, 0, 32⟩
abbrev COMB_THROTTLE : Nat := 0x1300000C
abbrev COMB_THROTTLE.LEVEL : Field := ⟨COMB_THROTTLE, 0, 3⟩
abbrev COMB_RECIPE (c : Nat) : Nat := 0x13001000 + 0x100 * c
abbrev COMB_RECIPE.SLOT (c : Nat) : Field := ⟨COMB_RECIPE c, 0, 4⟩
abbrev COMB_CTRL (c : Nat) : Nat := 0x13001004 + 0x100 * c
abbrev COMB_CTRL.FORCE_OFF (c : Nat) : Field := ⟨COMB_CTRL c, 31, 1⟩
abbrev COMB_CTRL.FAILED_ACK (c : Nat) : Field := ⟨COMB_CTRL c, 30, 1⟩
abbrev COMB_CTRL.CELL_OFF (c : Nat) : Field := ⟨COMB_CTRL c, 0, 12⟩
abbrev COMB_STATUS (c : Nat) : Nat := 0x13001008 + 0x100 * c
abbrev COMB_STATUS.POWER (c : Nat) : Field := ⟨COMB_STATUS c, 30, 2⟩
abbrev COMB_STATUS.GAPPED (c : Nat) : Field := ⟨COMB_STATUS c, 29, 1⟩
abbrev COMB_STATUS.SERVES_BUDDY (c : Nat) : Field := ⟨COMB_STATUS c, 28, 1⟩
abbrev COMB_STATUS.CELLS_OK (c : Nat) : Field := ⟨COMB_STATUS c, 0, 12⟩
abbrev COMB_BAND_PEAK (c : Nat) : Nat := 0x1300100C + 0x100 * c
abbrev COMB_BAND_PEAK.BYTES (c : Nat) : Field := ⟨COMB_BAND_PEAK c, 0, 23⟩
abbrev COMB_UTIL (c : Nat) : Nat := 0x13001010 + 0x100 * c
abbrev COMB_UTIL.BUSY (c : Nat) : Field := ⟨COMB_UTIL c, 16, 16⟩
abbrev COMB_UTIL.ABANDONED (c : Nat) : Field := ⟨COMB_UTIL c, 0, 16⟩
abbrev COMB_ECC (c : Nat) : Nat := 0x13001014 + 0x100 * c
abbrev COMB_ECC.CORR (c : Nat) : Field := ⟨COMB_ECC c, 16, 16⟩
abbrev COMB_ECC.UNCORR (c : Nat) : Field := ⟨COMB_ECC c, 0, 16⟩
abbrev COMB_AUDIT (c : Nat) : Nat := 0x13001018 + 0x100 * c
abbrev COMB_AUDIT.RUN (c : Nat) : Field := ⟨COMB_AUDIT c, 16, 16⟩
abbrev COMB_AUDIT.SKIPPED (c : Nat) : Field := ⟨COMB_AUDIT c, 8, 8⟩
abbrev COMB_AUDIT.MISMATCH (c : Nat) : Field := ⟨COMB_AUDIT c, 0, 8⟩
abbrev NEC_CTRL : Nat := 0x14000000
abbrev NEC_CTRL.CTX_FLUSH : Field := ⟨NEC_CTRL, 31, 1⟩
abbrev NEC_CTRL.JOB_UNITS : Field := ⟨NEC_CTRL, 8, 5⟩
abbrev NEC_CTRL.EN : Field := ⟨NEC_CTRL, 0, 1⟩
abbrev NEC_STATUS : Nat := 0x14000004
abbrev NEC_STATUS.FLUSH_BUSY : Field := ⟨NEC_STATUS, 31, 1⟩
abbrev NEC_STATUS.UNITS_BUSY : Field := ⟨NEC_STATUS, 16, 6⟩
abbrev NEC_STATUS.DEFERRED : Field := ⟨NEC_STATUS, 0, 16⟩
abbrev NEC_CTX_BASE : Nat := 0x14000010
abbrev NEC_CTX_BASE.ADDR : Field := ⟨NEC_CTX_BASE, 0, 14⟩
abbrev NEC_RING_BASE : Nat := 0x14000014
abbrev NEC_RING_BASE.ADDR : Field := ⟨NEC_RING_BASE, 0, 14⟩
abbrev NEC_RING_SIZE : Nat := 0x14000018
abbrev NEC_RING_SIZE.MIB : Field := ⟨NEC_RING_SIZE, 0, 11⟩
abbrev NEC_RING_FILL : Nat := 0x1400001C
abbrev NEC_RING_FILL.KIB : Field := ⟨NEC_RING_FILL, 0, 32⟩
abbrev NEC_JQ_BASE : Nat := 0x14000020
abbrev NEC_JQ_BASE.ADDR : Field := ⟨NEC_JQ_BASE, 0, 28⟩
abbrev NEC_JQ_SIZE : Nat := 0x14000024
abbrev NEC_JQ_SIZE.ENTRIES : Field := ⟨NEC_JQ_SIZE, 0, 13⟩
abbrev NEC_JQ_TAIL : Nat := 0x14000028
abbrev NEC_JQ_TAIL.TAIL : Field := ⟨NEC_JQ_TAIL, 0, 12⟩
abbrev NEC_JQ_HEAD : Nat := 0x1400002C
abbrev NEC_JQ_HEAD.HEAD : Field := ⟨NEC_JQ_HEAD, 0, 12⟩
abbrev NEC_COUNT_BLOCKS : Nat := 0x14000030
abbrev NEC_COUNT_BLOCKS.COUNT : Field := ⟨NEC_COUNT_BLOCKS, 0, 32⟩
abbrev NEC_COUNT_ERRORS : Nat := 0x14000034
abbrev NEC_COUNT_ERRORS.COUNT : Field := ⟨NEC_COUNT_ERRORS, 0, 32⟩
abbrev NEC_LAYER_FSN (n : Nat) : Nat := 0x14000040 + 0x10 * n
abbrev NEC_LAYER_FSN.FSN (n : Nat) : Field := ⟨NEC_LAYER_FSN n, 0, 32⟩
abbrev NEC_LAYER_FILL (n : Nat) : Nat := 0x14000044 + 0x10 * n
abbrev NEC_LAYER_FILL.LANDED (n : Nat) : Field := ⟨NEC_LAYER_FILL n, 0, 14⟩
abbrev NEC_LAYER_STATE (n : Nat) : Nat := 0x14000048 + 0x10 * n
abbrev NEC_LAYER_STATE.EPOCH (n : Nat) : Field := ⟨NEC_LAYER_STATE n, 16, 16⟩
abbrev NEC_LAYER_STATE.OPEN (n : Nat) : Field := ⟨NEC_LAYER_STATE n, 10, 1⟩
abbrev NEC_LAYER_STATE.OPEN_BUF (n : Nat) : Field := ⟨NEC_LAYER_STATE n, 8, 2⟩
abbrev NEC_LAYER_STATE.BUF2 (n : Nat) : Field := ⟨NEC_LAYER_STATE n, 4, 2⟩
abbrev NEC_LAYER_STATE.BUF1 (n : Nat) : Field := ⟨NEC_LAYER_STATE n, 2, 2⟩
abbrev NEC_LAYER_STATE.BUF0 (n : Nat) : Field := ⟨NEC_LAYER_STATE n, 0, 2⟩
abbrev NEC_PLAY_CLIP : Nat := 0x14000300
abbrev NEC_PLAY_CLIP.ADDR : Field := ⟨NEC_PLAY_CLIP, 0, 26⟩
abbrev NEC_PLAY_NEXT : Nat := 0x14000304
abbrev NEC_PLAY_NEXT.ADDR : Field := ⟨NEC_PLAY_NEXT, 0, 26⟩
abbrev NEC_PLAY_CTRL : Nat := 0x14000308
abbrev NEC_PLAY_CTRL.START : Field := ⟨NEC_PLAY_CTRL, 31, 1⟩
abbrev NEC_PLAY_CTRL.STOP : Field := ⟨NEC_PLAY_CTRL, 30, 1⟩
abbrev NEC_PLAY_CTRL.LOOP : Field := ⟨NEC_PLAY_CTRL, 8, 1⟩
abbrev NEC_PLAY_CTRL.HOLD : Field := ⟨NEC_PLAY_CTRL, 0, 8⟩
abbrev NEC_PLAY_STATUS : Nat := 0x1400030C
abbrev NEC_PLAY_STATUS.STATE : Field := ⟨NEC_PLAY_STATUS, 30, 2⟩
abbrev NEC_PLAY_STATUS.FRAME : Field := ⟨NEC_PLAY_STATUS, 0, 24⟩
abbrev PORT_STATUS : Nat := 0x15000000
abbrev PORT_STATUS.SPARE_GROUP : Field := ⟨PORT_STATUS, 17, 5⟩
abbrev PORT_STATUS.LANE_FAILED : Field := ⟨PORT_STATUS, 0, 17⟩
abbrev PORT_UNI_STEP : Nat := 0x15000004
abbrev PORT_UNI_STEP.STEP : Field := ⟨PORT_UNI_STEP, 0, 16⟩
abbrev PORT_UNI_COEF_BASE : Nat := 0x15000008
abbrev PORT_UNI_COEF_BASE.ADDR : Field := ⟨PORT_UNI_COEF_BASE, 0, 26⟩
abbrev PORT_UNI_GAIN_BASE : Nat := 0x1500000C
abbrev PORT_UNI_GAIN_BASE.ADDR : Field := ⟨PORT_UNI_GAIN_BASE, 0, 26⟩
abbrev PORT_UNI_STRIDE : Nat := 0x15000010
abbrev PORT_UNI_STRIDE.STRIDE : Field := ⟨PORT_UNI_STRIDE, 0, 12⟩
abbrev PORT_COUNT : Nat := 0x15000014
abbrev PORT_COUNT.UNI_LATE : Field := ⟨PORT_COUNT, 16, 16⟩
abbrev PORT_COUNT.RESIDUE : Field := ⟨PORT_COUNT, 0, 16⟩
abbrev PORT_LUT_SRC : Nat := 0x15000020
abbrev PORT_LUT_SRC.ADDR : Field := ⟨PORT_LUT_SRC, 0, 26⟩
abbrev PORT_LUT_CRC : Nat := 0x15000024
abbrev PORT_LUT_CRC.CRC : Field := ⟨PORT_LUT_CRC, 0, 32⟩
abbrev PORT_LUT_LOAD : Nat := 0x15000028
abbrev PORT_LUT_LOAD.START : Field := ⟨PORT_LUT_LOAD, 31, 1⟩
abbrev PORT_LUT_LOAD.SET : Field := ⟨PORT_LUT_LOAD, 0, 4⟩
abbrev PORT_LUT_STATUS : Nat := 0x1500002C
abbrev PORT_LUT_STATUS.BUSY : Field := ⟨PORT_LUT_STATUS, 31, 1⟩
abbrev PORT_LUT_STATUS.ERR : Field := ⟨PORT_LUT_STATUS, 16, 3⟩
abbrev PORT_LUT_STATUS.DONE : Field := ⟨PORT_LUT_STATUS, 0, 1⟩
abbrev PORT_LUT_LOADED : Nat := 0x15000030
abbrev PORT_LUT_LOADED.LOADED : Field := ⟨PORT_LUT_LOADED, 0, 16⟩
abbrev PORT_PIER_CFG (p : Nat) : Nat := 0x15001000 + 0x4 * p
abbrev PORT_PIER_CFG.WIDTH (p : Nat) : Field := ⟨PORT_PIER_CFG p, 8, 2⟩
abbrev PORT_PIER_CFG.UNI_EN (p : Nat) : Field := ⟨PORT_PIER_CFG p, 4, 1⟩
abbrev PORT_PIER_CFG.SET (p : Nat) : Field := ⟨PORT_PIER_CFG p, 0, 4⟩
abbrev PORT_PIER_STATUS (p : Nat) : Nat := 0x15001800 + 0x4 * p
abbrev PORT_PIER_STATUS.SLOTS (p : Nat) : Field := ⟨PORT_PIER_STATUS p, 0, 3⟩
abbrev KEY_STATUS : Nat := 0x15004000
abbrev KEY_STATUS.ACTIVE : Field := ⟨KEY_STATUS, 16, 16⟩
abbrev KEY_STATUS.INPUT_FAULT : Field := ⟨KEY_STATUS, 3, 1⟩
abbrev KEY_STATUS.HW_REQ : Field := ⟨KEY_STATUS, 2, 1⟩
abbrev KEY_STATUS.REQ_B : Field := ⟨KEY_STATUS, 1, 1⟩
abbrev KEY_STATUS.REQ_A : Field := ⟨KEY_STATUS, 0, 1⟩
abbrev KEY_SUP_MASK : Nat := 0x15004004
abbrev KEY_SUP_MASK.PAGES : Field := ⟨KEY_SUP_MASK, 0, 16⟩
abbrev KEY_ALARM_MASK : Nat := 0x15004008
abbrev KEY_ALARM_MASK.PAGES : Field := ⟨KEY_ALARM_MASK, 0, 16⟩
abbrev KEY_PAGES : Nat := 0x1500400C
abbrev KEY_PAGES.FAILED : Field := ⟨KEY_PAGES, 16, 16⟩
abbrev KEY_PAGES.PRESENT : Field := ⟨KEY_PAGES, 0, 16⟩
abbrev KEY_SCRUB : Nat := 0x15004010
abbrev KEY_SCRUB.PASSES : Field := ⟨KEY_SCRUB, 0, 32⟩
abbrev KEY_PAGE_POS (g : Nat) : Nat := 0x15004100 + 0x10 * g
abbrev KEY_PAGE_POS.Y (g : Nat) : Field := ⟨KEY_PAGE_POS g, 16, 13⟩
abbrev KEY_PAGE_POS.X (g : Nat) : Field := ⟨KEY_PAGE_POS g, 0, 13⟩
abbrev KEY_PAGE_SIZE (g : Nat) : Nat := 0x15004104 + 0x10 * g
abbrev KEY_PAGE_SIZE.H (g : Nat) : Field := ⟨KEY_PAGE_SIZE g, 16, 13⟩
abbrev KEY_PAGE_SIZE.W (g : Nat) : Field := ⟨KEY_PAGE_SIZE g, 0, 13⟩
abbrev KEY_PAGE_CFG (g : Nat) : Nat := 0x15004108 + 0x10 * g
abbrev KEY_PAGE_CFG.SCALE (g : Nat) : Field := ⟨KEY_PAGE_CFG g, 0, 2⟩
abbrev KEY_PAGE_CRC (g : Nat) : Nat := 0x1500410C + 0x10 * g
abbrev KEY_PAGE_CRC.CRC (g : Nat) : Field := ⟨KEY_PAGE_CRC g, 0, 32⟩
abbrev CRC_CTRL : Nat := 0x15008000
abbrev CRC_CTRL.EN : Field := ⟨CRC_CTRL, 0, 1⟩
abbrev CRC_ECHO_CFG : Nat := 0x15008004
abbrev CRC_ECHO_CFG.LIMIT : Field := ⟨CRC_ECHO_CFG, 0, 8⟩
abbrev CRC_COUNT : Nat := 0x15008008
abbrev CRC_COUNT.MISMATCH : Field := ⟨CRC_COUNT, 16, 16⟩
abbrev CRC_COUNT.SKIPPED : Field := ⟨CRC_COUNT, 0, 16⟩
abbrev CRC_RECT_X (r : Nat) : Nat := 0x15008100 + 0x20 * r
abbrev CRC_RECT_X.X1 (r : Nat) : Field := ⟨CRC_RECT_X r, 16, 13⟩
abbrev CRC_RECT_X.X0 (r : Nat) : Field := ⟨CRC_RECT_X r, 0, 13⟩
abbrev CRC_RECT_Y (r : Nat) : Nat := 0x15008104 + 0x20 * r
abbrev CRC_RECT_Y.Y1 (r : Nat) : Field := ⟨CRC_RECT_Y r, 16, 13⟩
abbrev CRC_RECT_Y.Y0 (r : Nat) : Field := ⟨CRC_RECT_Y r, 0, 13⟩
abbrev CRC_RECT_VIEW (r : Nat) : Nat := 0x15008108 + 0x20 * r
abbrev CRC_RECT_VIEW.J1 (r : Nat) : Field := ⟨CRC_RECT_VIEW r, 24, 3⟩
abbrev CRC_RECT_VIEW.J0 (r : Nat) : Field := ⟨CRC_RECT_VIEW r, 16, 3⟩
abbrev CRC_RECT_VIEW.I1 (r : Nat) : Field := ⟨CRC_RECT_VIEW r, 8, 8⟩
abbrev CRC_RECT_VIEW.I0 (r : Nat) : Field := ⟨CRC_RECT_VIEW r, 0, 8⟩
abbrev CRC_RECT_CFG (r : Nat) : Nat := 0x1500810C + 0x20 * r
abbrev CRC_RECT_CFG.SAFETY (r : Nat) : Field := ⟨CRC_RECT_CFG r, 31, 1⟩
abbrev CRC_RECT_CFG.PHASE (r : Nat) : Field := ⟨CRC_RECT_CFG r, 16, 8⟩
abbrev CRC_RECT_CFG.PERIOD (r : Nat) : Field := ⟨CRC_RECT_CFG r, 8, 8⟩
abbrev CRC_RECT_CFG.MODE (r : Nat) : Field := ⟨CRC_RECT_CFG r, 0, 2⟩
abbrev CRC_RECT_EXP (r : Nat) : Nat := 0x15008110 + 0x20 * r
abbrev CRC_RECT_EXP.EXP (r : Nat) : Field := ⟨CRC_RECT_EXP r, 0, 32⟩
abbrev CRC_RECT_EXP_SEQ (r : Nat) : Nat := 0x15008114 + 0x20 * r
abbrev CRC_RECT_EXP_SEQ.SEQ (r : Nat) : Field := ⟨CRC_RECT_EXP_SEQ r, 0, 16⟩
abbrev CRC_RECT_VALUE (r : Nat) : Nat := 0x15008118 + 0x20 * r
abbrev CRC_RECT_VALUE.VALUE (r : Nat) : Field := ⟨CRC_RECT_VALUE r, 0, 32⟩
abbrev CRC_RECT_RESULT (r : Nat) : Nat := 0x1500811C + 0x20 * r
abbrev CRC_RECT_RESULT.RESULT (r : Nat) : Field := ⟨CRC_RECT_RESULT r, 29, 3⟩
abbrev CRC_RECT_RESULT.REASON (r : Nat) : Field := ⟨CRC_RECT_RESULT r, 24, 4⟩
abbrev CRC_RECT_RESULT.FRAME (r : Nat) : Field := ⟨CRC_RECT_RESULT r, 0, 24⟩
abbrev CRC_PIER (p : Nat) : Nat := 0x15009000 + 0x4 * p
abbrev CRC_PIER.MISMATCH (p : Nat) : Field := ⟨CRC_PIER p, 16, 16⟩
abbrev CRC_PIER.MISSING (p : Nat) : Field := ⟨CRC_PIER p, 0, 16⟩
abbrev VDT_CTRL : Nat := 0x16000000
abbrev VDT_CTRL.GATE_EN : Field := ⟨VDT_CTRL, 0, 1⟩
abbrev VDT_OVH : Nat := 0x16000004
abbrev VDT_OVH.BULK : Field := ⟨VDT_OVH, 8, 8⟩
abbrev VDT_OVH.RAY : Field := ⟨VDT_OVH, 0, 8⟩
abbrev VDT_WFQ (c : Nat) : Nat := 0x16000010 + 0x4 * c
abbrev VDT_WFQ.BURST (c : Nat) : Field := ⟨VDT_WFQ c, 16, 16⟩
abbrev VDT_WFQ.COST (c : Nat) : Field := ⟨VDT_WFQ c, 0, 16⟩
abbrev VDT_SAMPLE_SEL : Nat := 0x16000040
abbrev VDT_SAMPLE_SEL.PIER : Field := ⟨VDT_SAMPLE_SEL, 16, 9⟩
abbrev VDT_SAMPLE_SEL.CLASS : Field := ⟨VDT_SAMPLE_SEL, 0, 2⟩
abbrev VDT_SAMPLE_GEN : Nat := 0x16000044
abbrev VDT_SAMPLE_GEN.BUSY : Field := ⟨VDT_SAMPLE_GEN, 31, 1⟩
abbrev VDT_SAMPLE_GEN.FRAME : Field := ⟨VDT_SAMPLE_GEN, 0, 31⟩
abbrev VDT_SAMPLE_DEPTH : Nat := 0x16000048
abbrev VDT_SAMPLE_DEPTH.MAX : Field := ⟨VDT_SAMPLE_DEPTH, 0, 24⟩
abbrev VDT_SAMPLE_DELAY : Nat := 0x1600004C
abbrev VDT_SAMPLE_DELAY.MAX : Field := ⟨VDT_SAMPLE_DELAY, 0, 32⟩
abbrev VDT_SAMPLE_SENT : Nat := 0x16000050
abbrev VDT_SAMPLE_SENT.HELD : Field := ⟨VDT_SAMPLE_SENT, 16, 16⟩
abbrev VDT_SAMPLE_SENT.SENT : Field := ⟨VDT_SAMPLE_SENT, 0, 16⟩
abbrev VDT_SAMPLE_EXPIRED : Nat := 0x16000054
abbrev VDT_SAMPLE_EXPIRED.HOGELS : Field := ⟨VDT_SAMPLE_EXPIRED, 0, 16⟩
abbrev VDT_COUNT_EXPIRED : Nat := 0x16000060
abbrev VDT_COUNT_EXPIRED.COUNT : Field := ⟨VDT_COUNT_EXPIRED, 0, 32⟩
abbrev VDT_COUNT_OVERSIZE : Nat := 0x16000064
abbrev VDT_COUNT_OVERSIZE.COUNT : Field := ⟨VDT_COUNT_OVERSIZE, 0, 32⟩
abbrev VDT_G_STATUS (g : Nat) : Nat := 0x16001000 + 0x800 * g
abbrev VDT_G_STATUS.ACTIVE (g : Nat) : Field := ⟨VDT_G_STATUS g, 31, 1⟩
abbrev VDT_G_STATUS.PENDING (g : Nat) : Field := ⟨VDT_G_STATUS g, 30, 1⟩
abbrev VDT_G_STATUS.ERR (g : Nat) : Field := ⟨VDT_G_STATUS g, 27, 3⟩
abbrev VDT_G_STATUS.ENTRY (g : Nat) : Field := ⟨VDT_G_STATUS g, 0, 6⟩
abbrev VDT_G_SWAP (g : Nat) : Nat := 0x16001004 + 0x800 * g
abbrev VDT_G_SWAP.REQ (g : Nat) : Field := ⟨VDT_G_SWAP g, 0, 1⟩
abbrev VDT_G_COUNT (g : Nat) : Nat := 0x16001008 + 0x800 * g
abbrev VDT_G_COUNT.TRUNC (g : Nat) : Field := ⟨VDT_G_COUNT g, 16, 16⟩
abbrev VDT_G_COUNT.HELD (g : Nat) : Field := ⟨VDT_G_COUNT g, 0, 16⟩
abbrev VDT_G_B_CFG (g : Nat) (b : Nat) : Nat := 0x16001010 + 0x800 * g + 0x10 * b
abbrev VDT_G_B_CFG.FRAME_SYNC (g : Nat) (b : Nat) : Field := ⟨VDT_G_B_CFG g b, 31, 1⟩
abbrev VDT_G_B_CFG.DEN (g : Nat) (b : Nat) : Field := ⟨VDT_G_B_CFG g b, 16, 7⟩
abbrev VDT_G_B_CFG.COUNT (g : Nat) (b : Nat) : Field := ⟨VDT_G_B_CFG g b, 0, 7⟩
abbrev VDT_G_B_BASE_LO (g : Nat) (b : Nat) : Nat := 0x16001014 + 0x800 * g + 0x10 * b
abbrev VDT_G_B_BASE_LO.BASE (g : Nat) (b : Nat) : Field := ⟨VDT_G_B_BASE_LO g b, 0, 32⟩
abbrev VDT_G_B_BASE_HI (g : Nat) (b : Nat) : Nat := 0x16001018 + 0x800 * g + 0x10 * b
abbrev VDT_G_B_BASE_HI.BASE (g : Nat) (b : Nat) : Field := ⟨VDT_G_B_BASE_HI g b, 0, 16⟩
abbrev VDT_G_B_CYCLE (g : Nat) (b : Nat) : Nat := 0x1600101C + 0x800 * g + 0x10 * b
abbrev VDT_G_B_CYCLE.NUM (g : Nat) (b : Nat) : Field := ⟨VDT_G_B_CYCLE g b, 0, 32⟩
abbrev VDT_G_B_E_TIME (g : Nat) (b : Nat) (e : Nat) : Nat := 0x16001100 + 0x800 * g + 0x200 * b + 0x8 * e
abbrev VDT_G_B_E_TIME.INTERVAL (g : Nat) (b : Nat) (e : Nat) : Field := ⟨VDT_G_B_E_TIME g b e, 0, 24⟩
abbrev VDT_G_B_E_GATE (g : Nat) (b : Nat) (e : Nat) : Nat := 0x16001104 + 0x800 * g + 0x200 * b + 0x8 * e
abbrev VDT_G_B_E_GATE.LOOP_TO (g : Nat) (b : Nat) (e : Nat) : Field := ⟨VDT_G_B_E_GATE g b e, 26, 6⟩
abbrev VDT_G_B_E_GATE.LOOP_CNT (g : Nat) (b : Nat) (e : Nat) : Field := ⟨VDT_G_B_E_GATE g b e, 20, 6⟩
abbrev VDT_G_B_E_GATE.REV (g : Nat) (b : Nat) (e : Nat) : Field := ⟨VDT_G_B_E_GATE g b e, 4, 1⟩
abbrev VDT_G_B_E_GATE.TIME (g : Nat) (b : Nat) (e : Nat) : Field := ⟨VDT_G_B_E_GATE g b e, 3, 1⟩
abbrev VDT_G_B_E_GATE.CTRL (g : Nat) (b : Nat) (e : Nat) : Field := ⟨VDT_G_B_E_GATE g b e, 2, 1⟩
abbrev VDT_G_B_E_GATE.BULK (g : Nat) (b : Nat) (e : Nat) : Field := ⟨VDT_G_B_E_GATE g b e, 1, 1⟩
abbrev VDT_G_B_E_GATE.RAY (g : Nat) (b : Nat) (e : Nat) : Field := ⟨VDT_G_B_E_GATE g b e, 0, 1⟩
abbrev PIER_CTRL : Nat := 0x17000000
abbrev PIER_CTRL.FREE_TURN : Field := ⟨PIER_CTRL, 8, 1⟩
abbrev PIER_CTRL.EN : Field := ⟨PIER_CTRL, 0, 1⟩
abbrev PIER_ECHO_CFG : Nat := 0x17000004
abbrev PIER_ECHO_CFG.INTERVAL : Field := ⟨PIER_ECHO_CFG, 8, 8⟩
abbrev PIER_ECHO_CFG.AVG : Field := ⟨PIER_ECHO_CFG, 0, 4⟩
abbrev PIER_NTF : Nat := 0x17000008
abbrev PIER_NTF.NTF : Field := ⟨PIER_NTF, 0, 32⟩
abbrev PIER_TEST : Nat := 0x1700000C
abbrev PIER_TEST.START : Field := ⟨PIER_TEST, 31, 1⟩
abbrev PIER_TEST.DIR : Field := ⟨PIER_TEST, 30, 1⟩
abbrev PIER_TEST.MODE : Field := ⟨PIER_TEST, 27, 3⟩
abbrev PIER_TEST.PIER : Field := ⟨PIER_TEST, 16, 9⟩
abbrev PIER_TEST.LEN : Field := ⟨PIER_TEST, 0, 16⟩
abbrev PIER_CFG (p : Nat) : Nat := 0x17001000 + 0x40 * p
abbrev PIER_CFG.EN (p : Nat) : Field := ⟨PIER_CFG p, 16, 1⟩
abbrev PIER_CFG.POST (p : Nat) : Field := ⟨PIER_CFG p, 8, 4⟩
abbrev PIER_CFG.PRE (p : Nat) : Field := ⟨PIER_CFG p, 0, 4⟩
abbrev PIER_STATUS (p : Nat) : Nat := 0x17001004 + 0x40 * p
abbrev PIER_STATUS.STATE (p : Nat) : Field := ⟨PIER_STATUS p, 29, 3⟩
abbrev PIER_STATUS.CAUSE (p : Nat) : Field := ⟨PIER_STATUS p, 20, 4⟩
abbrev PIER_STATUS.CAL_OK (p : Nat) : Field := ⟨PIER_STATUS p, 19, 1⟩
abbrev PIER_STATUS.RX_LOCK (p : Nat) : Field := ⟨PIER_STATUS p, 18, 1⟩
abbrev PIER_GEOM (p : Nat) : Nat := 0x17001008 + 0x40 * p
abbrev PIER_GEOM.NH (p : Nat) : Field := ⟨PIER_GEOM p, 24, 7⟩
abbrev PIER_GEOM.NV (p : Nat) : Field := ⟨PIER_GEOM p, 16, 7⟩
abbrev PIER_GEOM.H (p : Nat) : Field := ⟨PIER_GEOM p, 4, 9⟩
abbrev PIER_GEOM.V (p : Nat) : Field := ⟨PIER_GEOM p, 0, 4⟩
abbrev PIER_DECL (p : Nat) : Nat := 0x1700100C + 0x40 * p
abbrev PIER_DECL.NH (p : Nat) : Field := ⟨PIER_DECL p, 24, 7⟩
abbrev PIER_DECL.NV (p : Nat) : Field := ⟨PIER_DECL p, 16, 7⟩
abbrev PIER_DECL.H (p : Nat) : Field := ⟨PIER_DECL p, 4, 9⟩
abbrev PIER_DECL.V (p : Nat) : Field := ⟨PIER_DECL p, 0, 4⟩
abbrev PIER_FLIPLAT (p : Nat) : Nat := 0x17001010 + 0x40 * p
abbrev PIER_FLIPLAT.LAT (p : Nat) : Field := ⟨PIER_FLIPLAT p, 0, 32⟩
abbrev PIER_CABLE (p : Nat) : Nat := 0x17001014 + 0x40 * p
abbrev PIER_CABLE.SAMPLES (p : Nat) : Field := ⟨PIER_CABLE p, 24, 8⟩
abbrev PIER_CABLE.DELAY (p : Nat) : Field := ⟨PIER_CABLE p, 0, 24⟩
abbrev PIER_FLIPPOS (p : Nat) : Nat := 0x17001018 + 0x40 * p
abbrev PIER_FLIPPOS.LATE (p : Nat) : Field := ⟨PIER_FLIPPOS p, 31, 1⟩
abbrev PIER_FLIPPOS.FINE (p : Nat) : Field := ⟨PIER_FLIPPOS p, 8, 7⟩
abbrev PIER_FLIPPOS.TAP (p : Nat) : Field := ⟨PIER_FLIPPOS p, 0, 5⟩
abbrev PIER_ERR (p : Nat) : Nat := 0x1700101C + 0x40 * p
abbrev PIER_ERR.RX_BAD (p : Nat) : Field := ⟨PIER_ERR p, 16, 16⟩
abbrev PIER_ERR.SKIPPED_WIN (p : Nat) : Field := ⟨PIER_ERR p, 8, 8⟩
abbrev PIER_ERR.REJECTED (p : Nat) : Field := ⟨PIER_ERR p, 0, 8⟩
abbrev PIER_TEST_ERR (p : Nat) : Nat := 0x17001020 + 0x40 * p
abbrev PIER_TEST_ERR.ERRORS (p : Nat) : Field := ⟨PIER_TEST_ERR p, 0, 32⟩
abbrev PIER_DECLW (p : Nat) : Nat := 0x17001024 + 0x40 * p
abbrev PIER_DECLW.WIDTHS (p : Nat) : Field := ⟨PIER_DECLW p, 0, 3⟩
abbrev PIER_LATMIN (p : Nat) : Nat := 0x17001028 + 0x40 * p
abbrev PIER_LATMIN.LAT (p : Nat) : Field := ⟨PIER_LATMIN p, 0, 32⟩
abbrev PIER_LATMAX (p : Nat) : Nat := 0x1700102C + 0x40 * p
abbrev PIER_LATMAX.LAT (p : Nat) : Field := ⟨PIER_LATMAX p, 0, 32⟩
abbrev NT_STATUS : Nat := 0x18000000
abbrev NT_STATUS.EPOCH : Field := ⟨NT_STATUS, 16, 16⟩
abbrev NT_STATUS.PENDING : Field := ⟨NT_STATUS, 3, 1⟩
abbrev NT_STATUS.SLEWING : Field := ⟨NT_STATUS, 2, 1⟩
abbrev NT_STATUS.SET : Field := ⟨NT_STATUS, 1, 1⟩
abbrev NT_NOW : Nat := 0x18000010
abbrev NT_NOW48 : Nat := 0x18000020
abbrev NT_ADJ : Nat := 0x18000030
abbrev NT_SET : Nat := 0x18000040
abbrev NT_STEP_CFG : Nat := 0x18000050
abbrev NT_STEP_CFG.THRESH : Field := ⟨NT_STEP_CFG, 12, 20⟩
abbrev NT_STEP_CFG.RATE : Field := ⟨NT_STEP_CFG, 0, 8⟩
abbrev NT_FREQ : Nat := 0x18000054
abbrev NT_FREQ.FREQ : Field := ⟨NT_FREQ, 0, 32⟩
abbrev NT_SLEW_LEFT : Nat := 0x18000058
abbrev NT_SLEW_LEFT.LEFT : Field := ⟨NT_SLEW_LEFT, 0, 32⟩
abbrev NT_PPS_CFG : Nat := 0x18000060
abbrev NT_PPS_CFG.MODE : Field := ⟨NT_PPS_CFG, 30, 2⟩
abbrev NT_PPS_CFG.WIDTH : Field := ⟨NT_PPS_CFG, 16, 14⟩
abbrev NT_PPS_CFG.OFFSET : Field := ⟨NT_PPS_CFG, 0, 16⟩
abbrev NT_ALARM_LO (n : Nat) : Nat := 0x18000100 + 0x10 * n
abbrev NT_ALARM_LO.T (n : Nat) : Field := ⟨NT_ALARM_LO n, 0, 32⟩
abbrev NT_ALARM_HI (n : Nat) : Nat := 0x18000104 + 0x10 * n
abbrev NT_ALARM_HI.T (n : Nat) : Field := ⟨NT_ALARM_HI n, 0, 16⟩
abbrev NT_ALARM_PERIOD (n : Nat) : Nat := 0x18000108 + 0x10 * n
abbrev NT_ALARM_PERIOD.PERIOD (n : Nat) : Field := ⟨NT_ALARM_PERIOD n, 0, 32⟩
abbrev NT_ALARM_CTRL (n : Nat) : Nat := 0x1800010C + 0x10 * n
abbrev NT_ALARM_CTRL.ARM (n : Nat) : Field := ⟨NT_ALARM_CTRL n, 31, 1⟩
abbrev NT_ALARM_CTRL.DISARM (n : Nat) : Field := ⟨NT_ALARM_CTRL n, 30, 1⟩
abbrev NT_ALARM_CTRL.NOTIFY (n : Nat) : Field := ⟨NT_ALARM_CTRL n, 8, 1⟩
abbrev NT_ALARM_CTRL.LATE (n : Nat) : Field := ⟨NT_ALARM_CTRL n, 2, 1⟩
abbrev NT_ALARM_CTRL.FIRED (n : Nat) : Field := ⟨NT_ALARM_CTRL n, 1, 1⟩
abbrev NT_ALARM_CTRL.ARMED (n : Nat) : Field := ⟨NT_ALARM_CTRL n, 0, 1⟩
abbrev NT_LAT_TX (x : Nat) : Nat := 0x18000200 + 0x8 * x
abbrev NT_LAT_TX.LAT (x : Nat) : Field := ⟨NT_LAT_TX x, 0, 32⟩
abbrev NT_LAT_RX (x : Nat) : Nat := 0x18000204 + 0x8 * x
abbrev NT_LAT_RX.LAT (x : Nat) : Field := ⟨NT_LAT_RX x, 0, 32⟩
abbrev NT_TXQ (x : Nat) : Nat := 0x18000300 + 0x20 * x
abbrev NT_TXQ_STAT (x : Nat) : Nat := 0x18000310 + 0x20 * x
abbrev NT_TXQ_STAT.DROPPED (x : Nat) : Field := ⟨NT_TXQ_STAT x, 16, 16⟩
abbrev NT_TXQ_STAT.LEVEL (x : Nat) : Field := ⟨NT_TXQ_STAT x, 0, 6⟩
abbrev CLK_REF_CFG : Nat := 0x19000000
abbrev CLK_REF_CFG.REVERT : Field := ⟨CLK_REF_CFG, 9, 1⟩
abbrev CLK_REF_CFG.FALLBACK_EN : Field := ⟨CLK_REF_CFG, 8, 1⟩
abbrev CLK_REF_CFG.PRIMARY : Field := ⟨CLK_REF_CFG, 4, 1⟩
abbrev CLK_REF_CFG.BW : Field := ⟨CLK_REF_CFG, 0, 3⟩
abbrev CLK_STATUS : Nat := 0x19000004
abbrev CLK_STATUS.STATE : Field := ⟨CLK_STATUS, 29, 3⟩
abbrev CLK_STATUS.REF : Field := ⟨CLK_STATUS, 28, 1⟩
abbrev CLK_STATUS.REFCLK_OK : Field := ⟨CLK_STATUS, 27, 1⟩
abbrev CLK_STATUS.MRA_OK : Field := ⟨CLK_STATUS, 26, 1⟩
abbrev CLK_STATUS.PHASE_ERR : Field := ⟨CLK_STATUS, 0, 16⟩
abbrev CLK_DCO : Nat := 0x19000008
abbrev CLK_DCO.COARSE : Field := ⟨CLK_DCO, 24, 6⟩
abbrev CLK_DCO.MEDIUM : Field := ⟨CLK_DCO, 16, 7⟩
abbrev CLK_DCO.FINE : Field := ⟨CLK_DCO, 0, 10⟩
abbrev CLK_COUNT : Nat := 0x1900000C
abbrev CLK_COUNT.REF_LOSS : Field := ⟨CLK_COUNT, 24, 8⟩
abbrev CLK_COUNT.HOLDOVERS : Field := ⟨CLK_COUNT, 16, 8⟩
abbrev CLK_COUNT.HOPS : Field := ⟨CLK_COUNT, 0, 16⟩
abbrev CLK_HOLDTIME : Nat := 0x19000010
abbrev CLK_HOLDTIME.MS : Field := ⟨CLK_HOLDTIME, 0, 32⟩
abbrev MR_CTRL (x : Nat) : Nat := 0x1A000000 + 0x1000000 * x
abbrev MR_CTRL.RETRAIN (x : Nat) : Field := ⟨MR_CTRL x, 31, 1⟩
abbrev MR_CTRL.M2_REQ (x : Nat) : Field := ⟨MR_CTRL x, 30, 1⟩
abbrev MR_CTRL.HOLD (x : Nat) : Field := ⟨MR_CTRL x, 16, 8⟩
abbrev MR_CTRL.ROLE (x : Nat) : Field := ⟨MR_CTRL x, 8, 2⟩
abbrev MR_CTRL.EN (x : Nat) : Field := ⟨MR_CTRL x, 0, 1⟩
abbrev MR_STATUS (x : Nat) : Nat := 0x1A000004 + 0x1000000 * x
abbrev MR_STATUS.STATE (x : Nat) : Field := ⟨MR_STATUS x, 28, 4⟩
abbrev MR_STATUS.PARKED (x : Nat) : Field := ⟨MR_STATUS x, 27, 1⟩
abbrev MR_STATUS.ROLE_NOW (x : Nat) : Field := ⟨MR_STATUS x, 26, 1⟩
abbrev MR_STATUS.PM_TX (x : Nat) : Field := ⟨MR_STATUS x, 24, 2⟩
abbrev MR_STATUS.PM_RX (x : Nat) : Field := ⟨MR_STATUS x, 22, 2⟩
abbrev MR_STATUS.LOCKED (x : Nat) : Field := ⟨MR_STATUS x, 6, 8⟩
abbrev MR_STATUS.VERSION (x : Nat) : Field := ⟨MR_STATUS x, 0, 6⟩
abbrev MR_PM_CFG (x : Nat) : Nat := 0x1A000008 + 0x1000000 * x
abbrev MR_PM_CFG.M2_EN (x : Nat) : Field := ⟨MR_PM_CFG x, 31, 1⟩
abbrev MR_PM_CFG.M1_IDLE (x : Nat) : Field := ⟨MR_PM_CFG x, 0, 16⟩
abbrev MR_EQ (x : Nat) : Nat := 0x1A00000C + 0x1000000 * x
abbrev MR_EQ.FOM_MIN (x : Nat) : Field := ⟨MR_EQ x, 24, 8⟩
abbrev MR_EQ.TX_PRESET (x : Nat) : Field := ⟨MR_EQ x, 16, 3⟩
abbrev MR_EQ.RX_PRESET (x : Nat) : Field := ⟨MR_EQ x, 8, 3⟩
abbrev MR_EQ.RX_FOM (x : Nat) : Field := ⟨MR_EQ x, 0, 8⟩
abbrev MR_LINK_ID (x : Nat) : Nat := 0x1A000010 + 0x1000000 * x
abbrev MR_LINK_ID.PARTNER (x : Nat) : Field := ⟨MR_LINK_ID x, 16, 16⟩
abbrev MR_LINK_ID.ID (x : Nat) : Field := ⟨MR_LINK_ID x, 0, 16⟩
abbrev MR_HBM_WIN (x : Nat) : Nat := 0x1A000014 + 0x1000000 * x
abbrev MR_HBM_WIN.WIN (x : Nat) : Field := ⟨MR_HBM_WIN x, 0, 4⟩
abbrev MR_ASYM (x : Nat) : Nat := 0x1A000018 + 0x1000000 * x
abbrev MR_ASYM.ASYM (x : Nat) : Field := ⟨MR_ASYM x, 0, 32⟩
abbrev MR_COUNT_CRC (x : Nat) : Nat := 0x1A000020 + 0x1000000 * x
abbrev MR_COUNT_CRC.CRC (x : Nat) : Field := ⟨MR_COUNT_CRC x, 16, 16⟩
abbrev MR_COUNT_CRC.NAK (x : Nat) : Field := ⟨MR_COUNT_CRC x, 0, 16⟩
abbrev MR_COUNT_LINK (x : Nat) : Nat := 0x1A000024 + 0x1000000 * x
abbrev MR_COUNT_LINK.REPLAY (x : Nat) : Field := ⟨MR_COUNT_LINK x, 16, 16⟩
abbrev MR_COUNT_LINK.RECOVERY (x : Nat) : Field := ⟨MR_COUNT_LINK x, 8, 8⟩
abbrev MR_COUNT_LINK.DOWN (x : Nat) : Field := ⟨MR_COUNT_LINK x, 0, 8⟩
abbrev MR_COUNT_DROP (x : Nat) : Nat := 0x1A000028 + 0x1000000 * x
abbrev MR_COUNT_DROP.SCENE_BAD (x : Nat) : Field := ⟨MR_COUNT_DROP x, 16, 16⟩
abbrev MR_COUNT_DROP.RELAY (x : Nat) : Field := ⟨MR_COUNT_DROP x, 8, 8⟩
abbrev MR_COUNT_DROP.OTHER (x : Nat) : Field := ⟨MR_COUNT_DROP x, 0, 8⟩
abbrev MR_CREDIT (x : Nat) (c : Nat) : Nat := 0x1A000040 + 0x1000000 * x + 0x4 * c
abbrev MR_CREDIT.AVAIL (x : Nat) (c : Nat) : Field := ⟨MR_CREDIT x c, 0, 24⟩
abbrev MR_TEST (x : Nat) : Nat := 0x1A000060 + 0x1000000 * x
abbrev MR_TEST.START (x : Nat) : Field := ⟨MR_TEST x, 31, 1⟩
abbrev MR_TEST.STOP (x : Nat) : Field := ⟨MR_TEST x, 30, 1⟩
abbrev MR_TEST.LOOP (x : Nat) : Field := ⟨MR_TEST x, 28, 2⟩
abbrev MR_TEST.PATTERN (x : Nat) : Field := ⟨MR_TEST x, 26, 2⟩
abbrev MR_TEST.FE_ALLOW (x : Nat) : Field := ⟨MR_TEST x, 25, 1⟩
abbrev MR_TEST.DURATION (x : Nat) : Field := ⟨MR_TEST x, 0, 16⟩
abbrev MR_LANE (x : Nat) (l : Nat) : Nat := 0x1A000100 + 0x1000000 * x + 0x4 * l
abbrev MR_LANE.FOM (x : Nat) (l : Nat) : Field := ⟨MR_LANE x l, 24, 8⟩
abbrev MR_LANE.SKEW (x : Nat) (l : Nat) : Field := ⟨MR_LANE x l, 16, 8⟩
abbrev MR_LANE.TEST_ERR (x : Nat) (l : Nat) : Field := ⟨MR_LANE x l, 0, 16⟩
abbrev HBM_STATUS : Nat := 0x1C000000
abbrev HBM_STATUS.FAILED : Field := ⟨HBM_STATUS, 16, 16⟩
abbrev HBM_STATUS.STATE : Field := ⟨HBM_STATUS, 4, 3⟩
abbrev HBM_STATUS.HOT : Field := ⟨HBM_STATUS, 0, 1⟩
abbrev HBM_MAP_PC (k : Nat) : Nat := 0x1C000010 + 0x4 * k
abbrev HBM_MAP_PC.MASK (k : Nat) : Field := ⟨HBM_MAP_PC k, 0, 22⟩
abbrev HBM_MAP_BK (k : Nat) : Nat := 0x1C000020 + 0x4 * k
abbrev HBM_MAP_BK.MASK (k : Nat) : Field := ⟨HBM_MAP_BK k, 0, 15⟩
abbrev HBM_RSV_BASE (n : Nat) : Nat := 0x1C000040 + 0x8 * n
abbrev HBM_RSV_BASE.ADDR (n : Nat) : Field := ⟨HBM_RSV_BASE n, 0, 14⟩
abbrev HBM_RSV_SIZE (n : Nat) : Nat := 0x1C000044 + 0x8 * n
abbrev HBM_RSV_SIZE.KIND (n : Nat) : Field := ⟨HBM_RSV_SIZE n, 28, 4⟩
abbrev HBM_RSV_SIZE.MIB (n : Nat) : Field := ⟨HBM_RSV_SIZE n, 0, 15⟩
abbrev HBM_PM_CFG : Nat := 0x1C000080
abbrev HBM_PM_CFG.SR_EN : Field := ⟨HBM_PM_CFG, 31, 1⟩
abbrev HBM_PM_CFG.SR_IDLE : Field := ⟨HBM_PM_CFG, 0, 16⟩
abbrev HBM_TRAIN_CFG : Nat := 0x1C000084
abbrev HBM_TRAIN_CFG.EN : Field := ⟨HBM_TRAIN_CFG, 31, 1⟩
abbrev HBM_TRAIN_CFG.INTERVAL : Field := ⟨HBM_TRAIN_CFG, 16, 8⟩
abbrev HBM_TRAIN_CFG.CORR_LIMIT : Field := ⟨HBM_TRAIN_CFG, 8, 8⟩
abbrev HBM_TRAIN_CFG.TEMP_STEP : Field := ⟨HBM_TRAIN_CFG, 4, 4⟩
abbrev HBM_TRAIN_CFG.MIN_EYE : Field := ⟨HBM_TRAIN_CFG, 0, 4⟩
abbrev HBM_TRAIN_REQ : Nat := 0x1C000088
abbrev HBM_TRAIN_REQ.PC : Field := ⟨HBM_TRAIN_REQ, 0, 16⟩
abbrev HBM_PC_STATUS (p : Nat) : Nat := 0x1C000100 + 0x4 * p
abbrev HBM_PC_STATUS.FAILED (p : Nat) : Field := ⟨HBM_PC_STATUS p, 31, 1⟩
abbrev HBM_PC_STATUS.MARGINAL (p : Nat) : Field := ⟨HBM_PC_STATUS p, 30, 1⟩
abbrev HBM_PC_STATUS.RETRIES (p : Nat) : Field := ⟨HBM_PC_STATUS p, 28, 2⟩
abbrev HBM_PC_STATUS.CAUSE (p : Nat) : Field := ⟨HBM_PC_STATUS p, 24, 4⟩
abbrev HBM_PC_STATUS.TRAINS (p : Nat) : Field := ⟨HBM_PC_STATUS p, 0, 16⟩
abbrev HBM_PC_ECC (p : Nat) : Nat := 0x1C000140 + 0x4 * p
abbrev HBM_PC_ECC.CORR (p : Nat) : Field := ⟨HBM_PC_ECC p, 16, 16⟩
abbrev HBM_PC_ECC.HARD (p : Nat) : Field := ⟨HBM_PC_ECC p, 0, 16⟩
abbrev HBM_ECC_LAST : Nat := 0x1C000180
abbrev HBM_SCRUB_CFG : Nat := 0x1C000190
abbrev HBM_SCRUB_CFG.EN : Field := ⟨HBM_SCRUB_CFG, 31, 1⟩
abbrev HBM_SCRUB_CFG.HOURS : Field := ⟨HBM_SCRUB_CFG, 0, 8⟩
abbrev HBM_SCRUB_STATUS : Nat := 0x1C000194
abbrev HBM_SCRUB_STATUS.PASSES : Field := ⟨HBM_SCRUB_STATUS, 16, 16⟩
abbrev HBM_SCRUB_STATUS.PROGRESS : Field := ⟨HBM_SCRUB_STATUS, 0, 16⟩
abbrev HBM_WIPE_TIME : Nat := 0x1C000198
abbrev HBM_WIPE_TIME.US : Field := ⟨HBM_WIPE_TIME, 0, 32⟩
abbrev HBM_TEMP : Nat := 0x1C00019C
abbrev HBM_TEMP.VALID : Field := ⟨HBM_TEMP, 8, 1⟩
abbrev HBM_TEMP.TEMP : Field := ⟨HBM_TEMP, 0, 8⟩
abbrev BLT_CTRL : Nat := 0x1D000000
abbrev BLT_CTRL.ABORT : Field := ⟨BLT_CTRL, 31, 1⟩
abbrev BLT_CTRL.STOP_ON_ERR : Field := ⟨BLT_CTRL, 1, 1⟩
abbrev BLT_CTRL.EN : Field := ⟨BLT_CTRL, 0, 1⟩
abbrev BLT_CFG : Nat := 0x1D000004
abbrev BLT_CFG.GAP : Field := ⟨BLT_CFG, 16, 16⟩
abbrev BLT_CFG.BURST : Field := ⟨BLT_CFG, 0, 7⟩
abbrev BLT_Q_BASE : Nat := 0x1D000008
abbrev BLT_Q_BASE.ADDR : Field := ⟨BLT_Q_BASE, 0, 28⟩
abbrev BLT_Q_SIZE : Nat := 0x1D00000C
abbrev BLT_Q_SIZE.ENTRIES : Field := ⟨BLT_Q_SIZE, 0, 11⟩
abbrev BLT_Q_TAIL : Nat := 0x1D000010
abbrev BLT_Q_TAIL.TAIL : Field := ⟨BLT_Q_TAIL, 0, 10⟩
abbrev BLT_Q_HEAD : Nat := 0x1D000014
abbrev BLT_Q_HEAD.HEAD : Field := ⟨BLT_Q_HEAD, 0, 10⟩
abbrev BLT_STATUS : Nat := 0x1D000018
abbrev BLT_STATUS.BUSY : Field := ⟨BLT_STATUS, 31, 1⟩
abbrev BLT_STATUS.WAITING : Field := ⟨BLT_STATUS, 30, 1⟩
abbrev BLT_STATUS.RESULT : Field := ⟨BLT_STATUS, 16, 8⟩
abbrev BLT_STATUS.CURRENT : Field := ⟨BLT_STATUS, 0, 10⟩
abbrev BLT_WMARK : Nat := 0x1D00001C
abbrev BLT_WMARK.EN : Field := ⟨BLT_WMARK, 31, 1⟩
abbrev BLT_WMARK.LINE : Field := ⟨BLT_WMARK, 0, 7⟩
abbrev BLT_IRQ : Nat := 0x1D000020
abbrev BLT_IRQ.WMARK : Field := ⟨BLT_IRQ, 2, 1⟩
abbrev BLT_IRQ.ERR : Field := ⟨BLT_IRQ, 1, 1⟩
abbrev BLT_IRQ.DONE : Field := ⟨BLT_IRQ, 0, 1⟩
abbrev BLT_COUNT : Nat := 0x1D000024
abbrev BLT_COUNT.ERRORS : Field := ⟨BLT_COUNT, 16, 16⟩
abbrev BLT_COUNT.DONE : Field := ⟨BLT_COUNT, 0, 16⟩
abbrev THM_STATUS : Nat := 0x1E000000
abbrev THM_STATUS.SENSOR : Field := ⟨THM_STATUS, 8, 4⟩
abbrev THM_STATUS.RISE : Field := ⟨THM_STATUS, 5, 1⟩
abbrev THM_STATUS.TRIP : Field := ⟨THM_STATUS, 4, 1⟩
abbrev THM_STATUS.CRITICAL : Field := ⟨THM_STATUS, 3, 1⟩
abbrev THM_STATUS.THROTTLE : Field := ⟨THM_STATUS, 2, 1⟩
abbrev THM_STATUS.WARN : Field := ⟨THM_STATUS, 1, 1⟩
abbrev THM_STATUS.FAST : Field := ⟨THM_STATUS, 0, 1⟩
abbrev THM_TEMP : Nat := 0x1E000004
abbrev THM_TEMP.CH_B : Field := ⟨THM_TEMP, 16, 16⟩
abbrev THM_TEMP.CH_A : Field := ⟨THM_TEMP, 0, 16⟩
abbrev THM_TJ : Nat := 0x1E000008
abbrev THM_TJ.TJ : Field := ⟨THM_TJ, 0, 16⟩
abbrev THM_LIMITS : Nat := 0x1E00000C
abbrev THM_LIMITS.CRITICAL : Field := ⟨THM_LIMITS, 16, 8⟩
abbrev THM_LIMITS.THROTTLE : Field := ⟨THM_LIMITS, 8, 8⟩
abbrev THM_LIMITS.WARN : Field := ⟨THM_LIMITS, 0, 8⟩
abbrev THM_CFG : Nat := 0x1E000010
abbrev THM_CFG.RISE : Field := ⟨THM_CFG, 24, 8⟩
abbrev THM_CFG.HYST : Field := ⟨THM_CFG, 16, 4⟩
abbrev THM_CFG.DOWN : Field := ⟨THM_CFG, 8, 8⟩
abbrev THM_CFG.UP : Field := ⟨THM_CFG, 0, 8⟩
abbrev THM_THROTTLE : Nat := 0x1E000014
abbrev THM_THROTTLE.FORCE : Field := ⟨THM_THROTTLE, 8, 3⟩
abbrev THM_THROTTLE.CAUSE : Field := ⟨THM_THROTTLE, 4, 2⟩
abbrev THM_THROTTLE.LEVEL : Field := ⟨THM_THROTTLE, 0, 3⟩
abbrev CAL_CFG : Nat := 0x1E001000
abbrev CAL_CFG.REQ : Field := ⟨CAL_CFG, 31, 1⟩
abbrev CAL_CFG.PERIOD : Field := ⟨CAL_CFG, 16, 8⟩
abbrev CAL_CFG.MIN_INTERVAL : Field := ⟨CAL_CFG, 8, 8⟩
abbrev CAL_CFG.STEP : Field := ⟨CAL_CFG, 0, 5⟩
abbrev CAL_STATUS : Nat := 0x1E001004
abbrev CAL_STATUS.STATE : Field := ⟨CAL_STATUS, 29, 3⟩
abbrev CAL_STATUS.VALID : Field := ⟨CAL_STATUS, 28, 1⟩
abbrev CAL_STATUS.ANCHORS_OK : Field := ⟨CAL_STATUS, 27, 1⟩
abbrev CAL_STATUS.FIELD_SLOT : Field := ⟨CAL_STATUS, 26, 1⟩
abbrev CAL_STATUS.ANCHOR_SLOT : Field := ⟨CAL_STATUS, 25, 1⟩
abbrev CAL_STATUS.REJECTED : Field := ⟨CAL_STATUS, 0, 10⟩
abbrev CAL_COUNT : Nat := 0x1E001008
abbrev CAL_COUNT.RUNS : Field := ⟨CAL_COUNT, 8, 24⟩
abbrev CAL_COUNT.FAILED : Field := ⟨CAL_COUNT, 0, 8⟩
abbrev CAL_LAST : Nat := 0x1E001010
abbrev CAL_QOFF : Nat := 0x1E001018
abbrev CAL_QOFF.Q3 : Field := ⟨CAL_QOFF, 24, 8⟩
abbrev CAL_QOFF.Q2 : Field := ⟨CAL_QOFF, 16, 8⟩
abbrev CAL_QOFF.Q1 : Field := ⟨CAL_QOFF, 8, 8⟩
abbrev CAL_QOFF.Q0 : Field := ⟨CAL_QOFF, 0, 8⟩
abbrev PWR_AVS_CFG : Nat := 0x1E002000
abbrev PWR_AVS_CFG.EN : Field := ⟨PWR_AVS_CFG, 31, 1⟩
abbrev PWR_AVS_CFG.MARGIN : Field := ⟨PWR_AVS_CFG, 8, 8⟩
abbrev PWR_AVS_CFG.STEP : Field := ⟨PWR_AVS_CFG, 0, 8⟩
abbrev PWR_AVS : Nat := 0x1E002004
abbrev PWR_AVS.STATE : Field := ⟨PWR_AVS, 28, 4⟩
abbrev PWR_AVS.TARGET : Field := ⟨PWR_AVS, 16, 10⟩
abbrev PWR_AVS.VOUT : Field := ⟨PWR_AVS, 0, 10⟩
abbrev PWR_PMB_CMD : Nat := 0x1E002010
abbrev PWR_PMB_CMD.START : Field := ⟨PWR_PMB_CMD, 31, 1⟩
abbrev PWR_PMB_CMD.READ : Field := ⟨PWR_PMB_CMD, 30, 1⟩
abbrev PWR_PMB_CMD.LEN : Field := ⟨PWR_PMB_CMD, 24, 2⟩
abbrev PWR_PMB_CMD.ADDR : Field := ⟨PWR_PMB_CMD, 8, 7⟩
abbrev PWR_PMB_CMD.CODE : Field := ⟨PWR_PMB_CMD, 0, 8⟩
abbrev PWR_PMB_DATA : Nat := 0x1E002014
abbrev PWR_PMB_DATA.BUSY : Field := ⟨PWR_PMB_DATA, 31, 1⟩
abbrev PWR_PMB_DATA.ERR : Field := ⟨PWR_PMB_DATA, 28, 3⟩
abbrev PWR_PMB_DATA.ALERT : Field := ⟨PWR_PMB_DATA, 27, 1⟩
abbrev PWR_PMB_DATA.DATA : Field := ⟨PWR_PMB_DATA, 0, 16⟩
abbrev FS_STATUS : Nat := 0x1F000000
abbrev FS_STATUS.FAULT : Field := ⟨FS_STATUS, 31, 1⟩
abbrev FS_STATUS.HB_RUN : Field := ⟨FS_STATUS, 30, 1⟩
abbrev FS_STATUS.SFK_READY : Field := ⟨FS_STATUS, 29, 1⟩
abbrev FS_CAUSE : Nat := 0x1F000004
abbrev FS_CAUSE.RECT : Field := ⟨FS_CAUSE, 13, 1⟩
abbrev FS_CAUSE.EXPIRED : Field := ⟨FS_CAUSE, 12, 1⟩
abbrev FS_CAUSE.ECHO : Field := ⟨FS_CAUSE, 11, 1⟩
abbrev FS_CAUSE.SELFTEST : Field := ⟨FS_CAUSE, 10, 1⟩
abbrev FS_CAUSE.LANE : Field := ⟨FS_CAUSE, 9, 1⟩
abbrev FS_CAUSE.LOCKED : Field := ⟨FS_CAUSE, 8, 1⟩
abbrev FS_CAUSE.PAGESET : Field := ⟨FS_CAUSE, 7, 1⟩
abbrev FS_CAUSE.PAGE : Field := ⟨FS_CAUSE, 6, 1⟩
abbrev FS_CAUSE.TEST : Field := ⟨FS_CAUSE, 5, 1⟩
abbrev FS_CAUSE.THERMAL : Field := ⟨FS_CAUSE, 4, 1⟩
abbrev FS_CAUSE.KEY_INPUT : Field := ⟨FS_CAUSE, 3, 1⟩
abbrev FS_CAUSE.PIER_DOWN : Field := ⟨FS_CAUSE, 2, 1⟩
abbrev FS_CAUSE.NOT_READY : Field := ⟨FS_CAUSE, 1, 1⟩
abbrev FS_CAUSE.BOOT : Field := ⟨FS_CAUSE, 0, 1⟩
abbrev FS_TEST : Nat := 0x1F000008
abbrev FS_TEST.START : Field := ⟨FS_TEST, 31, 1⟩
abbrev FS_TEST.LEN : Field := ⟨FS_TEST, 0, 10⟩
abbrev FS_SELFTEST : Nat := 0x1F00000C
abbrev FS_SELFTEST.PASSES : Field := ⟨FS_SELFTEST, 16, 16⟩
abbrev FS_SELFTEST.FAILS : Field := ⟨FS_SELFTEST, 8, 8⟩
abbrev FS_SELFTEST.FAILED : Field := ⟨FS_SELFTEST, 0, 8⟩
abbrev FS_PIER (w : Nat) : Nat := 0x1F000010 + 0x4 * w
abbrev FS_PIER.PIER (w : Nat) : Field := ⟨FS_PIER w, 0, 32⟩
abbrev FS_SUPPLY : Nat := 0x1F000050
abbrev FS_SUPPLY.PIER_Q : Field := ⟨FS_SUPPLY, 2, 4⟩
abbrev FS_SUPPLY.IO : Field := ⟨FS_SUPPLY, 1, 1⟩
abbrev FS_SUPPLY.CORE : Field := ⟨FS_SUPPLY, 0, 1⟩

end Reg

/-- Rows of the register tables, part 1. -/
def regSpecs1 : List RegSpec := [
  ⟨0x10000000, [], 0x0, 0x0, 0x0, 0x0, 0x0, 0x0, 0x0⟩,
  ⟨0x10000004, [], 0x0, 0x0, 0x0, 0x0, 0x0, 0x0, 0x0⟩,
  ⟨0x10000008, [], 0x0, 0x0, 0x0, 0x0, 0x0, 0x0, 0x0⟩,
  ⟨0x1000000C, [], 0x0, 0x0, 0x0, 0x0, 0x0, 0x0, 0x512000A1⟩,
  ⟨0x10000010, [], 0x0, 0x0, 0x0, 0x0, 0x0, 0x0, 0xF0F⟩,
  ⟨0x10000014, [], 0x0, 0x0, 0x0, 0x0, 0x0, 0x0, 0x0⟩,
  ⟨0x10000020, [], 0x40000000, 0x0, 0x0, 0x0, 0x0, 0x80000000, 0x0⟩,
  ⟨0x10000024, [], 0x0, 0x0, 0x0, 0x0, 0x0, 0xFFFF0001, 0x0⟩,
  ⟨0x10000028, [], 0x0, 0x0, 0x0, 0x0, 0x0, 0x0, 0x0⟩,
  ⟨0x10000030, [], 0x1000000, 0x0, 0x0, 0x0, 0x0, 0x80000000, 0x0⟩,
  ⟨0x10001000, [], 0x0, 0x0, 0x0, 0x0, 0x0, 0x0, 0x0⟩,
  ⟨0x10001004, [], 0x0, 0x0, 0x0, 0x0, 0x0, 0xFF0000FF, 0x0⟩,
  ⟨0x10001008, [], 0x0, 0x0, 0x0, 0x0, 0x0, 0x0, 0x0⟩,
  ⟨0x10001010, [], 0x0, 0x0, 0x0, 0x0, 0x0, 0x0, 0x0⟩,
  ⟨0x10001014, [], 0x0, 0x0, 0x0, 0x0, 0x0, 0x0, 0x0⟩,
  ⟨0x10001018, [], 0x0, 0x0, 0x0, 0x0, 0x0, 0x0, 0x0⟩,
  ⟨0x1000101C, [], 0x0, 0x0, 0x0, 0x0, 0x0, 0x0, 0x0⟩,
  ⟨0x10001100, [(64, 0x4)], 0xFFFFFFFF, 0x0, 0x0, 0x0, 0x0, 0x0, 0x0⟩,
  ⟨0x10002000, [], 0xF, 0x0, 0x0, 0x0, 0x0, 0x0, 0x0⟩,
  ⟨0x10002008, [], 0x0, 0x0, 0x0, 0x0, 0x0, 0x0, 0x0⟩,
  ⟨0x1000200C, [], 0x0, 0x0, 0x0, 0x0, 0x0, 0x0, 0x0⟩,
  ⟨0x10002010, [], 0x3F, 0x0, 0x0, 0x0, 0x0, 0x0, 0x0⟩,
  ⟨0x10002020, [], 0xFFF0FFF, 0x0, 0x0, 0x80000000, 0x0, 0x0, 0x3E80000⟩,
  ⟨0x10002024, [], 0x0, 0x0, 0x0, 0x0, 0x0, 0xFFFF, 0x0⟩,
  ⟨0x10002028, [], 0x0, 0x0, 0x2, 0x0, 0x0, 0x0, 0x0⟩,
  ⟨0x10002040, [(16, 0x4)], 0x0, 0x0, 0x0, 0x0, 0x0, 0x40000000, 0x0⟩,
  ⟨0x10002100, [], 0x1FFF, 0x0, 0x18000000, 0x0, 0x0, 0xC0000000, 0x0⟩,
  ⟨0x10002140, [(16, 0x4)], 0xFFFFFFFF, 0x0, 0x0, 0x0, 0x0, 0x0, 0x0⟩,
  ⟨0x10002180, [], 0x1FFF, 0x0, 0x18000000, 0x0, 0x0, 0xC0000000, 0x0⟩,
  ⟨0x100021C0, [(16, 0x4)], 0xFFFFFFFF, 0x0, 0x0, 0x0, 0x0, 0x0, 0x0⟩,
  ⟨0x10003000, [], 0x10331, 0x0, 0x0, 0x0, 0x0, 0x0, 0x10100⟩,
  ⟨0x10003004, [], 0x0, 0x0, 0x0, 0x0, 0x0, 0x0, 0x0⟩,
  ⟨0x10003008, [], 0x0, 0x0, 0x0, 0x0, 0x0, 0x0, 0x0⟩,
  ⟨0x10003020, [(8, 0x4)], 0x0, 0x0, 0x0, 0x0, 0x0, 0x0, 0x0⟩,
  ⟨0x10003040, [(4, 0x4)], 0xFFFFFFFF, 0x0, 0x0, 0x0, 0x0, 0x0, 0x0⟩,
  ⟨0x10003050, [], 0x0, 0x0, 0x0, 0x0, 0x0, 0xFFFF031F, 0x0⟩,
  ⟨0x10003060, [], 0x0, 0x0, 0x0, 0x0, 0x0, 0x0, 0x0⟩,
  ⟨0x10003064, [], 0x0, 0x0, 0x0, 0x0, 0x0, 0x0, 0x0⟩,
  ⟨0x10003068, [], 0x0, 0x0, 0x0, 0x0, 0x1, 0x0, 0x0⟩,
  ⟨0x1000306C, [], 0x0, 0x0, 0x0, 0x0, 0x0, 0x0, 0x0⟩]

/-- Rows of the register tables, part 2. -/
def regSpecs2 : List RegSpec := [
  ⟨0x11000000, [], 0x0, 0x0, 0x100, 0x0, 0x0, 0xF0, 0x1⟩,
  ⟨0x11000004, [], 0x1, 0x0, 0x0, 0x0, 0x0, 0x0, 0x0⟩,
  ⟨0x11000010, [], 0x0, 0xFFFFFFFF, 0x0, 0x0, 0x0, 0x0, 0x0⟩,
  ⟨0x11000014, [], 0x0, 0xFFFF, 0x0, 0x0, 0x0, 0x0, 0x0⟩,
  ⟨0x11000018, [], 0x0, 0xFFFFFFFF, 0x0, 0x0, 0x0, 0x0, 0x2FAF080⟩,
  ⟨0x1100001C, [], 0x0, 0x7F, 0x0, 0x0, 0x0, 0x0, 0x3⟩,
  ⟨0x11000020, [], 0x0, 0x7F, 0x0, 0x0, 0x0, 0x0, 0x20⟩,
  ⟨0x11000024, [], 0x0, 0xFFFFFFFF, 0x0, 0x0, 0x0, 0x0, 0x7A120⟩,
  ⟨0x11000028, [], 0x0, 0xFFFFFFFF, 0x0, 0x0, 0x0, 0x0, 0x61A80⟩,
  ⟨0x1100002C, [], 0x0, 0x7, 0x0, 0x0, 0x0, 0x0, 0x3⟩,
  ⟨0x11000040, [], 0x0, 0x0, 0x0, 0x0, 0x0, 0xE00000FF, 0x0⟩,
  ⟨0x11000044, [], 0xFFFFFFFF, 0x0, 0x0, 0x0, 0x0, 0x0, 0x0⟩,
  ⟨0x11000048, [], 0xFFFF, 0x0, 0x0, 0x0, 0x0, 0x0, 0x0⟩,
  ⟨0x1100004C, [], 0x0, 0x0, 0x0, 0x0, 0x0, 0x0, 0x0⟩,
  ⟨0x11000050, [], 0x0, 0x0, 0x0, 0x0, 0x0, 0x0, 0x0⟩,
  ⟨0x11000060, [(4, 0x4)], 0x0, 0xFFFFFFFF, 0x0, 0x0, 0x0, 0x0, 0x0⟩,
  ⟨0x11000080, [], 0x80FFFF07, 0x0, 0x0, 0x0, 0x0, 0x0, 0x3C0404⟩,
  ⟨0x11000084, [], 0x0, 0x0, 0x0, 0x0, 0x0, 0x0, 0x0⟩,
  ⟨0x11000090, [], 0x0, 0x0, 0x0, 0x0, 0x0, 0x0, 0x0⟩,
  ⟨0x11000094, [], 0x0, 0x0, 0x0, 0x0, 0x0, 0x0, 0x0⟩,
  ⟨0x11000098, [], 0x0, 0x0, 0x0, 0x0, 0x0, 0x0, 0x10000⟩,
  ⟨0x11000100, [(16, 0x10)], 0x0, 0x0, 0x0, 0x0, 0x0, 0x0, 0x0⟩,
  ⟨0x11000104, [(16, 0x10)], 0x0, 0x0, 0x0, 0x0, 0x0, 0x0, 0x0⟩,
  ⟨0x11000108, [(16, 0x10)], 0x0, 0x0, 0x0, 0x0, 0x0, 0x0, 0x0⟩,
  ⟨0x11000200, [(2, 0x40)], 0x0, 0x0, 0x0, 0x0, 0x0, 0x0, 0x80000000⟩,
  ⟨0x11000204, [(2, 0x40)], 0x0, 0x0, 0x0, 0x0, 0x0, 0x0, 0x0⟩,
  ⟨0x11000208, [(2, 0x40)], 0x0, 0x0, 0x0, 0x0, 0x0, 0x0, 0x0⟩,
  ⟨0x1100020C, [(2, 0x40)], 0x0, 0x0, 0x0, 0x0, 0x0, 0x0, 0x0⟩,
  ⟨0x11000210, [(2, 0x40)], 0x0, 0x0, 0x0, 0x0, 0x0, 0x0, 0x0⟩,
  ⟨0x11000214, [(2, 0x40)], 0x0, 0x0, 0x0, 0x0, 0x0, 0x0, 0x0⟩,
  ⟨0x11000218, [(2, 0x40)], 0x0, 0x0, 0x0, 0x0, 0x0, 0x0, 0x0⟩,
  ⟨0x1100021C, [(2, 0x40)], 0x0, 0x0, 0x0, 0x0, 0x0, 0x0, 0x0⟩,
  ⟨0x11000400, [(32, 0x4)], 0x0, 0x0, 0x0, 0x0, 0x0, 0x0, 0x0⟩,
  ⟨0x12000000, [(32, 0x80)], 0x0, 0x0, 0x0, 0x0, 0x0, 0x0, 0x0⟩,
  ⟨0x12000004, [(32, 0x80)], 0x0, 0x1F0F1F77, 0x0, 0x0, 0x0, 0x0, 0x0⟩,
  ⟨0x12000008, [(32, 0x80)], 0x0, 0x1FFF1FFF, 0x0, 0x0, 0x0, 0x0, 0x0⟩,
  ⟨0x1200000C, [(32, 0x80)], 0x0, 0xFFFFF, 0x0, 0x0, 0x0, 0x0, 0x0⟩,
  ⟨0x12000010, [(32, 0x80), (3, 0x4)], 0x0, 0x3FFFFFF, 0x0, 0x0, 0x0, 0x0, 0x0⟩,
  ⟨0x1200001C, [(32, 0x80)], 0x0, 0xFFFFFFFF, 0x0, 0x0, 0x0, 0x0, 0x0⟩,
  ⟨0x12000020, [(32, 0x80)], 0x0, 0x1FFF1FFF, 0x0, 0x0, 0x0, 0x0, 0x0⟩]

/-- Rows of the register tables, part 3. -/
def regSpecs3 : List RegSpec := [
  ⟨0x12000024, [(32, 0x80)], 0x0, 0x77F, 0x0, 0x0, 0x0, 0x0, 0x0⟩,
  ⟨0x12000028, [(32, 0x80)], 0x0, 0xFFFFF, 0x0, 0x0, 0x0, 0x0, 0x10000⟩,
  ⟨0x1200002C, [(32, 0x80)], 0x0, 0xFFFFF, 0x0, 0x0, 0x0, 0x0, 0x10000⟩,
  ⟨0x12000030, [(32, 0x80)], 0x0, 0xFFFFFFFF, 0x0, 0x0, 0x0, 0x0, 0x0⟩,
  ⟨0x12000034, [(32, 0x80)], 0x0, 0xFFFFFFFF, 0x0, 0x0, 0x0, 0x0, 0x0⟩,
  ⟨0x12000038, [(32, 0x80)], 0x0, 0xFFFFFFFF, 0x0, 0x0, 0x0, 0x0, 0x0⟩,
  ⟨0x1200003C, [(32, 0x80)], 0x0, 0xFFFFFFFF, 0x0, 0x0, 0x0, 0x0, 0x0⟩,
  ⟨0x12000040, [(32, 0x80)], 0x0, 0xFFFFFFFF, 0x0, 0x0, 0x0, 0x0, 0x10001000⟩,
  ⟨0x12000044, [(32, 0x80)], 0x0, 0x1FFFF, 0x0, 0x0, 0x0, 0x0, 0x0⟩,
  ⟨0x12000048, [(32, 0x80)], 0x0, 0x1FFFF, 0x0, 0x0, 0x0, 0x0, 0x0⟩,
  ⟨0x1200004C, [(32, 0x80)], 0x0, 0xFFFFFF, 0x0, 0x0, 0x0, 0x0, 0x0⟩,
  ⟨0x12000050, [(32, 0x80)], 0x0, 0x1FFF1FFF, 0x0, 0x0, 0x0, 0x0, 0x0⟩,
  ⟨0x12000058, [(32, 0x80)], 0x3FFFFFF, 0x0, 0x0, 0x0, 0x0, 0x0, 0x0⟩,
  ⟨0x1200005C, [(32, 0x80)], 0x0, 0x3FF03FF, 0x0, 0x0, 0x0, 0x0, 0x400040⟩,
  ⟨0x12002000, [], 0xFFFFFF00, 0x0, 0x0, 0x0, 0x0, 0x0, 0x0⟩,
  ⟨0x12002004, [], 0x3, 0x0, 0x0, 0x0, 0x0, 0x0, 0x0⟩,
  ⟨0x12002008, [], 0xFFFFFFFF, 0x0, 0x0, 0x0, 0x0, 0x0, 0x0⟩,
  ⟨0x1200200C, [], 0x0, 0x0, 0x0, 0x0, 0x0, 0x8000011F, 0x0⟩,
  ⟨0x12002010, [], 0x0, 0x0, 0x1, 0x0, 0x0, 0x0, 0x0⟩,
  ⟨0x12002014, [], 0x0, 0x0, 0x0, 0x0, 0x0, 0x0, 0x0⟩,
  ⟨0x13000000, [], 0x0, 0x0, 0x0, 0x0, 0x0, 0x0, 0x0⟩,
  ⟨0x13000004, [], 0x1, 0x0, 0x0, 0x0, 0x0, 0x0, 0x1⟩,
  ⟨0x13000008, [], 0xFFFFFFFF, 0x0, 0x0, 0x0, 0x0, 0x0, 0x13579BDF⟩,
  ⟨0x1300000C, [], 0x0, 0x0, 0x0, 0x0, 0x0, 0x0, 0x0⟩,
  ⟨0x13001000, [(8, 0x100)], 0x0, 0xF, 0x0, 0x0, 0x0, 0x0, 0x0⟩,
  ⟨0x13001004, [(8, 0x100)], 0xC0000FFF, 0x0, 0x0, 0x0, 0x0, 0x0, 0x0⟩,
  ⟨0x13001008, [(8, 0x100)], 0x0, 0x0, 0x0, 0x0, 0x0, 0x0, 0xFFF⟩,
  ⟨0x1300100C, [(8, 0x100)], 0x0, 0x0, 0x0, 0x0, 0x0, 0x0, 0x0⟩,
  ⟨0x13001010, [(8, 0x100)], 0x0, 0x0, 0x0, 0x0, 0x0, 0x0, 0x0⟩,
  ⟨0x13001014, [(8, 0x100)], 0x0, 0x0, 0x0, 0x0, 0x0, 0x0, 0x0⟩,
  ⟨0x13001018, [(8, 0x100)], 0x0, 0x0, 0x0, 0x0, 0x0, 0x0, 0x0⟩,
  ⟨0x14000000, [], 0x1F01, 0x0, 0x0, 0x0, 0x0, 0x80000000, 0x401⟩,
  ⟨0x14000004, [], 0x0, 0x0, 0x0, 0x0, 0x0, 0x0, 0x0⟩,
  ⟨0x14000010, [], 0x0, 0x0, 0x0, 0x0, 0x0, 0x0, 0x0⟩,
  ⟨0x14000014, [], 0x0, 0x0, 0x0, 0x0, 0x0, 0x0, 0x0⟩,
  ⟨0x14000018, [], 0x0, 0x0, 0x0, 0x0, 0x0, 0x0, 0x0⟩,
  ⟨0x1400001C, [], 0x0, 0x0, 0x0, 0x0, 0x0, 0x0, 0x0⟩,
  ⟨0x14000020, [], 0xFFFFFFF, 0x0, 0x0, 0x0, 0x0, 0x0, 0x0⟩,
  ⟨0x14000024, [], 0x1FFF, 0x0, 0x0, 0x0, 0x0, 0x0, 0x0⟩,
  ⟨0x14000028, [], 0xFFF, 0x0, 0x0, 0x0, 0x0, 0x0, 0x0⟩]

/-- Rows of the register tables, part 4. -/
def regSpecs4 : List RegSpec := [
  ⟨0x1400002C, [], 0x0, 0x0, 0x0, 0x0, 0x0, 0x0, 0x0⟩,
  ⟨0x14000030, [], 0x0, 0x0, 0x0, 0x0, 0x0, 0x0, 0x0⟩,
  ⟨0x14000034, [], 0x0, 0x0, 0x0, 0x0, 0x0, 0x0, 0x0⟩,
  ⟨0x14000040, [(32, 0x10)], 0x0, 0x0, 0x0, 0x0, 0x0, 0x0, 0x0⟩,
  ⟨0x14000044, [(32, 0x10)], 0x0, 0x0, 0x0, 0x0, 0x0, 0x0, 0x0⟩,
  ⟨0x14000048, [(32, 0x10)], 0x0, 0x0, 0x0, 0x0, 0x0, 0x0, 0x0⟩,
  ⟨0x14000300, [], 0x3FFFFFF, 0x0, 0x0, 0x0, 0x0, 0x0, 0x0⟩,
  ⟨0x14000304, [], 0x3FFFFFF, 0x0, 0x0, 0x0, 0x0, 0x0, 0x0⟩,
  ⟨0x14000308, [], 0x1FF, 0x0, 0x0, 0x0, 0x0, 0xC0000000, 0x0⟩,
  ⟨0x1400030C, [], 0x0, 0x0, 0x0, 0x0, 0x0, 0x0, 0x0⟩,
  ⟨0x15000000, [], 0x0, 0x0, 0x0, 0x0, 0x0, 0x0, 0x3E0000⟩,
  ⟨0x15000004, [], 0x0, 0xFFFF, 0x0, 0x0, 0x0, 0x0, 0x40⟩,
  ⟨0x15000008, [], 0x0, 0x3FFFFFF, 0x0, 0x0, 0x0, 0x0, 0x0⟩,
  ⟨0x1500000C, [], 0x0, 0x3FFFFFF, 0x0, 0x0, 0x0, 0x0, 0x0⟩,
  ⟨0x15000010, [], 0x0, 0xFFF, 0x0, 0x0, 0x0, 0x0, 0x0⟩,
  ⟨0x15000014, [], 0x0, 0x0, 0x0, 0x0, 0x0, 0x0, 0x0⟩,
  ⟨0x15000020, [], 0x3FFFFFF, 0x0, 0x0, 0x0, 0x0, 0x0, 0x0⟩,
  ⟨0x15000024, [], 0xFFFFFFFF, 0x0, 0x0, 0x0, 0x0, 0x0, 0x0⟩,
  ⟨0x15000028, [], 0x0, 0x0, 0x0, 0x0, 0x0, 0x8000000F, 0x0⟩,
  ⟨0x1500002C, [], 0x0, 0x0, 0x1, 0x0, 0x0, 0x0, 0x0⟩,
  ⟨0x15000030, [], 0x0, 0x0, 0x0, 0x0, 0x0, 0x0, 0x0⟩,
  ⟨0x15001000, [(512, 0x4)], 0x0, 0x31F, 0x0, 0x0, 0x0, 0x0, 0x200⟩,
  ⟨0x15001800, [(512, 0x4)], 0x0, 0x0, 0x0, 0x0, 0x0, 0x0, 0x0⟩,
  ⟨0x15004000, [], 0x0, 0x0, 0x0, 0x0, 0x0, 0x0, 0x0⟩,
  ⟨0x15004004, [], 0xFFFF, 0x0, 0x0, 0x0, 0x0, 0x0, 0x0⟩,
  ⟨0x15004008, [], 0x0, 0x0, 0x0, 0x0, 0x0, 0x0, 0x0⟩,
  ⟨0x1500400C, [], 0x0, 0x0, 0x0, 0x0, 0x0, 0x0, 0x0⟩,
  ⟨0x15004010, [], 0x0, 0x0, 0x0, 0x0, 0x0, 0x0, 0x0⟩,
  ⟨0x15004100, [(16, 0x10)], 0x0, 0x0, 0x0, 0x0, 0x0, 0x0, 0x0⟩,
  ⟨0x15004104, [(16, 0x10)], 0x0, 0x0, 0x0, 0x0, 0x0, 0x0, 0x0⟩,
  ⟨0x15004108, [(16, 0x10)], 0x0, 0x0, 0x0, 0x0, 0x0, 0x0, 0x0⟩,
  ⟨0x1500410C, [(16, 0x10)], 0x0, 0x0, 0x0, 0x0, 0x0, 0x0, 0x0⟩,
  ⟨0x15008000, [], 0x1, 0x0, 0x0, 0x0, 0x0, 0x0, 0x0⟩,
  ⟨0x15008004, [], 0xFF, 0x0, 0x0, 0x0, 0x0, 0x0, 0x3⟩,
  ⟨0x15008008, [], 0x0, 0x0, 0x0, 0x0, 0x0, 0x0, 0x0⟩,
  ⟨0x15008100, [(64, 0x20)], 0x1FFF1FFF, 0x0, 0x0, 0x0, 0x0, 0x0, 0x0⟩,
  ⟨0x15008104, [(64, 0x20)], 0x1FFF1FFF, 0x0, 0x0, 0x0, 0x0, 0x0, 0x0⟩,
  ⟨0x15008108, [(64, 0x20)], 0x707FFFF, 0x0, 0x0, 0x0, 0x0, 0x0, 0x700FF00⟩,
  ⟨0x1500810C, [(64, 0x20)], 0x80FFFF03, 0x0, 0x0, 0x0, 0x0, 0x0, 0x100⟩,
  ⟨0x15008110, [(64, 0x20)], 0xFFFFFFFF, 0x0, 0x0, 0x0, 0x0, 0x0, 0x0⟩]

/-- Rows of the register tables, part 5. -/
def regSpecs5 : List RegSpec := [
  ⟨0x15008114, [(64, 0x20)], 0xFFFF, 0x0, 0x0, 0x0, 0x0, 0x0, 0x0⟩,
  ⟨0x15008118, [(64, 0x20)], 0x0, 0x0, 0x0, 0x0, 0x0, 0x0, 0x0⟩,
  ⟨0x1500811C, [(64, 0x20)], 0x0, 0x0, 0x0, 0x0, 0x0, 0x0, 0x0⟩,
  ⟨0x15009000, [(512, 0x4)], 0x0, 0x0, 0x0, 0x0, 0x0, 0x0, 0x0⟩,
  ⟨0x16000000, [], 0x1, 0x0, 0x0, 0x0, 0x0, 0x0, 0x0⟩,
  ⟨0x16000004, [], 0xFFFF, 0x0, 0x0, 0x0, 0x0, 0x0, 0x2020⟩,
  ⟨0x16000010, [(4, 0x4)], 0xFFFFFFFF, 0x0, 0x0, 0x0, 0x0, 0x0, 0x0⟩,
  ⟨0x16000040, [], 0x1FF0003, 0x0, 0x0, 0x0, 0x0, 0x0, 0x0⟩,
  ⟨0x16000044, [], 0x0, 0x0, 0x0, 0x0, 0x0, 0x0, 0x80000000⟩,
  ⟨0x16000048, [], 0x0, 0x0, 0x0, 0x0, 0x0, 0x0, 0x0⟩,
  ⟨0x1600004C, [], 0x0, 0x0, 0x0, 0x0, 0x0, 0x0, 0x0⟩,
  ⟨0x16000050, [], 0x0, 0x0, 0x0, 0x0, 0x0, 0x0, 0x0⟩,
  ⟨0x16000054, [], 0x0, 0x0, 0x0, 0x0, 0x0, 0x0, 0x0⟩,
  ⟨0x16000060, [], 0x0, 0x0, 0x0, 0x0, 0x0, 0x0, 0x0⟩,
  ⟨0x16000064, [], 0x0, 0x0, 0x0, 0x0, 0x0, 0x0, 0x0⟩,
  ⟨0x16001000, [(16, 0x800)], 0x0, 0x0, 0x0, 0x0, 0x0, 0x0, 0x0⟩,
  ⟨0x16001004, [(16, 0x800)], 0x0, 0x0, 0x0, 0x0, 0x0, 0x1, 0x0⟩,
  ⟨0x16001008, [(16, 0x800)], 0x0, 0x0, 0x0, 0x0, 0x0, 0x0, 0x0⟩,
  ⟨0x16001010, [(16, 0x800), (2, 0x10)], 0x807F007F, 0x0, 0x0, 0x0, 0x0, 0x0, 0x80010001⟩,
  ⟨0x16001014, [(16, 0x800), (2, 0x10)], 0xFFFFFFFF, 0x0, 0x0, 0x0, 0x0, 0x0, 0x0⟩,
  ⟨0x16001018, [(16, 0x800), (2, 0x10)], 0xFFFF, 0x0, 0x0, 0x0, 0x0, 0x0, 0x0⟩,
  ⟨0x1600101C, [(16, 0x800), (2, 0x10)], 0xFFFFFFFF, 0x0, 0x0, 0x0, 0x0, 0x0, 0x0⟩,
  ⟨0x16001100, [(16, 0x800), (2, 0x200), (64, 0x8)], 0xFFFFFF, 0x0, 0x0, 0x0, 0x0, 0x0, 0x0⟩,
  ⟨0x16001104, [(16, 0x800), (2, 0x200), (64, 0x8)], 0xFFF0001F, 0x0, 0x0, 0x0, 0x0, 0x0, 0x0⟩,
  ⟨0x17000000, [], 0x101, 0x0, 0x0, 0x0, 0x0, 0x0, 0x101⟩,
  ⟨0x17000004, [], 0xFF0F, 0x0, 0x0, 0x0, 0x0, 0x0, 0x3C08⟩,
  ⟨0x17000008, [], 0x0, 0x0, 0x0, 0x0, 0x0, 0x0, 0x0⟩,
  ⟨0x1700000C, [], 0x79FFFFFF, 0x0, 0x0, 0x0, 0x0, 0x80000000, 0x0⟩,
  ⟨0x17001000, [(512, 0x40)], 0x10F0F, 0x0, 0x0, 0x0, 0x0, 0x0, 0x0⟩,
  ⟨0x17001004, [(512, 0x40)], 0x0, 0x0, 0x0, 0x0, 0x0, 0x0, 0x0⟩,
  ⟨0x17001008, [(512, 0x40)], 0x0, 0x0, 0x0, 0x0, 0x0, 0x0, 0x0⟩,
  ⟨0x1700100C, [(512, 0x40)], 0x0, 0x0, 0x0, 0x0, 0x0, 0x0, 0x0⟩,
  ⟨0x17001010, [(512, 0x40)], 0xFFFFFFFF, 0x0, 0x0, 0x0, 0x0, 0x0, 0x0⟩,
  ⟨0x17001014, [(512, 0x40)], 0x0, 0x0, 0x0, 0x0, 0x0, 0x0, 0x0⟩,
  ⟨0x17001018, [(512, 0x40)], 0x0, 0x0, 0x0, 0x0, 0x0, 0x0, 0x0⟩,
  ⟨0x1700101C, [(512, 0x40)], 0x0, 0x0, 0x0, 0x0, 0x0, 0x0, 0x0⟩,
  ⟨0x17001020, [(512, 0x40)], 0x0, 0x0, 0x0, 0x0, 0x0, 0x0, 0x0⟩,
  ⟨0x17001024, [(512, 0x40)], 0x0, 0x0, 0x0, 0x0, 0x0, 0x0, 0x0⟩,
  ⟨0x17001028, [(512, 0x40)], 0x0, 0x0, 0x0, 0x0, 0x0, 0x0, 0x0⟩,
  ⟨0x1700102C, [(512, 0x40)], 0x0, 0x0, 0x0, 0x0, 0x0, 0x0, 0x0⟩]

/-- Rows of the register tables, part 6. -/
def regSpecs6 : List RegSpec := [
  ⟨0x18000000, [], 0x0, 0x0, 0x0, 0x0, 0x0, 0x0, 0x0⟩,
  ⟨0x18000010, [], 0x0, 0x0, 0x0, 0x0, 0x0, 0x0, 0x0⟩,
  ⟨0x18000014, [], 0x0, 0x0, 0x0, 0x0, 0x0, 0x0, 0x0⟩,
  ⟨0x18000018, [], 0x0, 0x0, 0x0, 0x0, 0x0, 0x0, 0x0⟩,
  ⟨0x1800001C, [], 0x0, 0x0, 0x0, 0x0, 0x0, 0x0, 0x0⟩,
  ⟨0x18000020, [], 0x0, 0x0, 0x0, 0x0, 0x0, 0x0, 0x0⟩,
  ⟨0x18000024, [], 0x0, 0x0, 0x0, 0x0, 0x0, 0x0, 0x0⟩,
  ⟨0x18000030, [], 0x0, 0x0, 0x0, 0x0, 0x0, 0xFFFFFFFF, 0x0⟩,
  ⟨0x18000034, [], 0x0, 0x0, 0x0, 0x0, 0x0, 0xFFFFFFFF, 0x0⟩,
  ⟨0x18000040, [], 0x0, 0x0, 0x0, 0x0, 0x0, 0xFFFF0000, 0x0⟩,
  ⟨0x18000044, [], 0x0, 0x0, 0x0, 0x0, 0x0, 0xFFFFFFFF, 0x0⟩,
  ⟨0x18000048, [], 0x0, 0x0, 0x0, 0x0, 0x0, 0xFFFFFFFF, 0x0⟩,
  ⟨0x18000050, [], 0xFFFFF0FF, 0x0, 0x0, 0x0, 0x0, 0x0, 0x3E8032⟩,
  ⟨0x18000054, [], 0xFFFFFFFF, 0x0, 0x0, 0x0, 0x0, 0x0, 0x0⟩,
  ⟨0x18000058, [], 0x0, 0x0, 0x0, 0x0, 0x0, 0x0, 0x0⟩,
  ⟨0x18000060, [], 0xFFFFFFFF, 0x0, 0x0, 0x0, 0x0, 0x0, 0x27100000⟩,
  ⟨0x18000100, [(8, 0x10)], 0xFFFFFFFF, 0x0, 0x0, 0x0, 0x0, 0x0, 0x0⟩,
  ⟨0x18000104, [(8, 0x10)], 0xFFFF, 0x0, 0x0, 0x0, 0x0, 0x0, 0x0⟩,
  ⟨0x18000108, [(8, 0x10)], 0xFFFFFFFF, 0x0, 0x0, 0x0, 0x0, 0x0, 0x0⟩,
  ⟨0x1800010C, [(8, 0x10)], 0x100, 0x0, 0x2, 0x0, 0x0, 0xC0000000, 0x0⟩,
  ⟨0x18000200, [(2, 0x8)], 0x0, 0x0, 0x0, 0x0, 0x0, 0x0, 4710⟩,
  ⟨0x18000204, [(2, 0x8)], 0x0, 0x0, 0x0, 0x0, 0x0, 0x0, 7078⟩,
  ⟨0x18000300, [(2, 0x20)], 0x0, 0x0, 0x0, 0x0, 0x0, 0x0, 0x0⟩,
  ⟨0x18000304, [(2, 0x20)], 0x0, 0x0, 0x0, 0x0, 0x0, 0x0, 0x0⟩,
  ⟨0x18000308, [(2, 0x20)], 0x0, 0x0, 0x0, 0x0, 0x0, 0x0, 0x0⟩,
  ⟨0x1800030C, [(2, 0x20)], 0x0, 0x0, 0x0, 0x0, 0x0, 0x0, 0x0⟩,
  ⟨0x18000310, [(2, 0x20)], 0x0, 0x0, 0x0, 0x0, 0x0, 0x0, 0x0⟩,
  ⟨0x19000000, [], 0x317, 0x0, 0x0, 0x0, 0x0, 0x0, 0x4⟩,
  ⟨0x19000004, [], 0x0, 0x0, 0x0, 0x0, 0x0, 0x0, 0x0⟩,
  ⟨0x19000008, [], 0x0, 0x0, 0x0, 0x0, 0x0, 0x0, 0x0⟩,
  ⟨0x1900000C, [], 0x0, 0x0, 0x0, 0x0, 0x0, 0x0, 0x0⟩,
  ⟨0x19000010, [], 0x0, 0x0, 0x0, 0x0, 0x0, 0x0, 0x0⟩,
  ⟨0x1A000000, [(2, 0x1000000)], 0xFF0301, 0x0, 0x0, 0x0, 0x0, 0xC0000000, 0x640000⟩,
  ⟨0x1A000004, [(2, 0x1000000)], 0x0, 0x0, 0x0, 0x0, 0x0, 0x0, 0x0⟩,
  ⟨0x1A000008, [(2, 0x1000000)], 0x8000FFFF, 0x0, 0x0, 0x0, 0x0, 0x0, 0x0⟩,
  ⟨0x1A00000C, [(2, 0x1000000)], 0xFF000000, 0x0, 0x0, 0x0, 0x0, 0x0, 0x60000000⟩,
  ⟨0x1A000010, [(2, 0x1000000)], 0xFFFF, 0x0, 0x0, 0x0, 0x0, 0x0, 0x0⟩,
  ⟨0x1A000014, [(2, 0x1000000)], 0xF, 0x0, 0x0, 0x0, 0x0, 0x0, 0x0⟩,
  ⟨0x1A000018, [(2, 0x1000000)], 0xFFFFFFFF, 0x0, 0x0, 0x0, 0x0, 0x0, 0x0⟩,
  ⟨0x1A000020, [(2, 0x1000000)], 0x0, 0x0, 0x0, 0x0, 0x0, 0x0, 0x0⟩]

/-- Rows of the register tables, part 7. -/
def regSpecs7 : List RegSpec := [
  ⟨0x1A000024, [(2, 0x1000000)], 0x0, 0x0, 0x0, 0x0, 0x0, 0x0, 0x0⟩,
  ⟨0x1A000028, [(2, 0x1000000)], 0x0, 0x0, 0x0, 0x0, 0x0, 0x0, 0x0⟩,
  ⟨0x1A000044, [(2, 0x1000000), (6, 0x4)], 0x0, 0x0, 0x0, 0x0, 0x0, 0x0, 0x0⟩,
  ⟨0x1A000060, [(2, 0x1000000)], 0x3E00FFFF, 0x0, 0x0, 0x0, 0x0, 0xC0000000, 0x0⟩,
  ⟨0x1A000100, [(2, 0x1000000), (8, 0x4)], 0x0, 0x0, 0x0, 0x0, 0x0, 0x0, 0x0⟩,
  ⟨0x1C000000, [], 0x0, 0x0, 0x0, 0x0, 0x0, 0x0, 0x0⟩,
  ⟨0x1C000010, [(4, 0x4)], 0x0, 0x0, 0x0, 0x0, 0x0, 0x0, 0x0⟩,
  ⟨0x1C000020, [(5, 0x4)], 0x0, 0x0, 0x0, 0x0, 0x0, 0x0, 0x0⟩,
  ⟨0x1C000040, [(8, 0x8)], 0x0, 0x0, 0x0, 0x0, 0x0, 0x0, 0x0⟩,
  ⟨0x1C000044, [(8, 0x8)], 0x0, 0x0, 0x0, 0x0, 0x0, 0x0, 0x0⟩,
  ⟨0x1C000080, [], 0x8000FFFF, 0x0, 0x0, 0x0, 0x0, 0x0, 0x80000064⟩,
  ⟨0x1C000084, [], 0x80FFFFFF, 0x0, 0x0, 0x0, 0x0, 0x0, 0x803C1056⟩,
  ⟨0x1C000088, [], 0x0, 0x0, 0x0, 0x0, 0x0, 0xFFFF, 0x0⟩,
  ⟨0x1C000100, [(16, 0x4)], 0x0, 0x0, 0x0, 0x0, 0x0, 0x0, 0x0⟩,
  ⟨0x1C000140, [(16, 0x4)], 0x0, 0x0, 0x0, 0x0, 0x0, 0x0, 0x0⟩,
  ⟨0x1C000180, [], 0x0, 0x0, 0x0, 0x0, 0x0, 0x0, 0x0⟩,
  ⟨0x1C000184, [], 0x0, 0x0, 0x0, 0x0, 0x0, 0x0, 0x0⟩,
  ⟨0x1C000190, [], 0x800000FF, 0x0, 0x0, 0x0, 0x0, 0x0, 0x80000004⟩,
  ⟨0x1C000194, [], 0x0, 0x0, 0x0, 0x0, 0x0, 0x0, 0x0⟩,
  ⟨0x1C000198, [], 0x0, 0x0, 0x0, 0x0, 0x0, 0x0, 0x0⟩,
  ⟨0x1C00019C, [], 0x0, 0x0, 0x0, 0x0, 0x0, 0x0, 0x0⟩,
  ⟨0x1D000000, [], 0x3, 0x0, 0x0, 0x0, 0x0, 0x80000000, 0x1⟩,
  ⟨0x1D000004, [], 0xFFFF007F, 0x0, 0x0, 0x0, 0x0, 0x0, 0x10⟩,
  ⟨0x1D000008, [], 0xFFFFFFF, 0x0, 0x0, 0x0, 0x0, 0x0, 0x0⟩,
  ⟨0x1D00000C, [], 0x7FF, 0x0, 0x0, 0x0, 0x0, 0x0, 0x0⟩,
  ⟨0x1D000010, [], 0x3FF, 0x0, 0x0, 0x0, 0x0, 0x0, 0x0⟩,
  ⟨0x1D000014, [], 0x0, 0x0, 0x0, 0x0, 0x0, 0x0, 0x0⟩,
  ⟨0x1D000018, [], 0x0, 0x0, 0x0, 0x0, 0x0, 0x0, 0x0⟩,
  ⟨0x1D00001C, [], 0x8000007F, 0x0, 0x0, 0x0, 0x0, 0x0, 0x0⟩,
  ⟨0x1D000020, [], 0x0, 0x0, 0x7, 0x0, 0x0, 0x0, 0x0⟩,
  ⟨0x1D000024, [], 0x0, 0x0, 0x0, 0x0, 0x0, 0x0, 0x0⟩,
  ⟨0x1E000000, [], 0x0, 0x0, 0x0, 0x0, 0x0, 0x0, 0x0⟩,
  ⟨0x1E000004, [], 0x0, 0x0, 0x0, 0x0, 0x0, 0x0, 0x0⟩,
  ⟨0x1E000008, [], 0x0, 0x0, 0x0, 0x0, 0x0, 0x0, 0x0⟩,
  ⟨0x1E00000C, [], 0xFFFFFF, 0x0, 0x0, 0x0, 0x0, 0x0, 0x6E645F⟩,
  ⟨0x1E000010, [], 0xFF0FFFFF, 0x0, 0x0, 0x0, 0x0, 0x0, 0x10030A0A⟩,
  ⟨0x1E000014, [], 0x700, 0x0, 0x0, 0x0, 0x0, 0x0, 0x0⟩,
  ⟨0x1E001000, [], 0xFFFF1F, 0x0, 0x0, 0x0, 0x0, 0x80000000, 0x180A04⟩,
  ⟨0x1E001004, [], 0x0, 0x0, 0x0, 0x0, 0x0, 0x0, 0x0⟩,
  ⟨0x1E001008, [], 0x0, 0x0, 0x0, 0x0, 0x0, 0x0, 0x0⟩]

/-- Rows of the register tables, part 8. -/
def regSpecs8 : List RegSpec := [
  ⟨0x1E001010, [], 0x0, 0x0, 0x0, 0x0, 0x0, 0x0, 0x0⟩,
  ⟨0x1E001014, [], 0x0, 0x0, 0x0, 0x0, 0x0, 0x0, 0x0⟩,
  ⟨0x1E001018, [], 0x0, 0x0, 0x0, 0x0, 0x0, 0x0, 0x0⟩,
  ⟨0x1E002000, [], 0x8000FFFF, 0x0, 0x0, 0x0, 0x0, 0x0, 0x5⟩,
  ⟨0x1E002004, [], 0x0, 0x0, 0x0, 0x0, 0x0, 0x0, 0x3520000⟩,
  ⟨0x1E002010, [], 0x43007FFF, 0x0, 0x0, 0x0, 0x0, 0x80000000, 0x0⟩,
  ⟨0x1E002014, [], 0xFFFF, 0x0, 0x0, 0x0, 0x0, 0x0, 0x0⟩,
  ⟨0x1F000000, [], 0x0, 0x0, 0x0, 0x0, 0x0, 0x0, 0x80000000⟩,
  ⟨0x1F000004, [], 0x0, 0x0, 0x3000, 0x0, 0x0, 0x0, 0x3⟩,
  ⟨0x1F000008, [], 0x3FF, 0x0, 0x0, 0x0, 0x0, 0x80000000, 0x64⟩,
  ⟨0x1F00000C, [], 0x0, 0x0, 0x0, 0x0, 0x0, 0x0, 0x0⟩,
  ⟨0x1F000010, [(16, 0x4)], 0x0, 0x0, 0xFFFFFFFF, 0x0, 0x0, 0x0, 0x0⟩,
  ⟨0x1F000050, [], 0x0, 0x0, 0x0, 0x0, 0x0, 0x0, 0x0⟩]

/-- Every row of the register tables, in address order. -/
def regSpecs : List RegSpec :=
  regSpecs1 ++ regSpecs2 ++ regSpecs3 ++ regSpecs4 ++ regSpecs5 ++ regSpecs6 ++ regSpecs7 ++ regSpecs8

/-- Does offset `o` fall on one of the indexed words, outermost index first? -/
def dimsHit : List (Nat × Nat) → Nat → Bool
  | [], o => o == 0
  | (n, s) :: ds, o => decide (o / s < n) && dimsHit ds (o % s)

/-- Does the row hold the word at address `a`? -/
def RegSpec.hits (r : RegSpec) (a : Nat) : Bool := decide (r.base ≤ a) && dimsHit r.dims (a - r.base)

/-- The row of the register tables that holds the word at address `a`. -/
def specOf (a : Nat) : Option RegSpec := regSpecs.find? (·.hits a)

/-- Reset values that the tables give by index: LAYER_n_CTRL.PRIO = n and LAYER_n_INFO.KIND (03 R62), HBM_MAP_PCk and
HBM_MAP_BKk (12 R318), VDT_WFQc (09 R234), PIER_NTF without a tile (08 R202) and the part number and stepping of SYS_DIE_ID (16 R409). -/
def resetByIndex (a : Nat) : Option Nat :=
  if 0x12000000 ≤ a ∧ a < 0x12001000 then
    let n := (a - 0x12000000) / 0x80
    if a % 0x80 = 4 then some (n * 2 ^ 8) else if a % 0x80 = 0 then some (if 23 < n then 1 else 0) else none
  else if 0x1C000010 ≤ a ∧ a < 0x1C000020 ∧ a % 4 = 0 then some (0x11111 * 2 ^ ((a - 0x1C000010) / 4))
  else if 0x1C000020 ≤ a ∧ a < 0x1C000034 ∧ a % 4 = 0 then some (0x0421 * 2 ^ ((a - 0x1C000020) / 4))
  else if a = 0x16000010 then some (2304 * 2 ^ 16 + 1)
  else if a = 0x16000014 then some (4096 * 2 ^ 16 + 2)
  else if a = 0x16000018 then some (4 * 2 ^ 16 + 256)
  else if a = 0x1600001C then some (2 * 2 ^ 16 + 64)
  else if a = 0x17000008 then some 5000
  else if a = 0x1000000C then some (0x5120 * 2 ^ 16 + 0xA1)
  else none

/-- What the word at address `a` holds after reset (R9 tables; fields whose reset is the image, fuses, MRAM or a pin
hold 0 until start-up loads them, log 5). -/
def resetWord (a : Nat) : Word :=
  match resetByIndex a with
  | some v => word v
  | none => match specOf a with
    | some r => word r.reset
    | none => 0

end Sys2Proof
end

