-- ==== Sys2Proof/Machine/Table.lean ====
section
/-! DEFINITION. Sparse tables in one canonical form: a list of (key, value) entries with strictly rising keys in which no
entry equals what an unlisted key reads as. Memories, register files and per-index records are all such tables. -/

namespace Sys2Proof

/-- A sparse table from `Nat` keys. -/
abbrev Table (α : Type) := List (Nat × α)

/-- What key `k` holds; an unlisted key reads as `d k`. -/
def Table.get {α : Type} (d : Nat → α) : Table α → Nat → α
  | [], k => d k
  | (j, v) :: t, k => if k = j then v else Table.get d t k

/-- The table without key `k`. -/
def Table.erase {α : Type} : Table α → Nat → Table α
  | [], _ => []
  | (j, v) :: t, k => if k = j then Table.erase t k else (j, v) :: Table.erase t k

/-- The table with `(k, v)` put in front of the first larger key. -/
def Table.insert {α : Type} : Table α → Nat → α → Table α
  | [], k, v => [(k, v)]
  | (j, w) :: t, k, v => if k < j then (k, v) :: (j, w) :: t else (j, w) :: Table.insert t k v

/-- The table with key `k` holding `v`: the entry goes when `v` is what an unlisted `k` reads as. -/
def Table.set {α : Type} [DecidableEq α] (d : Nat → α) (t : Table α) (k : Nat) (v : α) : Table α :=
  if v = d k then t.erase k else (t.erase k).insert k v

/-- Key `k` changed by `f`. -/
def Table.modify {α : Type} [DecidableEq α] (d : Nat → α) (t : Table α) (k : Nat) (f : α → α) : Table α :=
  t.set d k (f (t.get d k))

/-- Consecutive keys from `k` on holding the values of the list. -/
def Table.setMany {α : Type} [DecidableEq α] (d : Nat → α) (t : Table α) (k : Nat) : List α → Table α
  | [] => t
  | v :: vs => Table.setMany d (t.set d k v) (k + 1) vs

/-- The values of `n` consecutive keys from `k` on. -/
def Table.getMany {α : Type} (d : Nat → α) (t : Table α) (k : Nat) : Nat → List α
  | 0 => []
  | n + 1 => t.get d k :: Table.getMany d t (k + 1) n

/-- The entries whose keys lie outside `[lo, lo + len)`. -/
def Table.dropRange {α : Type} (t : Table α) (lo len : Nat) : Table α :=
  t.filter fun e => decide (e.1 < lo ∨ lo + len ≤ e.1)

/-- The canonical form: keys rise strictly and no entry is a default. -/
def Table.wf {α : Type} [DecidableEq α] (d : Nat → α) : Table α → Bool
  | [] => true
  | (k, v) :: t => (t.all fun e => decide (k < e.1)) && decide (v ≠ d k) && Table.wf d t

end Sys2Proof
end

