-- ==== Sys2Proof/Machine/State.lean ====
section
/-! DEFINITION. The state of the LRX-5120: plain data, everything the spec gives the machine (INVENTORY.md, "State"),
the queue of waiting commands, and the counter that the free values are drawn with (log 3). Registers that software
sees stand in `State.regs` under their addresses; what the rules name beside the registers stands in the sub-structures. -/

namespace Sys2Proof.Machine

/-- Why the machine stops with a fault. No command of this block faults: a supervisor access outside the map is
recorded (15 R367, log 14). The constructor names the stop that would be safe. -/
inductive Fault where
  /-- Raised by no command; a stop would be safe. -/
  | stopped
deriving DecidableEq, Repr

/-- Why a command has no meaning. -/
inductive Refusal where
  /-- Raised by an arm of `exec` whose command has no meaning yet; safe. -/
  | notModelled (mnemonic : String)
deriving DecidableEq, Repr

/-- The four operating states (01 R23), ordered as in R24. -/
inductive DevState where
  | normal | hold | keystoneOnly | safeHalt
deriving DecidableEq, Repr

/-- DECK_STATE.CUR coding of the operating states (02 R58). -/
def DevState.code : DevState → Nat
  | .normal => 0
  | .hold => 1
  | .keystoneOnly => 2
  | .safeHalt => 3

/-- The life-cycle states (16 R400), coded as in the fault log (15 R378). -/
inductive LcState where
  | test | field | service | retired
deriving DecidableEq, Repr

/-- The code of a life-cycle state in the fault log and in LC_STATE. -/
def LcState.code : LcState → Nat
  | .test => 0
  | .field => 1
  | .service => 2
  | .retired => 3

/-- One of the two writers of shadows and commits (02 R37). -/
inductive Writer where
  | host | supervisor
deriving DecidableEq, Repr

/-- WRITER as DECK_COMMIT_STATUSm_A shows it. -/
def Writer.code : Writer → Nat
  | .host => 0
  | .supervisor => 1

/-- An event record (15 R373) before serialisation. -/
structure EvRec where
  code    : Nat
  sev     : Nat
  lost    : Bool
  nt48    : Nat
  eseq    : Nat
  frame   : Nat
  payload : List Byte
deriving DecidableEq, Repr

/-- The event unit (15 R372 to R379): the next ESEQ, the two queues, the LOST marks, the bucket of log tokens with the
island time at which it was last filled, the events suppressed since the last summary, and the time of the last
posting of each rate-limited event. -/
structure Evt where
  eseq       : Nat
  supQ       : List EvRec
  hostQ      : List EvRec
  supLost    : Bool
  hostLost   : Bool
  tokens     : Nat
  tokenAt    : Nat
  suppressed : Nat
  lastPost   : Table Nat
deriving DecidableEq, Repr

/-- The time unit (10 R237 to R251): the CLK_TIME count and the island count in 1/8 ns, NT as seconds and half
nanoseconds, the staged words of NT_ADJ and NT_SET, what is left of the slew in progress or held (2^-8 ppb times CLK_TIME cycles, 1,562,500
to 2^-16 ns), the rate offset that NT_FREQ asks for and the one held, the alarms (target and
LATE mark), PPS_OUT, the transmit-timestamp queues and the receive ring; the sum of steps in 1/8 ns modulo the block
length with each pier's value at its last realignment (R242), a step the gate lists have not taken yet (09 R231), the fraction of the island
count in 2^-32 of its unit, and the NT_FREQ and slew terms of Φ in force, in 2^-8 ppb (R253). -/
structure NtUnit where
  now8      : Nat
  isl8      : Nat
  sec       : Nat
  half      : Nat
  adjLo     : Nat
  set0      : Nat
  set1      : Nat
  slew      : Option Int
  held      : Option Int
  freq      : Int
  freqHeld  : Option Int
  armed     : Table (Option (Nat × Bool))
  ppsHigh   : Bool
  ppsFallAt : Nat
  txqA      : List (List Word)
  txqB      : List (List Word)
  txqDropA  : List Nat
  txqDropB  : List Nat
  rxRing    : List (List Byte)
  gridTotal : Nat
  gridMark  : Table Nat
  gateStep  : Option Int
  islFrac   : Nat
  freqPhi   : Int
  slewPhi   : Int
deriving DecidableEq, Repr

/-- The states of the ADPLL (10 R257). -/
inductive AdpllState where
  | off | search | acquire | locked | holdover
deriving DecidableEq, Repr

/-- CLK_STATUS.STATE coding. -/
def AdpllState.code : AdpllState → Nat
  | .off => 0
  | .search => 1
  | .acquire => 2
  | .locked => 3
  | .holdover => 4

/-- The clocking block (10 R252 to R261): the ADPLL's state, the reference in use (false REFCLK), the validity of both
references with the island times since which that holds, the entry time of the holdover, the sigma-delta fraction below FINE, the phase
slew that is left (2^-8 ppb times CLK_TIME cycles, 102,400,000 to 1 ps) with its term of Φ, the island time at which the phase error came
to rest, and the codes that the last search found with its Tj. -/
structure Clk where
  state       : AdpllState
  ref         : Bool
  refclkOk    : Bool
  mraOk       : Bool
  refclkSince : Nat
  mraSince    : Nat
  holdSince   : Nat
  frac        : Nat
  phaseLeft   : Int
  phasePhi    : Int
  quietAt     : Nat
  found       : Option (Nat × Nat × Int)
deriving DecidableEq, Repr

/-- A pending commit (02 R38 to R42, R452): its captured words, its target (none when untimed), whether its validation has
completed with acceptance, whether a revalidation is outstanding, and whether a latch point has passed it by. -/
structure Commit where
  seq    : Nat
  tag    : Nat
  writer : Writer
  target : Option Nat
  words  : List (Nat × Word)
  valid  : Bool
  reval  : Bool
  missed : Bool
deriving DecidableEq, Repr

/-- Where the Deck stands in a frame (02 R26, R27, R36). -/
inductive Phase where
  /-- No frame: stopped, or armed and waiting for the first frame start. -/
  | idle
  /-- Scan line `v` is in progress. -/
  | line (v : Nat)
  /-- The last scan line has ended and the latch point has not yet fired. -/
  | waitLatch
  /-- After the latch point, before the next frame start. -/
  | blank
deriving DecidableEq, Repr

/-- The Deck (02 R26 to R57, R451): operating state and request, the causes that keep a state (log 12), the run control,
the schedule index of the frame in progress and of the next start, the frame's instants (local counts in 1/8 ns, NT48
values; the scheduled latch point before its own, log 107, and whether the schedule has been re-timed since its latch point), its
flags and counts, shedding (shed layers, the latest first), layer holds and the pending commits. -/
structure Deck where
  dev        : DevState
  req        : Option DevState
  hbmCause   : Bool
  thmCause   : Bool
  running    : Bool
  frameNum   : Nat
  started    : Bool
  phase      : Phase
  k          : Int
  nextK      : Option Int
  start8     : Nat
  lines      : Nat
  linePeriod : Nat
  latchNT    : Nat
  latch8     : Nat
  flipOffset : Nat
  flipNT     : Nat
  flip8      : Option Nat
  flipDone   : Bool
  rephased   : Bool
  repeatNext : Bool
  timeStep   : Bool
  lateFlip   : Bool
  lastStep   : Int
  startLate  : Bool
  flipLateEv : Bool
  lastLatch  : Option Nat
  repeatF    : Bool
  latchLate  : Bool
  prevLatch  : Nat
  retimed    : Bool
  underrun   : List Nat
  underTotal : Nat
  lateTotal  : Nat
  rayHold    : Table Nat
  shedQuiet  : Nat
  shedList   : List Nat
  holdL      : List Nat
  holdG      : List Nat
  commits    : List Commit
deriving DecidableEq, Repr

/-- A 66-bit block (08 R192, 11 R267) before the scrambler: a control or a data block, and its payload bytes D0 to D7. -/
structure Block where
  ctl   : Bool
  bytes : List Byte
deriving DecidableEq, Repr

/-- What leaves the device, so that a transmission is visible in the state (log 4). -/
inductive Out where
  /-- An output pin takes a level. -/
  | pin (name : String) (high : Bool)
  /-- A Moror frame of a class leaves port 0 (A) or 1 (B): its blocks from SOF to the IDLE block after EOF, each with its lane. -/
  | frame (port cls : Nat) (blocks : List (Nat × Block))
  /-- Blocks outside frames leave a Moror port, on one lane or, with none, each on all eight. -/
  | blocks (port : Nat) (lane : Option Nat) (bs : List Block)
  /-- A test pattern starts on the lanes of a Moror port: 1 PRBS7, 2 PRBS31 (11 R275). -/
  | mrPattern (port mode : Nat)
  /-- A packet of a class (0 RAY, 1 BULK, 2 CTRL, 3 TIME) starts on a pier, from its SOP to its EOP. -/
  | packet (pier cls : Nat) (blocks : List Block)
  /-- A block outside packets starts on a pier: IDLE, TURN or FLIP. -/
  | pierBlock (pier : Nat) (b : Block)
  /-- Blocks have left a pier: the 66 bits of each on the line, the header in bits 1 to 0 and the scrambled payload above it. -/
  | pierLine (pier : Nat) (words : List Nat)
  /-- The preamble of a pier: 512 UI alternating 1, 0 (08 R199). -/
  | preamble (pier : Nat)
  /-- The physical delay setting of a pier for a FLIP (08 R202, 14 R350). -/
  | pierTap (pier setting : Nat)
  /-- A test pattern of so many bits starts on a pier (08 R211). -/
  | pierPattern (pier mode bits : Nat)
  /-- A PMBus transaction, with the bytes that the block sends (14 R359). -/
  | pmbus (bytes : List Byte)
  /-- A target voltage sent over AVSBus, in mV. -/
  | avs (mv : Nat)
deriving DecidableEq, Repr

/-- A band job (05 R110, R111): pier, scan line, hogel, and the deadline as an offset in 1/8 ns from the actual start of
the frame. An audit job (05 R121) and the job of a third cell (R122) stand in the same queue. -/
structure Job where
  pier     : Nat
  line     : Nat
  u        : Nat
  deadline : Nat
  audit    : Bool
deriving DecidableEq, Repr

/-- What a cell runs. -/
inductive CellWork where
  | idle
  | job (j : Job)
deriving DecidableEq, Repr

/-- A cell: its work, the local time at which it began and the layers that were switched off then (04 R96), the local time from which
its throttle pause has elapsed, and whether it lost a program word. -/
structure Cell where
  work     : CellWork
  since8   : Nat
  off      : List Nat
  freeAt   : Nat
  progLost : Bool
deriving DecidableEq, Repr

/-- The audit of a comb in progress (05 R121, R122): the job, the original cell, the copied output with the layers that the original
left out, the auditing cell's result once it differs, and the auditing cell. -/
structure Audit where
  job    : Job
  orig   : Nat
  copied : List Nat
  off    : List Nat
  cell   : Option Nat
  result : Option (List Nat)
deriving DecidableEq, Repr

/-- A comb (05 R109 to R125): the queue of issued jobs, LFSR and a seed that waits, the jobs selected for audit, the audit in
progress, the line whose band is fetched and the resident bands (line, layer), the cause of a failure that applies at the
next latch point, the time of the last outcome without agreement, program errors (cell, time), the LUT store words that have
failed, corrected errors since the last event, the counts of the frame, and the greatest band of the frame (R117). -/
structure Comb where
  queue      : List Job
  lfsr       : Nat
  reseed     : Bool
  auditSel   : List (Nat × Nat × Nat)
  audit      : Option Audit
  fetchLine  : Option Nat
  resident   : List (Nat × Nat)
  failNext   : Option Nat
  suspects   : List Nat
  suspectAt  : Option Nat
  progErrs   : List (Nat × Nat)
  lutFailed  : List Nat
  eccSince   : Nat
  peak       : Nat
  busyNow    : Nat
  abandoned  : Nat
  overflowed : Bool
  forced     : Bool
  announced  : List Nat
deriving DecidableEq, Repr

/-- A table load in progress: kind, slot, HBM source and the expected CRC (03 R80, 07 R183). -/
structure TableLoad where
  kind : Nat
  slot : Nat
  src  : Nat
  crc  : Nat
deriving DecidableEq, Repr

/-- A buffer that a layer reads (02 R49): DECK_SHOWNn source, HBM address, rotation index and FSN. -/
structure Shown where
  src  : Nat
  addr : Nat
  buf  : Nat
  fsn  : Nat
deriving DecidableEq, Repr

/-- The layer block and the tables every comb holds alike (03 R68 to R80, 05 R119): pre-blend LUT entries, palettes with
their standby copies, scaler coefficients, recipe slots, the loader, the buffer each layer reads, and
the SEQ of the commit that wrote its BUF0 last. -/
structure Layers where
  lut      : Table Nat
  pal      : Table Nat
  palNext  : List (Nat × List Nat)
  coef     : Table Int
  recipe   : Table Byte
  load     : Option TableLoad
  reading  : Table (Option Shown)
  bufSeq   : Table Nat
deriving DecidableEq, Repr

/-- The safety island (17 R411 to R431): pin FS_FAULT_N low, the island time of its assertion, the end of a test pulse,
the heartbeat with the time of its last edge, the time at which the next self-test is due, its copy of KEY_ALARM_MASK, the conditions that
keep held causes, and THERM_TRIP_N. -/
structure Fs where
  faultLow    : Bool
  assertedAt  : Nat
  testEnd     : Option Nat
  hbLevel     : Bool
  hbRun       : Bool
  hbAt        : Nat
  selftestAt  : Nat
  alarmCopy   : Nat
  expiredLast : Bool
  rectBad     : List Nat
  thermTrip   : Bool
deriving DecidableEq, Repr

/-- The supervisor as the bus sees it (15 R362 to R382): released or in reset, the watchdog with the island time from which it
counts and whether 75 % of it have been reported, the semaphore owners, the last access fault it raised (address, store), and
the corrected TCM errors since the last event. -/
structure Sup where
  released  : Bool
  wdtOn     : Bool
  wdtAt     : Nat
  wdtWarned : Bool
  sems      : Table Nat
  lastFault : Option (Nat × Bool)
  eccSince  : Nat
deriving DecidableEq, Repr

/-- A Nectar block waiting or in a unit: its header as the parser or the feeder took it (06 R130), its bytes in all, where they lie in
HBM (address and length of each piece: the input ring for a block of the host, the clip for one of the feeder; 06 R145, R162, 12 R301),
and whether the clip feeder queued it. -/
structure NecBlock where
  hdr    : List Byte
  size   : Nat
  spans  : List (Nat × Nat)
  feeder : Bool
deriving DecidableEq, Repr

/-- A rotation buffer as NEC_LAYERn_STATE shows it: 0 free, 1 filling, 2 ready, 3 in use by the Deck; with its FSN. -/
structure NecBuf where
  st  : Nat
  fsn : Nat
deriving DecidableEq, Repr

/-- The rotation state of a layer (06 R144 to R150): whether any FSN was opened, whether one is open, the open or last
opened FSN with its buffer and the number of its contexts, those landed in it, the three buffers, the EPOCH and the deferred blocks. -/
structure NecLayer where
  opened   : Bool
  isOpen   : Bool
  fsn      : Nat
  buf      : Nat
  count    : Nat
  landed   : List Nat
  b0       : NecBuf
  b1       : NecBuf
  b2       : NecBuf
  epoch    : Nat
  deferred : List NecBlock
deriving DecidableEq, Repr

/-- What a decode unit runs: a block of a layer, or a job segment with its ring index and descriptor. -/
inductive UnitWork where
  | idle
  | block (layer : Nat) (b : NecBlock)
  | seg (index : Nat) (desc : List Byte)
deriving DecidableEq, Repr

/-- A decode unit: its work and the local time from which its throttle pause has elapsed. -/
structure NecUnit where
  work   : UnitWork
  freeAt : Nat
deriving DecidableEq, Repr

/-- The Nectar codec (06 R144 to R164): layers, blocks in the input ring in order of arrival, units, the record cache
(most recently used first, with a modified mark), descriptors taken, the last row of a segmented job, errors since the latch
point, and the clip feeder; `playReq` is a start that waits for the wipe of HBM (12 R317). -/
structure Nectar where
  layers    : Table NecLayer
  ring      : List NecBlock
  units     : Table NecUnit
  cache     : List (Nat × List Byte × Bool)
  jqTaken   : Nat
  resRow    : Table (List (List Nat))
  frameErrs : Nat
  playReq   : Bool
  playClip  : Nat
  playNext  : Nat
  playHold  : Nat
  playStop  : Bool
  playMask  : Nat
deriving DecidableEq, Repr

/-- A hogel-buffer slot (07 R168): the hogel, its 16-bit values once the cell has written them, its uniformity fetch once
complete (`some none` after an uncorrectable read; otherwise coefficient record and base gain), and whether the hogel is to
be sent as RAY_HOLD. -/
structure Slot where
  line : Nat
  u    : Nat
  vals : Option (List Nat)
  uni  : Option (Option (List Byte × Nat))
  hold : Bool
deriving DecidableEq, Repr

/-- A CRC rectangle as it is used in a frame (07 R184, R185): its words X, Y, VIEW, CFG, EXP and EXP_SEQ. -/
structure Rect where
  x    : Nat
  y    : Nat
  view : Nat
  cfg  : Nat
  exp  : Nat
  seq  : Nat
deriving DecidableEq, Repr

/-- The composition tap of a hogel (04 R99): whether it was Keystone-covered, its horizontal views, and its values. -/
structure Tap where
  key  : Bool
  h    : Nat
  vals : List Nat
deriving DecidableEq, Repr

/-- The port stage (07 R167 to R190): slots per pier, the next hogel to get a job and to be handed over per pier (line × 64 + u),
hogels held for uniformity, post-blend sets with standby copies and loader, the group the spare lane serves from the next
latch point, the groups without a lane now and from the next latch point, the taps of the frame in progress, the rectangles
in use, the frame that ended (its rectangles to be evaluated, its taps and context), the references with those to be cleared
once compared, and the frame CRCs and echoes. -/
structure Port where
  slots     : Table (List Slot)
  nextU     : Table Nat
  doneU     : Table Nat
  uniLate   : Table Nat
  plut      : Table Nat
  plutNext  : List (Nat × List Nat)
  load      : Option TableLoad
  spareNext : Option Nat
  noLane    : List Nat
  noLaneNext : List Nat
  tap       : Table (Option Tap)
  rects     : Table Rect
  rectsEn   : Bool
  rectRef   : Table (Option Nat)
  clearRefs : List Nat
  prevRects : List (Nat × Rect)
  prevTap   : Table (Option Tap)
  prevFrame : Nat
  prevUnder : Bool
  prevShed  : Bool
  prevSeq   : Nat
  prevState : DevState
  crcRun    : Table (Option Nat)
  crcPrev   : Table Nat
  keyRun    : Table Bool
  keyNow    : Table Bool
  keyFrame  : Table Bool
  failRun   : Table Nat
  echoFlt   : Table Bool
deriving DecidableEq, Repr

/-- The Keystone store and its activation (07 R171 to R177, 17 R418, R419): contents, pins, debounce, registered
request, pages failing at the next latch point, words found uncorrectable in the frame, the active set with its hardware part, and
the locked-set check. -/
structure Key where
  store    : Table Byte
  palette  : Table Nat
  pinA     : Bool
  pinB     : Bool
  since    : Nat
  deb      : Bool
  reqAt    : Nat
  failNext : Nat
  eccBad   : List Nat
  active   : Nat
  hw       : Nat
  reqPrev  : Bool
  codes    : Table Nat
  lockCrc  : List Nat
deriving DecidableEq, Repr

/-- The fuses as the majority of their copies reads (16 R391, R400): TEST_DONE, RETIRED, the revocation bits, the rollback
count and the root-key hashes. -/
structure Fuses where
  testDone : Bool
  retired  : Bool
  revoked  : Nat
  rollback : Nat
  hash0    : Option (List Byte)
  hash1    : Option (List Byte)
deriving DecidableEq, Repr

/-- The life-cycle record (15 R368, 16 R392, R400, R401): SERVICE, the pending operation (0 none) with its argument and, for
PROGRAM_KEYS, the hashes to be fused, PREFERRED, TRIAL, TRIES and the CONFIRMED bits. -/
structure LcRec where
  service   : Bool
  op        : Nat
  arg       : Nat
  hashes    : List (List Byte)
  preferred : Nat
  trial     : Bool
  tries     : Nat
  confirmed : Nat
deriving DecidableEq, Repr

/-- Start-up and life cycle (16): the state in force, fuses, life-cycle record and flash; whether phases 1 to 4 are running, in
which start mode (R393), whether RESCUE_NEXT chose it; the events to be
posted when the event unit starts (R410); the header of the running image, RESCUE or RETIRED firmware, HBM_GO waiting for the
lock of the ADPLL, the island time at which the start began, the time at which an accepted LC_CMD resets, the slot being programmed
and those partly written, and what start-up found outside the device. -/
structure Boot where
  lc        : LcState
  fuses     : Fuses
  lcRec     : LcRec
  flash     : Table Byte
  loading   : Bool
  mode      : Nat
  byNext    : Bool
  events    : List (Nat × Nat × List Byte)
  header    : List Byte
  rescue    : Bool
  hbmWait   : Bool
  startAt   : Nat
  lcResetAt : Option Nat
  prog      : Option Nat
  partly    : Nat
  env       : BootIn
deriving DecidableEq, Repr

/-- A packet of a pier (08 R194) in a queue of Viaduct (09 R214, R217): finish tag, SEQ once assigned, number of
transmissions, the time it entered its queue, whether it was held (R226), and for RAY the line, hogel, whether it is the
hogel's last packet and whether the hogel carries a Keystone index; for a CONFIG the number of the DECLARE that it follows (08 R203). -/
structure QPkt where
  ptype   : Nat
  info    : Nat
  payload : List Byte
  tag     : Nat
  seq     : Option Nat
  tries   : Nat
  enq8    : Nat
  held    : Bool
  line    : Nat
  u       : Nat
  last    : Bool
  key     : Bool
  gen     : Nat
deriving DecidableEq, Repr

/-- The queues of a pier (09 R214 to R219, 08 R198): the class queues, packets a source offers while its queue is full, the
tags, the packet in transmission with its end, the last EOP, the resend store, the next SEQ, the blocks of the packet in transmission
and what follows it at once, and the last 58 bits that left the scrambler (R192). -/
structure VPier where
  queue   : Table (List QPkt)
  offer   : List (Nat × QPkt)
  flast   : Table Nat
  v       : Nat
  tx      : Option (Nat × QPkt)
  txEnd8  : Nat
  eop8    : Nat
  unacked : List (Nat × QPkt)
  seq     : Nat
  sending : List Block
  scr     : Nat
deriving DecidableEq, Repr

/-- The gating of a pier group (09 R221 to R231, R455): GATE_EN in effect, a change that waits (with the local time from which a
cycle start takes it), a bank that failed its
validation, the place in the expanded entry sequence with the local time at which the entry began, the next cycle start of
a bank with FRAME_SYNC = 0 (its index n and C(n)), the accepted swap (n and C(n) of its start, none for the next frame start; LATE_BASE) with
the local time of its acceptance, and a realignment
to be reported. -/
structure VGroup where
  on      : Bool
  wantOn  : Option Bool
  failed  : Bool
  pos     : Nat
  begun8  : Nat
  nextC   : Option (Int × Nat)
  swap    : Option (Option (Int × Nat) × Bool)
  swapAt8 : Nat
  realign : Option Int
  wantAt8 : Nat
deriving DecidableEq, Repr

/-- Viaduct (09): piers, groups, a realignment of the frame-synchronous lists, a forward step since the last frame start,
hogels expired per pier in the frame with the severity posted, the sampled queue and its extremes. -/
structure Vdt where
  piers   : Table VPier
  groups  : Table VGroup
  realign : Option Int
  fwdStep : Option Int
  posted  : Table Nat
  keyExp  : Bool
  selPier : Nat
  selCls  : Nat
  depth   : Nat
  delay   : Nat
  sent    : Nat
  held    : Nat
  expired : Nat
deriving DecidableEq, Repr

/-- A packet of a reverse burst as it waits for the TURN that ends the burst (08 R197, R200). -/
inductive RevPkt where
  /-- FRAME_ACK: frame, frame CRC, CTRL_ACK, hogels kept, HOGEL_ERR and FLIP_MISSED. -/
  | ack (frame crc ctrlAck kept : Nat) (hogelErr missed : Bool)
  /-- ECHO_REP: ID, RX − TX in taps, RES in 1/16 UI. -/
  | echo (id rtt res : Nat)
  /-- NAK: the SEQ expected. -/
  | nak (seq : Nat)
  /-- TELEM DECLARE. -/
  | declare (d : Declared)
  /-- TELEM TEST_RESULT: bit errors and bits checked. -/
  | result (errors bits : Nat)
  /-- TELEM of a tile-maker kind. -/
  | tile (kind : Nat) (payload : List Byte)
  /-- TELEM STATUS or READ_DATA: no rule gives it a further effect in the device. -/
  | plain (kind : Nat) (payload : List Byte)
deriving DecidableEq, Repr

/-- A reverse window in progress (08 R199): GRANT, the ID of the ECHO_REQ sent before it, the latest local time at which
the tile's TURN may end, the local time at which the window ends, the burst so far, and whether the TURN has come. -/
structure Win where
  grant   : Nat
  echo    : Option Nat
  latest8 : Nat
  end8    : Nat
  burst   : List RevPkt
  turned  : Bool
deriving DecidableEq, Repr

/-- The test of a pier (08 R211): its direction, MODE and blocks, `running` once CTRL TEST has been acknowledged, and the local time from
which its window may open. -/
structure PierTest where
  reverse : Bool
  mode    : Nat
  blocks  : Nat
  running : Bool
  from8   : Nat
deriving DecidableEq, Repr

/-- A pier link (08 R197 to R211, R453, R454): Kp in force and those that wait (EFF, value), whether a CONFIG has been
acknowledged since the last DECLARE, the reverse window, the windows without a valid burst, whether a window was used in the
frame or period, Cp as the sum and number of the samples averaged (a sample is RX − TX − RES in taps, so Cp = sum ÷ 2n taps),
the samples, the rejections in succession, the average that waits, the echo ID, frames since the last echo, echoes of the
discovery, the first frame carried while ACTIVE, the WIDTH last sent, whether a FLIP is to be emitted and is late, the
frame whose FRAME_ACK has been compared, the time of the last DISCOVER, the test, the number of DECLAREs accepted, the period of
200,000 ns in progress of a stopped Deck (R454), and the local time since which the line has been forward with the FLIP of the frame gone
(14 R351). -/
structure PierSt where
  kp        : Nat
  kpNext    : List (Nat × Nat)
  cfgAcked  : Bool
  win       : Option Win
  missRun   : Nat
  usedWin   : Bool
  cpSum     : Int
  cpN       : Nat
  samples   : List Int
  rejRun    : Nat
  cpNext    : Option (Int × Nat)
  echoId    : Nat
  echoSince : Nat
  discEcho  : Nat
  firstF    : Nat
  widthSent : Nat
  flipDue   : Bool
  flipLate  : Bool
  ackDone   : Option Nat
  discoverAt : Nat
  test      : Option PierTest
  gen       : Nat
  period    : Option Nat
  fwdAt     : Nat
deriving DecidableEq, Repr

/-- A store to HBM that waits for the wipe (12 R317): source, address and bytes. -/
structure HbmReq where
  src  : Nat
  addr : Nat
  data : List Byte
deriving DecidableEq, Repr

/-- The HBM controller (12 R302 to R317): the levels by which a waiting request of a source has been raised, the stores that wait for
the wipe in order of arrival, the island time of the last request, the open row of each bank (key 32 × pseudo-channel + bank, R304),
refresh commands behind and the next bank per pseudo-channel, the trigger that makes a pseudo-channel due for retraining and its failed
attempts, the time, Tj and corrected errors of its last training and second, the last pause, corrections since the last event, the place
of the scrubber with the bursts that needed correction in this pass and the one before, the start of self-refresh, and the gating of
the PHY clock (R307). -/
structure Hbm where
  aged      : Table Nat
  waiting   : List HbmReq
  lastReq   : Nat
  rows      : Table (Option Nat)
  behind    : Table Nat
  refBank   : Table Nat
  due       : Table (Option Nat)
  fails     : Table Nat
  lastTrain : Table Nat
  lastTj    : Table Int
  corrSec   : Table (Nat × Nat)
  pauseAt   : Nat
  pauseF    : Option Nat
  eccSince  : Table Nat
  scrubPos  : Nat
  corrNow   : List Nat
  corrLast  : List Nat
  srAt      : Nat
  phyOff    : Bool
deriving DecidableEq, Repr

/-- The thermal block (14 R335 to R344): thermal level, the times of its last change and of its last step up, the last samples
10 ms apart with the evaluations in succession above RISE and the count of fast samples, the time since which Tj lies below
every limit, the start of the wait for power-down, the limits reached, the sensor failure and the time of the last sample. -/
structure Thm where
  lt       : Nat
  ltAt     : Nat
  upAt     : Option Nat
  hist     : List Int
  riseRun  : Nat
  fastN    : Nat
  calmAt   : Nat
  tripAt   : Option Nat
  warn     : Bool
  throttle : Bool
  critical : Bool
  sensor   : Nat
  sampleAt : Option Nat
deriving DecidableEq, Repr

/-- A field record (14 R346): SEQ, the corrections by quantity, Tm, NT, the lifetime run count, and the band codes COARSE and MEDIUM found
nearest to each anchor, with the Tj at which they were found. -/
structure FieldRec where
  seq   : Nat
  d     : Table Int
  tm    : Int
  nt    : Nat
  runs  : Nat
  bands : List (Nat × Nat × Int)
deriving DecidableEq, Repr

/-- Calibration (14 R345 to R353): the two field slots, the corrections in force, the measurements of the run (first and second,
by quantity), the trigger and start of the run, the start of its interval, the piers measured in the pass and the frames in which each
might have been, those whose measurement a reverse window has cut in this frame, the piers rejected, and the record to be stored. -/
structure Cal where
  slot0   : Option FieldRec
  slot1   : Option FieldRec
  d       : Table Int
  m1      : Table (Option Int)
  m2      : Table (Option Int)
  due     : Option Nat
  trigger : Nat
  startAt : Option Nat
  lastAt  : Option Nat
  gapAt   : Nat
  runTj   : Int
  done    : List Nat
  tries   : Table Nat
  cut     : List Nat
  reject  : List Nat
  store   : Option FieldRec
  quadBad : Bool
  lastOk  : Bool
deriving DecidableEq, Repr

/-- Power (14 R355 to R359): the rails that are on, the rail being brought up with its time, the attempts of stage 4, the stages
that stay off, the time of a retry, the last move of AVS and of its event, and the PMBus transaction in progress. -/
structure Pwr where
  on      : List Nat
  wait    : Option (Nat × Nat)
  tries4  : Nat
  stageOff : List Nat
  retryAt : Option Nat
  down    : Bool
  avsAt   : Nat
  pmb     : Option (Nat × Nat × Bool × Nat)
deriving DecidableEq, Repr

/-- A descriptor of the blitter in progress (13 R326 to R331): its bytes, index, RESULT, pixels written, whether a latch point has
passed, whether it waits, whether its wait is over, and whether it has nothing left to write. -/
structure BltRun where
  desc    : List Byte
  index   : Nat
  result  : Nat
  pos     : Nat
  crossed : Bool
  waiting : Bool
  go      : Bool
  checked : Bool
  done    : Bool
deriving DecidableEq, Repr

/-- The blitter (13): the descriptor in progress and the local time at which the pause after a burst ends. -/
structure Blt where
  cur     : Option BltRun
  pauseTo : Nat
deriving DecidableEq, Repr

/-- A frame of a Moror port (11 R276) that waits for credit or for its acknowledgement: class, FIRST, LAST, SEQ, payload, and
the island time at which it was last sent. -/
structure MrFrame where
  cls     : Nat
  first   : Bool
  last    : Bool
  seq     : Nat
  payload : List Byte
  sentAt  : Nat
deriving DecidableEq, Repr

/-- A loop test of a Moror port (11 R275): LOOP, PATTERN, whether the loop has been entered, and the island time of its start. -/
structure MrTest where
  loop    : Nat
  pattern : Nat
  running : Bool
  start   : Nat
deriving DecidableEq, Repr

/-- A Moror port (11 R264 to R293): the island time of the last change of state, the lanes on which the partner's TS of the state has
been seen, the partner's ACK, the FOM of the lanes for each preset measured, the two EQ_DONE, the stored preset (MRAM), the partner's role, the
role that AUTO declares, SEQ of the next frame sent and expected, the last NAK with its time, unacknowledged frames and the
replays without progress, frames that wait, LIMIT and USED by class, credits received and announced by class, the
time of the last transmission, M2 requested and its EIE sent, the SCENE block that is open, the times of the SCENE and RELAY drops of
the last second, the test, a granted far-end loop, REG requests that wait behind a response, whether a relayed frame was sent
last, the island time since which the port is out of ACTIVE, the lane of the next block of its stream (R268), and the TIME frames
that await processing (R279). -/
structure MrPort where
  since     : Nat
  seen      : Nat
  partner   : Bool
  foms      : List (List Nat)
  eqDone    : Bool
  pEqDone   : Bool
  preset    : Option Nat
  pRole     : Option Nat
  declare   : Nat
  txSeq     : Nat
  rxSeq     : Nat
  nak       : Option (Nat × Nat)
  replay    : List MrFrame
  runs      : Nat
  wait      : List MrFrame
  limit     : Table Nat
  used      : Table Nat
  got       : Table Nat
  announced : Table Nat
  idleAt    : Nat
  m2Want    : Bool
  m2Sent    : Bool
  scene     : Option (List Byte)
  dropScene : List Nat
  dropRelay : List Nat
  test      : Option MrTest
  granted   : Bool
  regQ      : List (List Byte)
  relayLast : Bool
  outAt     : Nat
  lane      : Nat
  timeWait  : Nat
deriving DecidableEq, Repr

/-- The instructions of the test access port (18 R445). -/
inductive TapInstr where
  | bypass | idcode | sample | extest | extestPulse | extestTrain | clamp | highz
deriving DecidableEq, Repr

/-- The test access port (18 R445): its instruction, and whether PORST_N is low. -/
structure TestPort where
  ir       : TapInstr
  porstLow : Bool
deriving DecidableEq, Repr

/-- The state of the device. -/
structure State where
  /-- The commands that are waiting, first in, first out. -/
  pending : List Instr
  /-- The registers under their addresses; a word not listed holds its reset value. -/
  regs    : Table Word
  /-- The active copies of the RWS words (02 R47). -/
  act     : Table Word
  /-- The dirty shadow words with their writers (02 R37). -/
  dirty   : Table (Option Writer)
  /-- DECK_COMMIT_TIME of the HOST writer; the supervisor's bank is the register (02 R45). -/
  hostT   : Table Nat
  /-- The captures of wide values: reader and address to word (02 R56). -/
  caps    : Table (Option Word)
  /-- The model's own counter for free values (log 3). -/
  free    : Nat
  /-- What left the device, newest first (log 4). -/
  out     : List Out
  tcm     : Table Byte
  mram    : Table Byte
  hbm     : Table Byte
  deck    : Deck
  nt      : NtUnit
  clk     : Clk
  evt     : Evt
  sup     : Sup
  layers  : Layers
  combs   : Table Comb
  cells   : Table Cell
  boot    : Boot
  fs      : Fs
  nec     : Nectar
  port    : Port
  key     : Key
  vdt     : Vdt
  piers   : Table PierSt
  hc      : Hbm
  thm     : Thm
  cal     : Cal
  pwr     : Pwr
  blt     : Blt
  mr      : Table MrPort
  tap     : TestPort
deriving DecidableEq, Repr

/-! Reset. -/

/-- Comb `c` after reset: its LFSR holds the seed of R121 for the reset value of COMB_AUDIT_SEED. -/
def resetComb (c : Nat) : Comb where
  queue      := []
  lfsr       := 0x13579BDF ^^^ c
  reseed     := false
  auditSel   := []
  audit      := none
  fetchLine  := none
  resident   := []
  failNext   := none
  suspects   := []
  suspectAt  := none
  progErrs   := []
  lutFailed  := []
  eccSince   := 0
  peak       := 0
  busyNow    := 0
  abandoned  := 0
  overflowed := false
  forced     := false
  announced  := []

/-- The Deck after reset: HOLD (16 R395), no frame, no commit. -/
def resetDeck : Deck where
  dev        := .hold
  req        := none
  hbmCause   := false
  thmCause   := false
  running    := false
  frameNum   := 0
  started    := false
  phase      := .idle
  k          := 0
  nextK      := none
  start8     := 0
  lines      := 0
  linePeriod := 0
  latchNT    := 0
  latch8     := 0
  flipOffset := 0
  flipNT     := 0
  flip8      := none
  flipDone   := false
  rephased   := false
  repeatNext := false
  timeStep   := false
  lateFlip   := false
  lastStep   := 0
  startLate  := false
  flipLateEv := false
  lastLatch  := none
  repeatF    := false
  latchLate  := false
  prevLatch  := 0
  retimed    := false
  underrun   := []
  underTotal := 0
  lateTotal  := 0
  rayHold    := []
  shedQuiet  := 0
  shedList   := []
  holdL      := []
  holdG      := []
  commits    := []

/-- The time unit after reset: NT 0 (16 R406), nothing armed and nothing queued. -/
def resetNt : NtUnit where
  now8      := 0
  isl8      := 0
  sec       := 0
  half      := 0
  adjLo     := 0
  set0      := 0
  set1      := 0
  slew      := none
  held      := none
  freq      := 0
  freqHeld  := none
  armed     := []
  ppsHigh   := false
  ppsFallAt := 0
  txqA      := []
  txqB      := []
  txqDropA  := []
  txqDropB  := []
  rxRing    := []
  gridTotal := 0
  gridMark  := []
  gateStep  := none
  islFrac   := 0
  freqPhi   := 0
  slewPhi   := 0

/-- Fuses without any programmed (log 5), and the record that R400 writes where there is none. -/
def resetBoot : Boot where
  lc        := .test
  fuses     := { testDone := false, retired := false, revoked := 0, rollback := 0, hash0 := none, hash1 := none }
  lcRec     := { service := false, op := 0, arg := 0, hashes := [], preferred := 0, trial := false, tries := 0, confirmed := 0 }
  flash     := []
  loading   := false
  mode      := 0
  byNext    := false
  events    := []
  header    := []
  rescue    := false
  hbmWait   := false
  startAt   := 0
  lcResetAt := none
  prog      := none
  partly    := 0
  env       := { mode := 0, refclk := false, mra := false, fuseFails := false, flashOk := false, timeouts := 0 }

/-- The port stage after reset. -/
def resetPort : Port where
  slots      := []
  nextU      := []
  doneU      := []
  uniLate    := []
  plut       := []
  plutNext   := []
  load       := none
  spareNext  := none
  noLane     := []
  noLaneNext := []
  tap        := []
  rects      := []
  rectsEn    := false
  rectRef    := []
  clearRefs  := []
  prevRects  := []
  prevTap    := []
  prevFrame  := 0
  prevUnder  := false
  prevShed   := false
  prevSeq    := 0
  prevState  := .hold
  crcRun     := []
  crcPrev    := []
  keyRun     := []
  keyNow     := []
  keyFrame   := []
  failRun    := []
  echoFlt    := []

/-- The Keystone block after reset: both pins are pulled down and wait for the debounce time (R174). -/
def resetKey : Key where
  store    := []
  palette  := []
  pinA     := false
  pinB     := false
  since    := 0
  deb      := true
  reqAt    := 0
  failNext := 0
  eccBad   := []
  active   := 0
  hw       := 0
  reqPrev  := false
  codes    := []
  lockCrc  := []

/-- The machine right after reset, before the first phase of start-up (16 R394, R398): every register at its reset value, with
SYS_RESET_CAUSE naming the power-on reset; the state HOLD (16 R395); FS_FAULT_N asserted (16 R396, 17 R423); the rails of
stage 1 on (14 R355); every memory cleared (01 R20); MRAM, fuses and flash without contents (logs 5, 9). -/
def State.reset : State where
  pending := []
  regs    := [(0x10000028, 1)]
  act     := []
  dirty   := []
  hostT   := []
  caps    := []
  free    := 0
  out     := []
  tcm     := []
  mram    := []
  hbm     := []
  deck    := resetDeck
  nt      := resetNt
  clk     := { state := .off, ref := false, refclkOk := false, mraOk := false, refclkSince := 0, mraSince := 0, holdSince := 0,
               frac := 0, phaseLeft := 0, phasePhi := 0, quietAt := 0, found := none }
  evt     := { eseq := 0, supQ := [], hostQ := [], supLost := false, hostLost := false, tokens := 64, tokenAt := 0,
               suppressed := 0, lastPost := [] }
  sup     := { released := false, wdtOn := false, wdtAt := 0, wdtWarned := false, sems := [], lastFault := none, eccSince := 0 }
  layers  := { lut := [], pal := [], palNext := [], coef := [], recipe := [], load := none, reading := [], bufSeq := [] }
  combs   := [(0, resetComb 0), (1, resetComb 1), (2, resetComb 2), (3, resetComb 3), (4, resetComb 4), (5, resetComb 5),
              (6, resetComb 6), (7, resetComb 7)]
  cells   := []
  boot    := resetBoot
  fs      := { faultLow := true, assertedAt := 0, testEnd := none, hbLevel := false, hbRun := false, hbAt := 0, selftestAt := 0,
               alarmCopy := 0, expiredLast := false, rectBad := [], thermTrip := false }
  nec     := { layers := [], ring := [], units := [], cache := [], jqTaken := 0, resRow := [], frameErrs := 0, playReq := false,
               playClip := 0, playNext := 0, playHold := 0, playStop := false, playMask := 0 }
  port    := resetPort
  key     := resetKey
  vdt     := { piers := [], groups := [], realign := none, fwdStep := none, posted := [], keyExp := false, selPier := 0,
               selCls := 0, depth := 0, delay := 0, sent := 0, held := 0, expired := 0 }
  piers   := []
  hc      := { aged := [], waiting := [], lastReq := 0, rows := [], behind := [], refBank := [], due := [], fails := [], lastTrain := [], lastTj := [], corrSec := [],
               pauseAt := 0, pauseF := none, eccSince := [], scrubPos := 0, corrNow := [], corrLast := [], srAt := 0,
               phyOff := false }
  thm     := { lt := 0, ltAt := 0, upAt := none, hist := [], riseRun := 0, fastN := 0, calmAt := 0, tripAt := none, warn := false,
               throttle := false, critical := false, sensor := 0, sampleAt := none }
  cal     := { slot0 := none, slot1 := none, d := [], m1 := [], m2 := [], due := none, trigger := 0, startAt := none,
               lastAt := none, gapAt := 0, runTj := 0, done := [], tries := [], cut := [], reject := [], store := none, quadBad := false,
               lastOk := false }
  pwr     := { on := [0, 1], wait := none, tries4 := 0, stageOff := [], retryAt := none, down := false, avsAt := 0, pmb := none }
  blt     := { cur := none, pauseTo := 0 }
  mr      := []
  tap     := { ir := .idcode, porstLow := false }

end Sys2Proof.Machine
end

