-- ==== Sys2Proof/Machine/Ops.lean ====
section
/-! DEFINITION. The operations every command is built from: registers and their fields, active copies, the memories,
the clocks and network time, free values, and what leaves the device. -/

namespace Sys2Proof.Machine

/-! Registers. -/

/-- The field `f` of word `w`. -/
def fieldOf (w : Word) (f : Field) : Nat := w.toNat / 2 ^ f.lo % 2 ^ f.len

/-- Word `w` with its field `f` set to the low bits of `v`. -/
def putField (w : Word) (f : Field) (v : Nat) : Word :=
  word (w.toNat % 2 ^ f.lo + (v % 2 ^ f.len) * 2 ^ f.lo + w.toNat / 2 ^ (f.lo + f.len) * 2 ^ (f.lo + f.len))

/-- `w` with the bits of `mask` taken from `v`. -/
def mergeBits (w v : Word) (mask : Nat) : Word := (w &&& ~~~(word mask)) ||| (v &&& word mask)

/-- The register word at an address. -/
def State.rd (s : State) (a : Nat) : Word := s.regs.get resetWord a

/-- The register word at an address replaced. -/
def State.wr (s : State) (a : Nat) (v : Word) : State := { s with regs := s.regs.set resetWord a v }

/-- A register field. -/
def State.get (s : State) (f : Field) : Nat := fieldOf (s.rd f.addr) f

/-- A register field replaced. -/
def State.set (s : State) (f : Field) (v : Nat) : State := s.wr f.addr (putField (s.rd f.addr) f v)

/-- A register field as a flag. -/
def State.flag (s : State) (f : Field) : Bool := s.get f != 0

/-- The active copy of the RWS word at an address (02 R47). -/
def State.actW (s : State) (a : Nat) : Word := s.act.get resetWord a

/-- A field of an active copy. -/
def State.ac (s : State) (f : Field) : Nat := fieldOf (s.actW f.addr) f

/-- A field counted up by `n`, saturating at its width. -/
def State.bump (s : State) (f : Field) (n : Nat := 1) : State := s.set f (min (s.get f + n) (2 ^ f.len - 1))

/-- A field counted up by one, wrapping at its width. -/
def State.count (s : State) (f : Field) : State := s.set f (s.get f + 1)

/-- `n` as 0 or 1. -/
def ofBool (b : Bool) : Nat := if b then 1 else 0

/-! Free values and outputs. -/

/-- A fresh free value of `w` bits, and the state with the counter advanced (log 3). -/
def State.fresh (s : State) (w : Nat) : Nat × State :=
  ((Config.freeValue s.free).toNat % 2 ^ w, { s with free := s.free + 1 })

/-- The device emits `o` (log 4). -/
def State.emit (s : State) (o : Out) : State := { s with out := o :: s.out }

/-! Time. -/

/-- 2^48, the modulus of NT48. -/
def m48 : Nat := 2 ^ 48

/-- NT48 = (SEC × 10^9 + NS) mod 2^48 (10 R237). -/
def State.nt48 (s : State) : Nat := (s.nt.sec * 1000000000 + s.nt.half / 2) % m48

/-- The signed 48-bit difference `a − b` (10 R243). -/
def diff48 (a b : Nat) : Int := signed 48 (a % m48 + m48 - b % m48)

/-- Has the scheduled action with target `t` come due (10 R243)? -/
def State.due (s : State) (t : Nat) : Bool := decide (0 ≤ diff48 s.nt48 t)

/-- NT48 moved by a signed number of nanoseconds. -/
def addNs (t : Nat) (d : Int) : Nat := unsignedOf 48 ((t : Int) + d)

/-- The local count in whole nanoseconds. -/
def State.nowNs (s : State) : Nat := s.nt.now8 / 8

/-- The count of the safety island's clock in 1/8 ns. -/
def State.isl (s : State) : Nat := s.nt.isl8

/-! Memories. -/

/-- The bytes of a memory that nothing has written are 0 (01 R20, 12 R317; for MRAM log 9). -/
def zeroByte : Nat → Byte := fun _ => 0

/-- A memory in its canonical form: addresses rise strictly, and no entry holds what an unlisted address reads as. -/
def Memory.wf (m : Table Byte) : Bool := Table.wf zeroByte m

/-- `n` bytes of a memory from address `a`. -/
def memRead (m : Table Byte) (a n : Nat) : List Byte := m.getMany zeroByte a n

/-- The memory with bytes written from address `a` on. -/
def memWrite (m : Table Byte) (a : Nat) (bs : List Byte) : Table Byte := m.setMany zeroByte a bs

/-- The pseudo-channel that holds HBM byte address `a` (12 R298, R299). -/
def State.hbmPc (s : State) (a : Nat) : Nat :=
  let f := fun k => ofBool (xor (bit a (8 + k)) (parity 22 (bits a 12 22 &&& s.get (Reg.HBM_MAP_PC.MASK k))))
  f 0 + 2 * f 1 + 4 * f 2 + 8 * f 3

/-- The bank of a pseudo-channel that holds HBM byte address `a` (12 R298, R299). -/
def State.hbmBank (s : State) (a : Nat) : Nat :=
  let f := fun k => ofBool (xor (bit a (14 + k)) (parity 15 (bits a 19 15 &&& s.get (Reg.HBM_MAP_BK.MASK k))))
  f 0 + 2 * f 1 + 4 * f 2 + 8 * f 3 + 16 * f 4

/-- Has the pseudo-channel of HBM address `a` failed (12 R314)? -/
def State.hbmFailed (s : State) (a : Nat) : Bool := bit (s.get Reg.HBM_STATUS.FAILED) (s.hbmPc a)

/-- HBM holds 2^34 bytes (12 R297). -/
def hbmSize : Nat := 2 ^ 34

/-- Can `n` bytes from `a` on be read without an uncorrectable error? -/
def State.hbmOk (s : State) (a n : Nat) : Bool :=
  s.get Reg.HBM_STATUS.FAILED == 0 ||
    (List.range (n / 256 + 2)).all fun i =>
      decide (a + n ≤ (a / 256 + i) * 256) || !(s.hbmFailed ((a / 256 + i) * 256))

/-- `n` bytes of HBM from `a` on; none when a pseudo-channel they touch has failed (12 R314). -/
def State.hbmRead (s : State) (a n : Nat) : Option (List Byte) :=
  if s.hbmOk a n then some (memRead s.hbm a n) else none

/-- HBM with one byte written; a failed pseudo-channel discards it (12 R314). -/
def State.hbmPut (s : State) (a : Nat) (b : Byte) : State :=
  if s.hbmFailed a then s else { s with hbm := s.hbm.set zeroByte a b }

/-- HBM with bytes written from `a` on. -/
def State.hbmWrite (s : State) (a : Nat) : List Byte → State
  | [] => s
  | b :: bs => State.hbmWrite (s.hbmPut (a % hbmSize) b) (a + 1) bs

/-- Does `a` to `a + n - 1` meet a reserved region, which any KIND but 0 makes (12 R301)? -/
def State.inReserved (s : State) (a n : Nat) : Bool :=
  (List.range 8).any fun r =>
    let b := s.get (Reg.HBM_RSV_BASE.ADDR r) * 2 ^ 20
    let z := s.get (Reg.HBM_RSV_SIZE.MIB r) * 2 ^ 20
    s.get (Reg.HBM_RSV_SIZE.KIND r) != 0 && decide (0 < z) && decide (a < b + z) && decide (b < a + n)

/-! Lists. -/

/-- The first element that satisfies `p`, with its index. -/
def findIdx {α : Type} (p : α → Bool) : List α → Option (Nat × α)
  | [] => none
  | x :: xs => if p x then some (0, x) else (findIdx p xs).map fun e => (e.1 + 1, e.2)

/-- The list with the first element that satisfies `p` removed. -/
def dropFirst {α : Type} (p : α → Bool) : List α → List α
  | [] => []
  | x :: xs => if p x then xs else x :: dropFirst p xs

/-- The list with element `i` replaced. -/
def setAt {α : Type} (l : List α) (i : Nat) (x : α) : List α := l.set i x

/-- Bit numbers 0 to `n - 1` that are set in `m`. -/
def bitsSet (n m : Nat) : List Nat := (List.range n).filter (bit m)

end Sys2Proof.Machine
end

