-- ==== Sys2Proof/Machine/Events.lean ====
section
/-! DEFINITION. The event unit and the fault log (15 R372 to R380): records, payload packing, the two queues, the log
ring of MRAM, and the entry into SAFE_HALT, which the safety island writes into the log. -/

namespace Sys2Proof.Machine

/-! Payload packing (15 R374): a field of up to 8, 16, 32 and more bits takes 1, 2, 4 and 8 bytes. -/

/-- A 1-byte field. -/
def p1 (n : Nat) : List Byte := leBytes 1 n
/-- A 2-byte field. -/
def p2 (n : Nat) : List Byte := leBytes 2 n
/-- A 4-byte field. -/
def p4 (n : Nat) : List Byte := leBytes 4 n
/-- An 8-byte field. -/
def p8 (n : Nat) : List Byte := leBytes 8 n
/-- A count of one byte, saturating. -/
def c1 (n : Nat) : List Byte := leBytes 1 (min n 0xFF)
/-- A count of two bytes, saturating. -/
def c2 (n : Nat) : List Byte := leBytes 2 (min n 0xFFFF)
/-- A count of four bytes, saturating. -/
def c4 (n : Nat) : List Byte := leBytes 4 (min n 0xFFFFFFFF)
/-- A choice field of one byte. -/
def pb (b : Bool) : List Byte := leBytes 1 (ofBool b)

/-- Severities (15 R373). -/
abbrev sevInfo : Nat := 0
abbrev sevWarn : Nat := 1
abbrev sevError : Nat := 2
abbrev sevSafety : Nat := 3

/-- An event record as 32 bytes (15 R373). -/
def EvRec.bytes (r : EvRec) : List Byte :=
  leBytes 2 r.code ++ leBytes 1 (r.sev + 4 * ofBool r.lost) ++ leBytes 1 r.payload.length ++ leBytes 6 r.nt48
    ++ leBytes 2 r.eseq ++ leBytes 4 r.frame ++ (r.payload ++ List.replicate 16 (0 : Byte)).take 16

/-- A queue of capacity `cap` with LOST mark `mark` after a new record (15 R376): what it holds, the mark that the next
record takes, and whether a record was dropped. -/
def enqueueRec (cap : Nat) (q : List EvRec) (mark : Bool) (r : EvRec) : List EvRec × Bool × Bool :=
  if q.length < cap then (q ++ [{ r with lost := mark }], false, false)
  else if r.sev < sevSafety then (q, true, true)
  else if q.any (fun x => decide (x.sev < sevSafety)) then
    (dropFirst (fun x => decide (x.sev < sevSafety)) q ++ [{ r with lost := true }], false, true)
  else (q, true, true)

/-- MRAM offset of the fault log (15 R378). -/
def logBase : Nat := 0x100000

/-- A fault-log entry of 64 bytes (15 R378). -/
def logEntry (rec : List Byte) (logSeq startCount writer lc : Nat) : List Byte :=
  let body := rec ++ leBytes 4 logSeq ++ leBytes 4 startCount ++ leBytes 1 writer ++ leBytes 1 lc
    ++ List.replicate 18 (0 : Byte)
  body ++ leBytes 4 (crc32c body)

/-- An entry written at the head of the log; `writer` is 0 for the event unit and 1 for the safety island. -/
def State.logWrite (s : State) (rec : List Byte) (writer : Nat) : State :=
  let head := s.get Reg.EVT_LOG_STATUS.HEAD
  let seq := (s.get Reg.EVT_LOG_SEQ.LOGSEQ + 1) % 2 ^ 32
  let e := logEntry rec seq (Config.startCount (s.mram.dropRange 0 0x200000 |>.dropRange 0x210000 0x600000)).toNat writer
    s.boot.lc.code
  let s : State := { s with mram := memWrite s.mram (logBase + 64 * head) e }
  let s := s.set Reg.EVT_LOG_STATUS.HEAD ((head + 1) % 16384)
  let s := s.set Reg.EVT_LOG_SEQ.LOGSEQ seq
  s.count Reg.EVT_LOG_COUNT.WRITTEN

/-- Time between two log tokens, in 1/8 ns: 64 per second (15 R379). -/
def tokenTime : Nat := 125000000

/-- The bucket of log tokens filled up to the present time. -/
def State.refill (s : State) : State :=
  let n := (s.isl - s.evt.tokenAt) / tokenTime
  { s with evt := { s.evt with
      tokens := min 64 (s.evt.tokens + n)
      tokenAt := if 64 ≤ s.evt.tokens + n then s.isl else s.evt.tokenAt + n * tokenTime } }

/-- The event unit logs a record if a token is free, and counts it as suppressed otherwise (15 R379). -/
def State.logEvent (s : State) (rec : List Byte) : State :=
  let s := s.refill
  if s.evt.tokens = 0 then
    { s with evt := { s.evt with suppressed := s.evt.suppressed + 1 } }.bump Reg.EVT_LOG_COUNT.SUPPRESSED
  else
    { s with evt := { s.evt with tokens := s.evt.tokens - 1 } }.logWrite rec 0

/-- The record of an event posted now (15 R372, R373). -/
def State.evRec (s : State) (code sev : Nat) (payload : List Byte) : EvRec :=
  ⟨code, sev, false, s.nt48, s.evt.eseq, s.deck.frameNum % 2 ^ 32, payload⟩

/-- Does an event reach the host queue (15 R375)? -/
def State.toHost (s : State) (code sev : Nat) : Bool :=
  s.flag Reg.EVT_CTRL.HOST_EN && (decide (s.get Reg.EVT_CTRL.HOST_MIN ≤ sev) || code == 0x0F02)

/-- The record into the supervisor queue (15 R375, R376). -/
def State.toSupQ (s : State) (r : EvRec) : State :=
  let q := enqueueRec 512 s.evt.supQ s.evt.supLost r
  let s : State := { s with evt := { s.evt with supQ := q.1, supLost := q.2.1 } }
  if q.2.2 then s.bump Reg.EVT_COUNT.SUP_DROPPED else s

/-- The record into the host queue (15 R375, R376). -/
def State.toHostQ (s : State) (r : EvRec) : State :=
  let q := enqueueRec 256 s.evt.hostQ s.evt.hostLost r
  let s : State := { s with evt := { s.evt with hostQ := q.1, hostLost := q.2.1 } }
  if q.2.2 then s.bump Reg.EVT_COUNT.HOST_DROPPED else s

/-- An event posted now (15 R372 to R379). Once SAFE_HALT is entered it reaches only the fault log. -/
def State.postNow (s : State) (code sev : Nat) (payload : List Byte) : State :=
  let r := s.evRec code sev payload
  let s : State := { s with evt := { s.evt with eseq := (s.evt.eseq + 1) % 2 ^ 16 } }
  let s : State := if s.deck.dev = .safeHalt then s else
    let s := s.toSupQ r
    if s.toHost code sev then s.toHostQ r else s
  if sevError ≤ sev ∨ (sev = sevWarn ∧ s.flag Reg.EVT_CTRL.LOG_WARN = true) then
    (if s.deck.dev = .safeHalt then s.logWrite r.bytes 1 else s.logEvent r.bytes)
  else s

/-- An event posted by a block. One that arises before phase 5 of start-up is posted when the event unit starts (16 R410). -/
def State.post (s : State) (code sev : Nat) (payload : List Byte) : State :=
  if s.boot.loading = true ∧ s.deck.dev ≠ .safeHalt then
    { s with boot := { s.boot with events := s.boot.events ++ [(code, sev, payload)] } }
  else s.postNow code sev payload

/-- An event that its rule limits to once in `span` 1/8 ns, remembered under `key`. -/
def State.postOncePer (s : State) (span key code sev : Nat) (payload : List Byte) : State :=
  let last := s.evt.lastPost.get (fun _ => 0) key
  if last ≠ 0 ∧ s.isl < last - 1 + span then s
  else { s with evt := { s.evt with lastPost := s.evt.lastPost.set (fun _ => 0) key (s.isl + 1) } }.post code sev payload

/-- One second in 1/8 ns. -/
def oneSecond : Nat := 8000000000

/-- The times of the last second among `ts`, with the present one. -/
def State.withNow (s : State) (ts : List Nat) : List Nat := s.isl :: ts.filter fun t => decide (s.isl < t + oneSecond)

/-- A change of operating state, with EV_STATE (02 R58). -/
def State.setDev (s : State) (d : DevState) (cause : Nat) : State :=
  if s.deck.dev = d ∨ s.deck.dev = .safeHalt then s
  else
    let old := s.deck.dev.code
    let s : State := { s with deck := { s.deck with dev := d } }
    (s.set Reg.DECK_STATE.CUR d.code).post 0x0209 sevSafety (p1 old ++ p1 d.code ++ p1 cause)

/-- FS_FAULT_N driven low (17 R424). -/
def State.faultAssert (s : State) : State :=
  if s.fs.faultLow then s
  else ({ s with fs := { s.fs with faultLow := true, assertedAt := s.isl } }.set Reg.FS_STATUS.FAULT 1).emit (.pin "FS_FAULT_N" false)

/-! Piers and the pages of Keystone. -/

/-- The scale of page `g`: 1, 2, 4 or 8 (07 R171). -/
def State.pageScale (s : State) (g : Nat) : Nat := 2 ^ s.get (Reg.KEY_PAGE_CFG.SCALE g)

/-- Does page `g` cover a hogel of the tile of pier `p`? -/
def State.pageMeets (s : State) (g p : Nat) : Bool :=
  let x0 := s.get (Reg.KEY_PAGE_POS.X g)
  let y0 := s.get (Reg.KEY_PAGE_POS.Y g)
  let k := s.pageScale g
  decide (Config.tileX p < x0 + k * s.get (Reg.KEY_PAGE_SIZE.W g)) && decide (x0 < Config.tileX p + s.get (Reg.PIER_GEOM.NH p))
    && decide (Config.tileY p < y0 + k * s.get (Reg.KEY_PAGE_SIZE.H g))
    && decide (y0 < Config.tileY p + s.get (Reg.PIER_GEOM.NV p))

/-- Is pier `p` alarm-covered (17 R411)? -/
def State.alarmCovered (s : State) (p : Nat) : Bool :=
  (bitsSet 16 (s.get Reg.KEY_ALARM_MASK.PAGES &&& s.get Reg.KEY_PAGES.PRESENT)).any fun g => s.pageMeets g p

/-- The severity of a pier event: SAFETY for an alarm-covered pier (08 R209). -/
def State.pierSev (s : State) (p sev : Nat) : Nat := if s.alarmCovered p then sevSafety else sev

/-- PIER_p_STATUS.STATE with EV_PIER_LINK (08 R209). -/
def State.pierChange (s : State) (p st : Nat) : State :=
  (s.set (Reg.PIER_STATUS.STATE p) st).post 0x0801 (s.pierSev p sevWarn) (p2 p ++ p1 (s.get (Reg.PIER_STATUS.STATE p)) ++ p1 st)

/-- Every pier with a tile is SILENT (08 R206). -/
def State.silence (s : State) : State :=
  (List.range 512).foldl (fun s p => if s.get (Reg.PIER_GEOM.NH p) = 0 then s else s.pierChange p 6) s

/-- The entry into SAFE_HALT (01 R23, 10 R260, 15 R363, 17 R432): the island logs the events that name the cause and
EV_FS_HALT with code `fsCause`, the derived clocks stop, the piers are SILENT, AVS is frozen (14 R358), and FS_FAULT_N is
asserted. -/
def State.safeHalt (s : State) (evs : List (Nat × Nat × List Byte)) (fsCause stCause : Nat) : State :=
  if s.deck.dev = .safeHalt then s
  else
    let old := s.deck.dev.code
    let s : State := { s with deck := { s.deck with dev := .safeHalt } , clk := { s.clk with state := .off } }
    let s := (s.set Reg.DECK_STATE.CUR 3).set Reg.CLK_STATUS.STATE 0
    let s := if s.flag Reg.PWR_AVS_CFG.EN then s.set Reg.PWR_AVS.STATE 4 else s
    let s := evs.foldl (fun s e => s.post e.1 e.2.1 e.2.2) s
    let s := s.post 0x1104 sevSafety (p1 fsCause)
    let s := s.post 0x0209 sevSafety (p1 old ++ p1 3 ++ p1 stCause)
    (s.silence.set Reg.FS_STATUS.SFK_READY 0).faultAssert

end Sys2Proof.Machine
end

