-- ==== Sys2Proof/Machine/Burst.lean ====
section
/-! DEFINITION. What a request to HBM meets (12 R297 to R303, R308, R312 to R314): the fields of an address, the open rows, the code of
a burst, what a read finds and corrects, the failure of a pseudo-channel, and the stores that wait for the wipe. -/

namespace Sys2Proof.Machine

/-! Address fields (R298). A page of 1 KiB is 32 columns of one burst of 32 bytes. -/

/-- The row R of HBM address `a`. -/
def hbmRow (a : Nat) : Nat := bits a 19 15

/-- The column C of HBM address `a`. -/
def hbmCol (a : Nat) : Nat := bits a 12 2 * 8 + bits a 5 3

/-- The address of the burst that holds HBM address `a`. -/
def burstOf (a : Nat) : Nat := a % hbmSize / 32 * 32

/-! The code of a burst (R312): RS(36,32) over GF(2^8) with the polynomial x^8 + x^4 + x^3 + x^2 + 1. -/

/-- Twice an element of the field. -/
def gfDouble (a : Nat) : Nat := if a < 128 then 2 * a else (2 * a) ^^^ 0x11D

/-- The product of two elements, over the low `n` bits of the second. -/
def gfMulBits : Nat → Nat → Nat → Nat
  | 0, _, _ => 0
  | n + 1, a, b => (if b % 2 = 1 then a else 0) ^^^ gfMulBits n (gfDouble a) (b / 2)

/-- The product of two elements. -/
def gfMul (a b : Nat) : Nat := gfMulBits 8 a b

/-- The power `n` of an element. -/
def gfPow (a : Nat) : Nat → Nat
  | 0 => 1
  | n + 1 => gfMul a (gfPow a n)

/-- The inverse of an element: its power 254. -/
def gfInv (a : Nat) : Nat :=
  let sq := fun x => gfMul x x
  let a2 := sq a
  let a4 := sq a2
  let a8 := sq a4
  let a16 := sq a8
  let a32 := sq a16
  let a64 := sq a32
  gfMul (sq a64) (gfMul a64 (gfMul a32 (gfMul a16 (gfMul a8 (gfMul a4 a2)))))

/-- The power of α at symbol `i` of a codeword: data byte 0 is the coefficient of the highest power (log 115). -/
def rsPoint (i : Nat) : Nat := gfPow 2 (35 - i)

/-- The remainder of a polynomial by the generator x^4 + 15x^3 + 54x^2 + 120x + 64, whose roots are α^0 to α^3. -/
def rsRemainder (ds : List Nat) : List Nat :=
  ds.foldl (fun r d =>
    let f := r.getD 0 0 ^^^ d
    [r.getD 1 0 ^^^ gfMul f 15, r.getD 2 0 ^^^ gfMul f 54, r.getD 3 0 ^^^ gfMul f 120, gfMul f 64]) [0, 0, 0, 0]

/-- The four check symbols of the 32 bytes of a burst. -/
def rsCheck (ds : List Nat) : List Nat := rsRemainder ds

/-- The codeword of the 32 bytes of a burst. -/
def rsEncode (ds : List Nat) : List Nat := ds ++ rsCheck ds

/-- Syndrome `j` of a received word: its value at α^j. -/
def rsSyndrome (w : List Nat) (j : Nat) : Nat := w.foldl (fun acc c => gfMul acc (gfPow 2 j) ^^^ c) 0

/-- The received word with `y` added to symbol `i`. -/
def rsFlip (w : List Nat) (i y : Nat) : List Nat := setAt w i (w.getD i 0 ^^^ y)

/-- The symbols whose locators are roots of x^2 + a·x + b. -/
def rsRoots (a b : Nat) : List Nat :=
  (List.range 36).filter fun i =>
    let x := rsPoint i
    gfMul x x ^^^ gfMul a x ^^^ b == 0

/-- The word that a received word decodes to, with the number of symbols corrected: none where it lies in no codeword's reach. -/
def rsDecode (w : List Nat) : Option (List Nat × Nat) :=
  let s0 := rsSyndrome w 0
  let s1 := rsSyndrome w 1
  let s2 := rsSyndrome w 2
  let s3 := rsSyndrome w 3
  let det := gfMul s0 s2 ^^^ gfMul s1 s1
  if s0 = 0 ∧ s1 = 0 ∧ s2 = 0 ∧ s3 = 0 then some (w, 0)
  else if det = 0 then
    if s0 = 0 ∨ gfMul s2 s2 ≠ gfMul s1 s3 then none
    else match (List.range 36).find? fun i => gfMul (rsPoint i) s0 == s1 with
      | none => none
      | some i => some (rsFlip w i s0, 1)
  else
    let inv := gfInv det
    match rsRoots (gfMul (gfMul s0 s3 ^^^ gfMul s1 s2) inv) (gfMul (gfMul s1 s3 ^^^ gfMul s2 s2) inv) with
    | [i, j] =>
      let y := gfMul (s1 ^^^ gfMul s0 (rsPoint j)) (gfInv (rsPoint i ^^^ rsPoint j))
      some (rsFlip (rsFlip w i y) j (s0 ^^^ y), 2)
    | _ => none

/-- The codeword of a burst with damage: (symbol, difference) pairs. -/
def rsDamage (w : List Nat) (errs : List (Nat × Byte)) : List Nat := errs.foldl (fun w e => rsFlip w (e.1 % 36) e.2.toNat) w

/-! Self-refresh ends for a request (R308). -/

/-- HBM_SR_EXIT: a request makes the stack leave self-refresh; the event carries the time spent in it in µs. -/
def State.srExit (s : State) : State :=
  let st := s.get Reg.HBM_STATUS.STATE
  if st = 4 ∧ s.deck.dev ≠ .safeHalt then
    ({ s with hc := { s.hc with phyOff := false } }.set Reg.HBM_STATUS.STATE 3).post 0x0C04 sevInfo
      (p1 1 ++ c4 ((s.isl - s.hc.srAt) / 8000))
  else s

/-! Levels and open rows (R302, R304). -/

/-- The level of a source (R302), by its code in R319. -/
def sourceLevel (src : Nat) : Nat :=
  if src ≤ 1 then 0 else if src ≤ 4 ∨ src = 11 then 1 else if src = 10 then 3 else 2

/-- The level at which a source's request is waiting. -/
def State.waitLevel (s : State) (src : Nat) : Nat := sourceLevel src - s.hc.aged.get (fun _ => 0) src

/-- HBM_REQUEST_AGING: the waiting request of a source is raised by one level, a level-3 request not above level 2 (R302). -/
def State.requestAging (s : State) (src : Nat) : State :=
  let n := s.hc.aged.get (fun _ => 0) src
  if 11 < src ∨ s.waitLevel src = 0 ∨ (sourceLevel src = 3 ∧ 1 ≤ n) then s
  else { s with hc := { s.hc with aged := s.hc.aged.set (fun _ => 0) src (n + 1) } }

/-- The bank of the stack (32 × pseudo-channel + bank) that holds an address. -/
def State.bankKey (s : State) (a : Nat) : Nat := 32 * s.hbmPc a + s.hbmBank a

/-- The row that is open in a bank. -/
def State.openRow (s : State) (bank : Nat) : Option Nat := s.hc.rows.get (fun _ => none) bank

/-- The open rows replaced. -/
def State.setRows (s : State) (t : Table (Option Nat)) : State := { s with hc := { s.hc with rows := t } }

/-- A request to address `a` opens its row: an open row of the same bank is closed by a precharge first. -/
def State.openAt (s : State) (a : Nat) : State :=
  s.setRows (s.hc.rows.set (fun _ => none) (s.bankKey a) (some (hbmRow a)))

/-- Bank `bank` is precharged. -/
def State.closeBank (s : State) (bank : Nat) : State := s.setRows (s.hc.rows.set (fun _ => none) bank none)

/-- Every bank of pseudo-channel `pc` is precharged. -/
def State.closePc (s : State) (pc : Nat) : State := s.setRows (s.hc.rows.dropRange (32 * pc) 32)

/-- Every bank is precharged. -/
def State.closeAll (s : State) : State := s.setRows []

/-- A request of source `src` for the `n` bytes from `a` on is served: the stack has left self-refresh, its level is its own again, and
the rows it needed are open. A chunk of 256 bytes lies in one row. -/
def State.hbmTouch (s : State) (src a n : Nat) : State :=
  let s := s.srExit
  let s : State := { s with hc := { s.hc with aged := s.hc.aged.set (fun _ => 0) src 0, lastReq := s.isl } }
  (List.range ((a + n - 1) / 256 + 1 - a / 256)).foldl (fun s i => s.openAt ((a / 256 + i) * 256 % hbmSize)) s

/-- Do requests to HBM wait for its wipe (R317)? -/
def State.hbmHolds (s : State) : Bool := decide (s.get Reg.HBM_STATUS.STATE < 3)

/-- What a source does with HBM once the wipe is complete: until then its requests are held (R317). -/
def State.hbmFor (s : State) (f : State → State) : State := if s.hbmHolds then s else f s

/-- Bytes stored by a request of source `src` from `a` on. -/
def State.hbmStore (s : State) (src a : Nat) (bs : List Byte) : State := (s.hbmTouch src a bs.length).hbmWrite a bs

/-! Errors (R313, R314). -/

/-- HBM_ECC_LAST (R318). -/
def State.eccLast (s : State) (a symbols : Nat) (unc : Bool) : State :=
  let a := burstOf a
  (s.wr Reg.HBM_ECC_LAST (word a)).wr (Reg.HBM_ECC_LAST + 4)
    (word (ofBool unc * 2 ^ 31 + symbols % 4 * 2 ^ 29 + a / 2 ^ 32))

/-- Pseudo-channel `pc` fails (R314): CAUSE, EV_HBM_PC_FAILED, and the cause of HOLD or KEYSTONE_ONLY until reset (log 12). -/
def State.pcFails (s : State) (pc cause a src : Nat) : State :=
  if bit (s.get Reg.HBM_STATUS.FAILED) pc then s
  else
    let s := s.set Reg.HBM_STATUS.FAILED (setBit (s.get Reg.HBM_STATUS.FAILED) pc)
    let s := (s.set (Reg.HBM_PC_STATUS.FAILED pc) 1).set (Reg.HBM_PC_STATUS.CAUSE pc) cause
    let s : State := { s with deck := { s.deck with hbmCause := true } }
    s.post 0x0C03 sevError (p1 pc ++ p1 cause ++ p8 a ++ p1 src)

/-- An uncorrectable read of the burst at `a` by source `src` (R314, R319). -/
def State.hbmUncorrectable (s : State) (a src : Nat) : State :=
  if s.hbmFailed a then s else (s.eccLast a 0 true).pcFails (s.hbmPc a) 1 (burstOf a) src

/-- A pseudo-channel becomes due for retraining: trigger 0 interval, 1 temperature, 2 corrections, 3 request (R310). -/
def State.trainDue (s : State) (pc trigger : Nat) : State :=
  if (s.hc.due.get (fun _ => none) pc).isSome then s
  else { s with hc := { s.hc with
      due := s.hc.due.set (fun _ => none) pc (some trigger), fails := s.hc.fails.set (fun _ => 0) pc 0 } }

/-- A corrected burst (R313): counted, recorded, posted at most once per second and pseudo-channel; CORR_LIMIT corrections within a
second make the pseudo-channel due (R310). -/
def State.hbmCorrected (s : State) (a symbols : Nat) : State :=
  let pc := s.hbmPc a
  let s := (s.bump (Reg.HBM_PC_ECC.CORR pc)).eccLast a symbols false
  let n := s.hc.eccSince.get (fun _ => 0) pc + 1
  let s' := s.postOncePer oneSecond (0x0C020 + pc) 0x0C02 sevInfo (p1 pc ++ p8 (burstOf a) ++ p1 symbols ++ c2 n)
  let n := if s'.evt.eseq = s.evt.eseq then n else 0
  let cs := s'.hc.corrSec.get (fun _ => (0, 0)) pc
  let cs := if s'.isl < cs.1 + oneSecond then (cs.1, cs.2 + 1) else (s'.isl, 1)
  let s : State := { s' with hc := { s'.hc with
    eccSince := s'.hc.eccSince.set (fun _ => 0) pc n, corrSec := s'.hc.corrSec.set (fun _ => (0, 0)) pc cs } }
  let lim := s.get Reg.HBM_TRAIN_CFG.CORR_LIMIT
  if 0 < lim ∧ lim ≤ cs.2 then s.trainDue pc 2 else s

/-- The damaged codeword of the burst at `a`. -/
def State.damaged (s : State) (a : Nat) (errs : List (Nat × Byte)) : List Nat :=
  rsDamage (rsEncode ((memRead s.hbm (burstOf a) 32).map BitVec.toNat)) errs

/-- What a read by source `src` finds in the burst at `a` (R312 to R314): damage within the reach of a codeword is corrected, counted
and written back, other damage is uncorrectable; a first parity error is repaired by the repeated command, a second fails the
pseudo-channel. The number is that of the symbols corrected. -/
def State.burstFound (s : State) (a src : Nat) (f : HbmFind) : State × Nat :=
  if s.hbmFailed a then (s, 0)
  else match f with
    | .clean => (s, 0)
    | .parity false => (s, 0)
    | .parity true => (s.pcFails (s.hbmPc a) 2 (burstOf a) src, 0)
    | .damaged errs =>
      match rsDecode (s.damaged a errs) with
      | none => (s.hbmUncorrectable a src, 0)
      | some (w, n) =>
        let s : State := { s with hbm := memWrite s.hbm (burstOf a) ((w.take 32).map byte) }
        (if n = 0 then s else s.hbmCorrected a n, n)

/-- The read of `n` bytes from `a` on by source `src`, whose first burst is found as `f` says. -/
def State.hbmAsk (s : State) (src a n : Nat) (f : HbmFind) : State := ((s.hbmTouch src a n).burstFound a src f).1

/-! Stores that wait for the wipe (R302, R317). -/

/-- The first waiting store of each source: those that may be served next, as a source's stores keep their order (R303). -/
def firstOfEach : List HbmReq → List Nat → List HbmReq
  | [], _ => []
  | r :: rs, seen => if seen.contains r.src then firstOfEach rs seen else r :: firstOfEach rs (r.src :: seen)

/-- How a waiting store ranks: by its level, and within it whether its row is open. -/
def State.reqRank (s : State) (r : HbmReq) : Nat :=
  2 * s.waitLevel r.src + ofBool (s.openRow (s.bankKey (r.addr % hbmSize)) != some (hbmRow r.addr))

/-- The store that is served next: of the best rank, the one that waited longest. -/
def State.nextReq (s : State) : Option HbmReq :=
  (firstOfEach s.hc.waiting []).foldl (fun b r => match b with
    | none => some r
    | some x => if s.reqRank r < s.reqRank x then some r else some x) none

/-- Up to `n` waiting stores are served. -/
def State.serveWaiting (s : State) : Nat → State
  | 0 => s
  | n + 1 => match s.nextReq with
    | none => s
    | some r =>
      State.serveWaiting ({ s with hc := { s.hc with waiting := s.hc.waiting.erase r } }.hbmStore r.src r.addr r.data) n

/-- A store of source `src`: before the wipe completes it waits. -/
def State.hbmPost (s : State) (src a : Nat) (bs : List Byte) : State :=
  if s.hbmHolds then { s with hc := { s.hc with waiting := s.hc.waiting ++ [⟨src, a, bs⟩] } } else s.hbmStore src a bs

end Sys2Proof.Machine
end

