-- ==== Sys2Proof/Machine/Calib.lean ====
section
/-! DEFINITION. The calibrated quantities and their values in force (14 R345 to R348). Temperatures are in 1/64 °C. -/

namespace Sys2Proof.Machine

/-! Calibrated quantities (R345 to R347). Quantity 48p is the output path of pier p, 48p + s its delay of setting s, both in
1/16 ps; 24576 the TDC LSB in 1/16 ps, 24577 the medium step in kHz, 24578 and 24579 the converter offsets of channels A and
B in 1/64 °C (units log 23). -/

/-- The TDC LSB, the medium step and the converter offsets. -/
abbrev qTdc : Nat := 24576
/-- As `qTdc`. -/
abbrev qMed : Nat := 24577
/-- As `qTdc`. -/
abbrev qOffA : Nat := 24578
/-- As `qTdc`. -/
abbrev qOffB : Nat := 24579

/-- Anchor temperatures in °C (R346). -/
def anchorTemp (a : Nat) : Int := [-40, -15, 10, 35, 60, 85, 105, 125].getD a 125

/-- The part of MRAM that holds the anchor record (15 R368). -/
def State.anchorMram (s : State) : List (Nat × Byte) := s.mram.filter fun e => decide (e.1 < 0xE0000)

/-- The nominal value of a quantity, used without a valid anchor record (R353). -/
def nominal (q : Nat) : Int :=
  if q < 24576 then (((q % 48) * 1088 + 5) / 10 : Nat) else if q = qTdc then 80 else if q = qMed then 4000 else 0

/-- The interpolated anchor value of a quantity at temperature `t` (R347). -/
def State.anchorAt (s : State) (q : Nat) (t : Int) : Int :=
  let m := s.anchorMram
  if (Config.anchorSlot m).isNone then nominal q
  else
    let t := clampI t (-40 * 64) (125 * 64)
    let a := ((List.range 7).filter fun a => decide (anchorTemp a * 64 ≤ t)).length - 1
    let va := Config.anchorValue m q a
    va + Int.fdiv ((Config.anchorValue m q (a + 1) - va) * (t - anchorTemp a * 64)) ((anchorTemp (a + 1) - anchorTemp a) * 64)

/-- Tj. -/
def State.tj (s : State) : Int := signed 16 (s.get Reg.THM_TJ.TJ)

/-- The temperature that counts for a quantity: Tq for pier quantities, Tj for the others (R347). -/
def State.quantityTemp (s : State) (q : Nat) (tj : Int) : Int :=
  if q < 24576 then
    let off := fun f => signed 8 (s.get f) * 16
    match q / 48 / 128 with
    | 0 => tj + off Reg.CAL_QOFF.Q0
    | 1 => tj + off Reg.CAL_QOFF.Q1
    | 2 => tj + off Reg.CAL_QOFF.Q2
    | _ => tj + off Reg.CAL_QOFF.Q3
  else tj

/-- The value in force of a quantity (R347, R348). -/
def State.calValue (s : State) (q : Nat) : Int :=
  s.anchorAt q (s.quantityTemp q s.tj) + s.cal.d.get (fun _ => 0) q

/-! The band codes of the ADPLL (10 R254; 14 R346). -/

/-- Is the field slot 1 the newer valid one (R353)? -/
def Cal.newer1 (c : Cal) : Bool :=
  match c.slot0, c.slot1 with
  | some a, some b => decide (0 < signed 32 (b.seq + 2 ^ 32 - a.seq % 2 ^ 32))
  | none, some _ => true
  | _, none => false

/-- The field record in force. -/
def Cal.field (c : Cal) : Option FieldRec := if c.newer1 then c.slot1 else c.slot0

/-- The codes kept for each anchor once `e`, found at a Tj, is known: the codes found nearest to it, and of two the later ones. -/
def keepBands (old : List (Nat × Nat × Int)) (e : Nat × Nat × Int) : List (Nat × Nat × Int) :=
  (List.range 8).map fun a =>
    let far := fun b : Nat × Nat × Int => (b.2.2 - anchorTemp a * 64).natAbs
    match old[a]? with
    | some b => if far b < far e then b else e
    | none => e

/-- The band codes interpolated for the present Tj as the quantities are (R347; log 131); none without stored ones. -/
def State.bandCodes (s : State) : Option (Nat × Nat) :=
  match s.cal.field with
  | none => none
  | some r =>
    if r.bands = [] then none
    else
      let t := clampI s.tj (-40 * 64) (125 * 64)
      let a := ((List.range 7).filter fun a => decide (anchorTemp a * 64 ≤ t)).length - 1
      let lo := r.bands.getD a (0, 0, 0)
      let hi := r.bands.getD (a + 1) (0, 0, 0)
      let at' := fun (x y : Nat) =>
        ((x : Int) + Int.fdiv (((y : Int) - x) * (t - anchorTemp a * 64)) ((anchorTemp (a + 1) - anchorTemp a) * 64)).toNat
      some (at' lo.1 hi.1, at' lo.2.1 hi.2.1)

/-- The physical delay setting whose delay is nearest to `tap` × τ, τ = 5/512 ns; of two the lower one (08 R202; 14 R345). -/
def State.tapSetting (s : State) (p tap : Nat) : Nat :=
  let far := fun k : Nat => (4 * (if k = 0 then (0 : Int) else s.calValue (48 * p + k)) - 625 * (tap : Int)).natAbs
  (List.range 48).foldl (fun best k => if far k < far best then k else best) 0

end Sys2Proof.Machine
end

