-- ==== Sys2Proof/Machine/Time.lean ====
section
/-! DEFINITION. Network time and clocking (10 R236 to R263): the frame schedule's instants, steps and slews of NT, the
alarms, PPS_OUT, PTP timestamps, and the ADPLL with its references and monitors. -/

namespace Sys2Proof.Machine

/-! The schedule of frame starts (02 R26). -/

/-- DECK_FRAME_BASE of the active state. -/
def State.frameBase (s : State) : Nat :=
  s.ac Reg.DECK_FRAME_BASE_LO.BASE + 2 ^ 32 * s.ac Reg.DECK_FRAME_BASE_HI.BASE

/-- S(k) = BASE + (k × NUM) div DEN as an NT48 value (02 R26). -/
def State.schedS (s : State) (k : Int) : Nat :=
  addNs s.frameBase (divI (k * s.ac Reg.DECK_PERIOD_NUM.NUM) (s.ac Reg.DECK_PERIOD_DEN.DEN))

/-- The smallest index whose S(k) is at or after the NT48 instant `t` (02 R26). -/
def State.firstIndex (s : State) (t : Nat) : Int :=
  -(divI (-(diff48 t s.frameBase * (s.ac Reg.DECK_PERIOD_DEN.DEN : Nat))) (s.ac Reg.DECK_PERIOD_NUM.NUM))

/-- The least distance of a start after a write of RUN or a step, in ns (02 R30, R33, R34). -/
def startGap : Nat := 40000

/-- EV_TIME_STEP (02 R58): `how` is 0 skipped, 1 re-phased, 2 re-timed. -/
def State.postTimeStep (s : State) (stepNs : Int) (how : Nat) : State :=
  s.post 0x0207 sevWarn (p8 (unsignedOf 64 stepNs) ++ p1 how)

/-- Is a frame in progress, its blanking included (02 R27, R451)? -/
def Deck.inFrame (d : Deck) : Bool := d.started && decide (d.phase ≠ .idle)

/-- Is a frame in progress, up to its flip? -/
def Deck.busy (d : Deck) : Bool := d.started && (decide (d.phase ≠ .idle)) && !(d.flipDone && d.phase == .blank)

/-- The Deck re-phases after a backward step of more than one period (02 R33, R36). -/
def State.rephase (s : State) (stepNs : Int) : State :=
  let d := s.deck
  let d := if d.busy then
      match d.phase with
      | .blank => { d with flip8 := some (max (d.latch8 + d.flipOffset * 8) s.nt.now8) }
      | _ => { d with rephased := true }
    else d
  let d := { d with
    repeatNext := true
    startLate := false
    nextK := if d.nextK.isSome then some (s.firstIndex (s.nt48 + startGap)) else none }
  { s with deck := d }.postTimeStep stepNs 1

/-- Is the next start late (02 R34)? A forward step that moves it into the past makes it late, and it stays so until it fires or a
later step puts it ahead again. -/
def State.markStart (s : State) (stepNs : Int) : State :=
  let late := match s.deck.nextK with
    | none => false
    | some j => (s.deck.startLate || decide (0 < stepNs)) && decide (diff48 (s.schedS j) s.nt48 < 0)
  { s with deck := { s.deck with startLate := late } }

/-- A start that a forward step leaves less than 40,000 ns ahead is skipped, and the frame-synchronous gate lists of a running Deck
realign (02 R34, 09 R231). -/
def State.skipNear (s : State) (stepNs : Int) : State :=
  match s.deck.nextK with
  | none => s
  | some j =>
    let dist := diff48 (s.schedS j) s.nt48
    if 0 ≤ dist ∧ dist < startGap then
      let j' := s.firstIndex (s.nt48 + startGap)
      if j' = j then s
      else
        let s : State := { s with deck := { s.deck with nextK := some j' } }
        (if s.deck.inFrame then { s with vdt := { s.vdt with realign := some stepNs } } else s).postTimeStep stepNs 0
    else s

/-- A flag of the snapshot of the frame in progress, once it has been taken. -/
def State.snapFlag (s : State) (f : Nat → Field) : State := s.set (f (s.deck.frameNum % 2)) 1

/-- The frame in progress at a step (02 R34 to R36): TIME_STEP up to the end of its blanking, and a latch point or flip instant that
the step has moved into the past. -/
def State.frameOnStep (s : State) : State :=
  if s.deck.inFrame = false then s
  else
    let d := s.deck
    let s : State := { s with deck := { d with
      timeStep := true
      latchLate := d.latchLate || (decide (d.phase = .waitLatch) && decide (0 < diff48 s.nt48 d.latchNT)) } }
    if d.phase = .blank then
      let s := s.snapFlag Reg.DECK_SNAP_NT_HI.TIME_STEP
      if !d.flipDone && d.flip8.isNone && decide (0 < diff48 s.nt48 d.flipNT) then
        { s with deck := { s.deck with lateFlip := true } }.snapFlag Reg.DECK_SNAP_NT_HI.LATE_FLIP
      else s
    else s

/-- The Deck's reaction to a step of NT (02 R32 to R36). -/
def State.deckOnStep (s : State) (stepNs : Int) : State :=
  if s.deck.dev = .safeHalt then s
  else
    let s := { s with deck := { s.deck with lastStep := stepNs } }.frameOnStep
    if !(s.deck.busy || s.deck.nextK.isSome) then s
    else if stepNs < 0 ∧ (s.ac Reg.DECK_PERIOD_NUM.NUM : Int) < -stepNs * (s.ac Reg.DECK_PERIOD_DEN.DEN : Nat) then
      s.rephase stepNs
    else
      let s := s.markStart stepNs
      if 0 < stepNs then s.skipNear stepNs else s

/-! Steps and slews of NT. -/

/-- Half nanoseconds per second. -/
def halfPerSec : Nat := 2000000000

/-- NT moved by a signed number of half nanoseconds. -/
def NtUnit.move (n : NtUnit) (d : Int) : NtUnit :=
  let t := ((n.sec * halfPerSec + n.half : Nat) : Int) + d
  let t := (Int.emod t ((2 ^ 48 * halfPerSec : Nat) : Int)).toNat
  { n with sec := t / halfPerSec, half := t % halfPerSec }

/-- The alarms after a step: each armed target is judged anew, and one that now lies in the past is marked LATE (10 R244). -/
def State.markLate (s : State) : State :=
  { s with nt := { s.nt with armed := (List.range 8).foldl (fun t n =>
      t.modify (fun _ => none) n fun a => a.map fun e => (e.1, s.due e.1)) s.nt.armed } }

/-- What every step does (10 R241, R242, R244): EPOCH rises, EV_NT_STEP names the step in 2^-16 ns with its cause, and
the Deck, the gate lists, the alarms and the pier grids take it. -/
def State.onStep (s : State) (stepHalf : Int) (cause : Nat) : State :=
  let s := s.count Reg.NT_STATUS.EPOCH
  let s := s.post 0x0A01 sevWarn
    (p8 (unsignedOf 64 (stepHalf * 2 ^ 15)) ++ p2 (s.get Reg.NT_STATUS.EPOCH) ++ p1 cause)
  let s : State := { s with nt := { s.nt with
    gridTotal := modI ((s.nt.gridTotal : Int) + stepHalf * 4) 165
    gateStep := some (divI stepHalf 2) } }
  (s.markLate).deckOnStep (divI stepHalf 2)

/-- The step threshold in ns (10 R262). -/
def State.stepThresh (s : State) : Nat := max 100 (min 1000000 (s.get Reg.NT_STEP_CFG.THRESH))

/-- The units of a slew, 2^-8 ppb times CLK_TIME cycles, in 2^-16 ns and in 2^-8 ns. -/
def slewUnit : Int := 1562500
/-- As `slewUnit`. -/
def slewUnit8 : Int := 400000000

/-- The slew starts, or the offset is held in holdover (10 R239). -/
def State.slewOrHold (s : State) (o : Int) : State :=
  let l := o * slewUnit
  if s.clk.state = .holdover ∨ s.nt.held.isSome then
    { s with nt := { s.nt with held := some l, slew := none } }.set Reg.NT_STATUS.PENDING 1 |>.set Reg.NT_STATUS.SLEWING 0
  else { s with nt := { s.nt with slew := some l, held := none } }.set Reg.NT_STATUS.SLEWING 1

/-- NT_SLEW_LEFT: what is left of a slew, or the offset held, in 2^-8 ns (10 R239). -/
def State.slewLeft (s : State) : Word :=
  word (unsignedOf 32 (Int.fdiv ((s.nt.slew.orElse fun _ => s.nt.held).getD 0) slewUnit8))

/-- A write of the high word of NT_ADJ (10 R239): a step beyond the threshold, a slew or a held offset within it. -/
def State.ntAdjWrite (s : State) (hi : Word) : State :=
  let o := signed 64 (s.nt.adjLo + 2 ^ 32 * hi.toNat)
  if s.stepThresh * 65536 < o.natAbs then
    let h := divI (o + 2 ^ 14) (2 ^ 15)
    let s : State := { s with nt := { s.nt with slew := none, held := none } }
    let s := (s.set Reg.NT_STATUS.SLEWING 0).set Reg.NT_STATUS.PENDING 0
    { s with nt := s.nt.move h }.onStep h 0
  else s.slewOrHold o

/-- A write of the last word of NT_SET (10 R240). -/
def State.ntSetWrite (s : State) (w : Word) : State :=
  let v := s.nt.set0 + 2 ^ 32 * s.nt.set1 + 2 ^ 64 * w.toNat
  let ns := bits v 16 32
  let sec := bits v 48 48
  if 1000000000 ≤ ns then s
  else
    let d := ((sec * halfPerSec + 2 * ns : Nat) : Int) - ((s.nt.sec * halfPerSec + s.nt.half : Nat) : Int)
    let s : State := { s with nt := { s.nt with sec := sec, half := 2 * ns } }
    (s.set Reg.NT_STATUS.SET 1).onStep d 1

/-- A slew has completed its profile: its term of Φ is 0 again, and less than 2^-8 ns is left (10 R239). -/
def State.slewEnd (s : State) : State :=
  match s.nt.slew with
  | none => s
  | some l =>
    if s.nt.slewPhi = 0 ∧ (l.natAbs : Int) < slewUnit8 then
      { s with nt := { s.nt with slew := none } }.set Reg.NT_STATUS.SLEWING 0
    else s

/-- A write of NT_FREQ, clamped to ±200 ppm (10 R238); in holdover it is held (10 R259). -/
def State.ntFreqWrite (s : State) (w : Word) : State :=
  let f := clampI (signed 32 w.toNat) (-51200000) 51200000
  let s := s.wr Reg.NT_FREQ (word (unsignedOf 32 f))
  if s.clk.state = .holdover then { s with nt := { s.nt with freqHeld := some f } }
  else { s with nt := { s.nt with freq := f, freqHeld := none } }

/-! The sum Φ and its ramps (10 R253, R256). A CLK_TIME cycle changes Φ by at most 128 units of 2^-8 ppb: 20 ppm per 100 µs. -/

/-- The change of Φ that a CLK_TIME cycle allows. -/
def rampStep : Int := 128

/-- `cur` moved toward `goal` by at most `b`. -/
def toward (cur goal b : Int) : Int := cur + clampI (goal - cur) (-b) b

/-- What a term `v` still adds on its way down to 0. -/
def stopDist (v : Int) : Int := let k := v / rampStep
                                k * v - rampStep * (k * (k + 1) / 2)

/-- The next value of a term that has `l` ≥ 0 left: the largest that stays within `peak` and can still come down in time. -/
def profileUp (peak phi l : Int) : Int :=
  ([phi + rampStep, phi, phi - rampStep].find? fun c =>
    decide (c ≤ peak) && (decide (c ≤ 0) || decide (c + stopDist c ≤ l))).getD (phi - rampStep)

/-- The next value of the term of a slew or a phase slew: a trapezoid of slope `rampStep` up to `peak` whose sum is what is left. -/
def profile (peak phi l : Int) : Int := if 0 ≤ l then profileUp peak phi l else 0 - profileUp peak (0 - phi) (0 - l)

/-- NT_STEP_CFG.RATE in 2^-8 ppb: 1 to 200 ppm (10 R262). -/
def State.slewPeak (s : State) : Int := ((max 1 (min 200 (s.get Reg.NT_STEP_CFG.RATE)) * 256000 : Nat) : Int)

/-- The greatest term of a phase slew, 1 ppm: 1 ns per ms (10 R259). -/
def phasePeak : Int := 256000

/-- 1 ps of a phase slew. -/
def psUnit : Int := 102400000

/-- Φ (10 R253). -/
def State.phi (s : State) : Int := s.nt.freqPhi + s.nt.slewPhi + s.clk.phasePhi

/-- Is the phase slew done? -/
def State.phaseDone (s : State) : Bool := decide (s.clk.phasePhi = 0) && decide ((s.clk.phaseLeft.natAbs : Int) < psUnit)

/-- The terms of Φ one CLK_TIME cycle later: the slew first, then the phase slew, then NT_FREQ share the ramp. Holdover freezes the codes and
with them Φ (10 R259). -/
def State.rampPhi (s : State) : State :=
  if s.clk.state = .holdover then s
  else
    let sp := match s.nt.slew with
      | some l => profile s.slewPeak s.nt.slewPhi l
      | none => toward s.nt.slewPhi 0 rampStep
    let left := rampStep - ((sp - s.nt.slewPhi).natAbs : Int)
    let pp := if s.phaseDone = true ∨ left < rampStep then s.clk.phasePhi else profile phasePeak s.clk.phasePhi s.clk.phaseLeft
    let left := left - ((pp - s.clk.phasePhi).natAbs : Int)
    let s : State := { s with clk := { s.clk with phasePhi := pp, phaseLeft := s.clk.phaseLeft - pp } }
    let s : State := if s.phaseDone then s else { s with clk := { s.clk with quietAt := s.isl } }
    { s with nt := { s.nt with slewPhi := sp, slew := s.nt.slew.map (· - sp), freqPhi := toward s.nt.freqPhi s.nt.freq left } }

/-- The unit of Φ, 1 in 2^-8 ppb. -/
def phiOne : Nat := 256000000000

/-- The island count one CLK_TIME cycle later: the cycle lasts 2.5 ns / (1 + Φ). -/
def State.islCycle (s : State) : State :=
  let t := s.nt.islFrac + 20 * 2 ^ 32 * phiOne / ((phiOne : Int) + s.phi).toNat
  { s with nt := { s.nt with isl8 := s.nt.isl8 + t / 2 ^ 32, islFrac := t % 2 ^ 32 } }

/-! Alarms (10 R243 to R245). -/

/-- What an alarm that is not armed holds. -/
def noAlarm : Nat → Option (Nat × Bool) := fun _ => none

/-- Alarm `n` armed with target `t`; LATE when the target is already past (10 R243). -/
def State.alarmArm (s : State) (n t : Nat) : State :=
  ({ s with nt := { s.nt with armed := s.nt.armed.set noAlarm n (some (t, s.due t)) } }).set (Reg.NT_ALARM_CTRL.ARMED n) 1

/-- A write of NT_ALARMn_CTRL (10 R245, R262). -/
def State.alarmCtrlWrite (s : State) (n : Nat) (v : Word) : State :=
  let s := s.set (Reg.NT_ALARM_CTRL.NOTIFY n) (fieldOf v (Reg.NT_ALARM_CTRL.NOTIFY n))
  let s : State := if bit v.toNat 1 then s.set (Reg.NT_ALARM_CTRL.FIRED n) 0 else s
  if bit v.toNat 31 then
    s.alarmArm n (s.get (Reg.NT_ALARM_LO.T n) + 2 ^ 32 * s.get (Reg.NT_ALARM_HI.T n))
  else if bit v.toNat 30 then
    ({ s with nt := { s.nt with armed := s.nt.armed.set noAlarm n none } }).set (Reg.NT_ALARM_CTRL.ARMED n) 0
  else s

/-- Alarm `n` fires once its target has come (10 R245). -/
def State.alarmFire (s : State) (n : Nat) : State :=
  match s.nt.armed.get noAlarm n with
  | none => s
  | some (t, late) =>
    if s.due t then
      let s := (s.set (Reg.NT_ALARM_CTRL.FIRED n) 1).set (Reg.NT_ALARM_CTRL.LATE n) (ofBool late)
      let s : State := if s.flag (Reg.NT_ALARM_CTRL.NOTIFY n) then
          s.post 0x0A03 sevInfo (p1 n ++ pb late ++ p8 s.nt48) else s
      let per := s.get (Reg.NT_ALARM_PERIOD.PERIOD n)
      if per = 0 then
        ({ s with nt := { s.nt with armed := s.nt.armed.set noAlarm n none } }).set (Reg.NT_ALARM_CTRL.ARMED n) 0
      else s.alarmArm n ((t + max per 10000) % m48)
    else s

/-! PPS_OUT (10 R246). -/

/-- The signed distances, in half nanoseconds, of NT after the instants at which PPS_OUT is to rise: the second boundary, or the flip instants
of the frame in progress and of the last one that has passed its latch point. -/
def State.ppsLags (s : State) : List Int :=
  let off := signed 16 (s.get Reg.NT_PPS_CFG.OFFSET)
  let d := s.deck
  let since := fun t : Nat => 2 * diff48 s.nt48 (addNs t off) + (s.nt.half % 2 : Nat)
  if s.get Reg.NT_PPS_CFG.MODE = 1 then [((modI ((s.nt.half : Int) - 2 * off) halfPerSec : Nat) : Int)]
  else
    (if d.inFrame && decide (d.phase ≠ .blank) && !d.rephased then [since (addNs d.latchNT d.flipOffset)] else [])
      ++ (if d.lastLatch.isSome then [match d.flip8 with
        | some t => Int.fdiv ((s.nt.now8 : Int) - t) 4 - 2 * off
        | none => since d.flipNT] else [])

/-- PPS_OUT rises at a second boundary or a flip instant, shifted by OFFSET. -/
def State.ppsRise (s : State) : State :=
  let m := s.get Reg.NT_PPS_CFG.MODE
  if (m = 1 ∨ m = 2) ∧ s.nt.ppsHigh = false ∧ (s.ppsLags.any fun l => decide (0 ≤ l) && decide (l < 5)) = true then
    let w := max 1 (s.get Reg.NT_PPS_CFG.WIDTH)
    { s with nt := { s.nt with ppsHigh := true, ppsFallAt := s.nt.now8 + w * 80000 } }.emit (.pin "PPS_OUT" true)
  else s

/-- PPS_OUT falls when its width has passed. -/
def State.ppsFall (s : State) : State :=
  if s.nt.ppsHigh = true ∧ s.nt.ppsFallAt ≤ s.nt.now8 then
    { s with nt := { s.nt with ppsHigh := false } }.emit (.pin "PPS_OUT" false)
  else s

/-! PTP timestamps (10 R247 to R251). A timestamp counts 2^-16 ns. -/

/-- Is a PTP message an event message (10 R248)? -/
def ptpIsEvent (msg : List Byte) : Bool := decide ((msg.getD 0 0).toNat % 16 ≤ 3)

/-- A transmit-timestamp entry as its four words (10 R251). -/
def txqEntry (t epoch : Nat) (msg : List Byte) : List Word :=
  let ty := (msg.getD 0 0).toNat % 16
  let seq := beNat (slice msg 30 2)
  [word (2 ^ 31 + ty * 2 ^ 24 + (msg.getD 4 0).toNat * 2 ^ 16 + seq),
   word (t % 65536 * 65536 + epoch),
   word (t / 65536 % 1000000000),
   word (t / 65536 / 1000000000)]

/-- The transmit-timestamp queue of port `x`. -/
def State.txq (s : State) (x : Nat) : List (List Word) := if x = 0 then s.nt.txqA else s.nt.txqB

/-- The queue of port `x` replaced, with its level shown. -/
def State.setTxq (s : State) (x : Nat) (q : List (List Word)) : State :=
  ({ s with nt := if x = 0 then { s.nt with txqA := q } else { s.nt with txqB := q } }).set (Reg.NT_TXQ_STAT.LEVEL x) q.length

/-- A transmit timestamp that finds the queue full is dropped, counted and reported once per second and port. -/
def State.txqDrop (s : State) (x : Nat) : State :=
  let s := s.bump (Reg.NT_TXQ_STAT.DROPPED x)
  let ts := s.withNow (if x = 0 then s.nt.txqDropA else s.nt.txqDropB)
  let s : State := { s with nt := if x = 0 then { s.nt with txqDropA := ts } else { s.nt with txqDropB := ts } }
  s.postOncePer oneSecond (0x0A020 + x) 0x0A02 sevWarn (p1 x ++ c2 ts.length)

/-- The transmit timestamp of a TIME frame that leaves port `x`; `stamp` is the NT at the internal stamp point (10 R249, R251). -/
def State.timeTransmit (s : State) (x : Nat) (msg : List Byte) (stamp : Nat) : State :=
  if ptpIsEvent msg then
    if 32 ≤ (s.txq x).length then s.txqDrop x
    else
      let t := stamp + s.get (Reg.NT_LAT_TX.LAT x) * 256
      s.setTxq x (s.txq x ++ [txqEntry t (s.get Reg.NT_STATUS.EPOCH) msg])
  else s

/-- A received TIME frame enters the receive ring behind its 16-byte prefix (10 R250). -/
def State.timeReceive (s : State) (x : Nat) (msg : List Byte) (stamp : Nat) : State :=
  let t := if ptpIsEvent msg then stamp - s.get (Reg.NT_LAT_RX.LAT x) * 256
    else (s.nt.sec * halfPerSec + s.nt.half) * 32768
  let prefix16 := p1 x ++ pb (ptpIsEvent msg) ++ p2 (s.get Reg.NT_STATUS.EPOCH)
    ++ p4 (t / 65536 / 1000000000) ++ p4 (t / 65536 % 1000000000) ++ p2 (t % 65536) ++ p2 0
  { s with nt := { s.nt with rxRing := s.nt.rxRing ++ [prefix16 ++ msg] } }

/-! The ADPLL (10 R252 to R261). -/

/-- EV_CLK_STATE on a change of state. Cause (log 13): 0 start-up or progress, 1 reference lost, 2 phase error above 1 ns,
3 reference qualified, 4 return to PRIMARY. -/
def State.setClk (s : State) (c : AdpllState) (cause : Nat) : State :=
  let old := s.clk.state.code
  let s : State := ({ s with clk := { s.clk with state := c } }).set Reg.CLK_STATUS.STATE c.code
  s.post 0x0A05 (if c = .holdover then sevError else sevInfo) (p1 old ++ p1 c.code ++ p1 cause)

/-- EV_CLK_REF: reference 0 REFCLK or 1 forwarded clock; 0 lost, 1 valid, 2 switched. -/
def State.postRef (s : State) (ref : Bool) (what : Nat) : State := s.post 0x0A04 sevWarn (pb ref ++ p1 what)

/-- The validity of a reference. -/
def State.refOk (s : State) (ref : Bool) : Bool := if ref then s.clk.mraOk else s.clk.refclkOk

/-- The phase error measured once the frequency is acquired, in ps, modulo the reference period of 10 ns, and the phase slew that removes it
(10 R259). A positive error is a DCO ahead of the reference (log 132). -/
def State.phaseSlew (s : State) (phase : Int) : State :=
  let e : Int := (modI (phase + 5000) 10000 : Nat) - 5000
  { s with clk := { s.clk with phaseLeft := 0 - e * psUnit, quietAt := s.isl } }

/-- The codes are found against a valid reference (10 R254): the stored ones, interpolated, if their `check` passes, otherwise those of the
search, which are kept for the calibration set. FINE is centred. -/
def State.codesFound (s : State) (coarse medium : Nat) (check : Bool) (phase : Int) : State :=
  if s.clk.state = .search ∧ s.refOk s.clk.ref = true then
    let found : Nat × Nat × Int := (coarse % 64, medium % 128, s.tj)
    let e : (Nat × Nat) × Option (Nat × Nat × Int) := match s.bandCodes with
      | some b => if check then (b, s.clk.found) else ((found.1, found.2.1), some found)
      | none => ((found.1, found.2.1), some found)
    let s := (s.set Reg.CLK_DCO.COARSE e.1.1).set Reg.CLK_DCO.MEDIUM e.1.2 |>.set Reg.CLK_DCO.FINE 512
    ({ s with clk := { s.clk with found := e.2, frac := 0 } }.setClk .acquire 0).phaseSlew phase
  else s

/-- The loop has locked (10 R257): the phase error has stayed within 20 ps for 1,000 reference cycles after the phase slew. A held rate offset
applies and a held phase offset starts to slew. -/
def State.clkLocked (s : State) (phaseErr : Int) : State :=
  if s.clk.state = .acquire ∧ phaseErr.natAbs ≤ 20 ∧ s.phaseDone = true ∧ s.clk.quietAt + 80000 ≤ s.isl then
    let s := (s.set Reg.CLK_STATUS.PHASE_ERR (unsignedOf 16 phaseErr)).setClk .locked 0
    let s : State := { s with nt := { s.nt with freq := s.nt.freqHeld.getD s.nt.freq, freqHeld := none } }
    match s.nt.held with
    | none => s
    | some o =>
      (({ s with nt := { s.nt with held := none, slew := some o } }).set Reg.NT_STATUS.PENDING 0).set Reg.NT_STATUS.SLEWING 1
  else s

/-- The medium step size stored at calibration, in steps of FINE of 20 kHz (10 R252, R255; 14 R345). -/
def State.medStep (s : State) : Int := Int.fdiv (s.calValue qMed) 20

/-- FINE as it has left 12.5 % to 87.5 % of its range, from a free value (log 147). -/
def hopFine (v : Nat) : Nat := if v < 512 then v % 128 else 897 + v % 127

/-- A fast hop (10 R255): the loop has moved FINE out of 12.5 % to 87.5 % of its range. MEDIUM steps toward that side, and FINE is offset by the
medium step size. -/
def State.fastHop (s : State) : State :=
  if s.clk.state = .locked ∨ s.clk.state = .acquire then
    let (v, s) := s.fresh 10
    let f := hopFine v
    let m := s.get Reg.CLK_DCO.MEDIUM
    let v := clampI (if f < 128 then (f : Int) + s.medStep else (f : Int) - s.medStep) 0 1023
    ((s.set Reg.CLK_DCO.MEDIUM (if f < 128 then m - 1 else min 127 (m + 1))).set Reg.CLK_DCO.FINE v.toNat).count
      Reg.CLK_COUNT.HOPS
  else s

/-- The validity of a reference replaced, with the island time since which it holds. -/
def State.setRefOk (s : State) (ref ok : Bool) : State :=
  if ref then ({ s with clk := { s.clk with mraOk := ok, mraSince := s.isl } }).set Reg.CLK_STATUS.MRA_OK (ofBool ok)
  else ({ s with clk := { s.clk with refclkOk := ok, refclkSince := s.isl } }).set Reg.CLK_STATUS.REFCLK_OK (ofBool ok)

/-- CLK_REF_CFG.PRIMARY as a reference. -/
def State.primaryRef (s : State) : Bool := s.flag Reg.CLK_REF_CFG.PRIMARY

/-- The codes are frozen (10 R259); what is left of a slew is held (log 133). -/
def State.enterHoldover (s : State) (cause : Nat) : State :=
  if s.clk.state = .locked ∨ s.clk.state = .acquire then
    let s : State := { s with clk := { s.clk with holdSince := s.isl, phaseLeft := 0 } }
    let s : State := match s.nt.slew with
      | none => s
      | some l => { s with nt := { s.nt with slew := none, held := some l } }.set Reg.NT_STATUS.PENDING 1
                    |>.set Reg.NT_STATUS.SLEWING 0
    (s.bump Reg.CLK_COUNT.HOLDOVERS).setClk .holdover cause
  else s

/-- The duration of the holdover in progress, in ms. -/
def State.holdMs (s : State) : Word := word (min (2 ^ 32 - 1) ((s.isl - s.clk.holdSince) / 8000000))

/-- Holdover is left for a reference (10 R258, R259), whose phase error is then `phase` ps. -/
def State.reacquire (s : State) (ref : Bool) (cause : Nat) (phase : Int) : State :=
  if s.clk.state = .holdover then
    let s := s.wr Reg.CLK_HOLDTIME s.holdMs
    let switched := s.clk.ref != ref
    let s : State := ({ s with clk := { s.clk with ref := ref } }).set Reg.CLK_STATUS.REF (ofBool ref)
    let s : State := if switched then s.postRef ref 2 else s
    (s.setClk .acquire cause).phaseSlew phase
  else s

/-- May a reference be used: PRIMARY, or the other with FALLBACK_EN (10 R258)? -/
def State.refUsable (s : State) (ref : Bool) : Bool :=
  s.refOk ref && (decide (ref = s.primaryRef) || s.flag Reg.CLK_REF_CFG.FALLBACK_EN)

/-- Does `why` make a reference invalid (10 R258): four missing edges, more than 1 % off 1,000 cycles in 10 µs, or in LOCKED more than 1 ns
of phase error of the reference in use? -/
def State.refInvalid (s : State) (ref : Bool) (why : RefFault) : Bool :=
  match why with
  | .edges n => decide (4 ≤ n)
  | .cycles n => decide (n < 990) || decide (1010 < n)
  | .phase e => decide (s.clk.state = .locked) && decide (s.clk.ref = ref) && decide (1000 < e.natAbs)

/-- The cause that EV_CLK_STATE gives for a fault of a reference (log 13). -/
def lossCause (why : RefFault) : Nat :=
  match why with
  | .phase _ => 2
  | _ => 1

/-- A reference becomes invalid (10 R258): the loop goes to holdover and from there to the other reference if that may be used, with the
phase error `phase`. -/
def State.refLoss (s : State) (ref : Bool) (why : RefFault) (phase : Int) : State :=
  if s.refOk ref = true ∧ s.refInvalid ref why = true then
    let s := ((s.setRefOk ref false).bump Reg.CLK_COUNT.REF_LOSS).postRef ref 0
    if s.clk.ref = ref then
      let s := s.enterHoldover (lossCause why)
      if s.refUsable (!ref) then s.reacquire (!ref) 1 phase else s
    else s
  else s

/-- A reference has been valid for 10 ms continuously (10 R258); a search that had no valid reference takes it (16 R407). -/
def State.refQualified (s : State) (ref : Bool) (phase : Int) : State :=
  let since := if ref then s.clk.mraSince else s.clk.refclkSince
  if s.refOk ref = true ∨ s.isl < since + 80000000 then s
  else
    let s := (s.setRefOk ref true).postRef ref 1
    if s.clk.state = .search ∧ s.refOk s.clk.ref = false then
      ({ s with clk := { s.clk with ref := ref } }).set Reg.CLK_STATUS.REF (ofBool ref)
    else if s.refUsable ref then s.reacquire ref 3 phase else s

/-- With REVERT, PRIMARY valid for 10 s is taken again (10 R258), with a free phase error (log 134). -/
def State.refRevert (s : State) : State :=
  let p := s.primaryRef
  let since := if p then s.clk.mraSince else s.clk.refclkSince
  if s.flag Reg.CLK_REF_CFG.REVERT ∧ s.clk.ref ≠ p ∧ s.refOk p = true ∧ since + 10 * oneSecond ≤ s.isl then
    let (v, s) := s.fresh 14
    (s.enterHoldover 4).reacquire p 4 v
  else s

/-- After a write of CLK_REF_CFG, a loop without a reference takes one that it may now use; no command gives its phase error, which is a
free value (log 134). -/
def State.refConfigured (s : State) : State :=
  let p := s.primaryRef
  let r := if s.refUsable p then p else !p
  if s.refUsable r = false then s
  else if s.clk.state = .holdover then
    let (v, s) := s.fresh 14
    s.reacquire r 3 v
  else if s.clk.state = .search ∧ s.refOk s.clk.ref = false then
    ({ s with clk := { s.clk with ref := r } }).set Reg.CLK_STATUS.REF (ofBool r)
  else s

/-- The island's judgement of the DCO, in ppm (10 R260): beyond ±1,000 ppm it enters SAFE_HALT. -/
def State.dcoCheck (s : State) (ppm : Int) : State :=
  if ppm < -1000 ∨ 1000 < ppm then s.safeHalt [] 4 4 else s

/-- Cycles of a monitored clock in a 10 µs window (10 R236, R261): 0 CLK_CELL, 1 HBM controller, 2 CLK_FAB, 3 supervisor,
4 CLK_PIER, 5 the island's oscillator. -/
def windowCycles (clock : Nat) : Nat :=
  match clock with
  | 0 => 16000
  | 1 => 9000
  | 2 => 8000
  | 3 => 8000
  | 4 => 16000
  | _ => 2000

/-- Is a clock gated by design: CLK_CELL while no comb runs (05 R124)? The other monitored clocks run outside SAFE_HALT (R236). -/
def State.gatedNow (s : State) (clock : Nat) : Bool :=
  clock == 0 && (List.range 8).all fun c => s.get (Reg.COMB_STATUS.POWER c) == 0 || s.get (Reg.COMB_STATUS.POWER c) == 3

/-- The count of a clock over a window of CLK_TIME (10 R261): off by more than 1 it enters SAFE_HALT, unless the clock is gated by design.
The island's oscillator is judged by more than 2 %, against CLK_TIME and, over `other`, against the valid reference. -/
def State.clockWindow (s : State) (clock count other : Nat) : State :=
  let dev := (count : Int) - windowCycles clock
  let far := fun n : Nat => decide (40 < ((n : Int) - 2000).natAbs)
  let bad := if clock < 5 then decide (1 < dev.natAbs) && !(s.gatedNow clock)
    else far count && (!(s.refOk s.clk.ref) || far other)
  if bad then
    s.safeHalt [(0x0A06, sevSafety, p1 clock ++ p4 (unsignedOf 32 dev) ++ pb s.clk.ref)] 3 4
  else s

/-- The counts and NT one CLK_TIME cycle later (10 R237): NT advances by 2.5 ns in a cycle that Φ makes longer or shorter. In SAFE_HALT and
while the ADPLL is off only the island's clock runs. -/
def State.advance (s : State) : State :=
  if s.deck.dev = .safeHalt ∨ s.clk.state = .off then { s with nt := { s.nt with isl8 := s.nt.isl8 + 20 } }
  else
    let s := s.rampPhi.islCycle
    { s with nt := { s.nt.move 5 with now8 := s.nt.now8 + 20 } }

end Sys2Proof.Machine
end

