-- ==== Sys2Proof/Machine/Flip.lean ====
section
/-! DEFINITION. The link state of a pier as data, its cable delay and block grid, and the place of its FLIP block (08 R201 to
R204; 10 R242). A delay tap is 5/512 ns; the arithmetic runs in units of 1/(10n) tap, n the number of samples averaged, and
is exact. -/

namespace Sys2Proof.Machine

/-- The link state of a pier without history. -/
def pier0 : PierSt := ⟨0, [], false, none, 0, false, 0, 0, [], 0, none, 0, 0, 0, 0, 0, false, false, none, 0, none, 0, none, 0⟩

/-- The link state of pier `p`. -/
def State.pr (s : State) (p : Nat) : PierSt := s.piers.get (fun _ => pier0) p

/-- The link state of pier `p` replaced. -/
def State.setPr (s : State) (p : Nat) (x : PierSt) : State := { s with piers := s.piers.set (fun _ => pier0) p x }

/-- The state of pier `p` (R206). -/
def State.pierState (s : State) (p : Nat) : Nat := s.get (Reg.PIER_STATUS.STATE p)

/-- The number of samples behind Cp, at least 1. -/
def PierSt.cpDen (x : PierSt) : Nat := max 1 x.cpN

/-- 2 × Cp in units of 1/(64n) of 1/8 ns. -/
def PierSt.cpTwice (x : PierSt) : Int := 5 * x.cpSum

/-- Cp in ps, rounded to the nearest (R204, PIER_p_CABLE). -/
def cpPs (sum : Int) (n : Nat) : Int := divI (625 * sum + 64 * (max 1 n : Nat)) (128 * max 1 n)

/-- The shift of a pier's block grid against 165m/8 ns of NT, in 1/8 ns (10 R242). -/
def State.gridShift (s : State) (p : Nat) : Nat := (s.nt.gridTotal + 165 - s.nt.gridMark.get (fun _ => 0) p) % 165

/-- The pier realigns its grid at electrical idle (10 R242). -/
def State.gridAlign (s : State) (p : Nat) : State :=
  { s with nt := { s.nt with gridMark := s.nt.gridMark.set (fun _ => 0) p s.nt.gridTotal } }

/-- The local time of the first boundary, at or after now, of the block grid of pier `p` as it stands (R202; 09 R222; 10 R242). -/
def State.block8 (s : State) (p : Nat) : Nat :=
  let t := (s.nt.sec * 8000000000 + s.nt.half * 4 + 165 - s.gridShift p) % 165
  s.nt.now8 + (165 - t) % 165

/-- From now to the NT48 instant `t`, in 1/8 ns. -/
def State.until8 (s : State) (t : Nat) : Int := 8 * diff48 t s.nt48 - 4 * (s.nt.half % 2 : Nat)

/-- The flip instant of the frame whose flip is due, as NT48 in ns. -/
def State.flipTarget (s : State) : Nat :=
  match s.deck.flip8 with
  | some t => addNs s.nt48 (divI ((t : Int) - s.nt.now8) 8)
  | none => s.deck.flipNT

/-- Where pier `p` with link state `x` places the FLIP block of a flip at the NT48 instant `target`: the NT48 of the block's start in
ns, FINE and TAP (R202). -/
def State.placeOf (s : State) (p : Nat) (x : PierSt) (target : Nat) : Nat × Nat × Nat :=
  let n : Int := x.cpDen
  let f : Int := ((s.nt.sec * 1000000000 + s.nt.half / 2 : Nat) : Int) + diff48 target s.nt48
  let e := (f - x.kp) * 1024 * n - x.cpTwice
  let r := (s.gridShift p : Int) * 128 * n
  let b := 21120 * n
  let g := Int.fdiv (e - r) b * b + r
  let q := (Int.fdiv (e - g + 5 * n) (10 * n)).toNat
  (addNs 0 (Int.fdiv (g + (q / 2112 : Nat) * b) (1024 * n)), q % 2112 / 32, q % 32)

/-- Where pier `p` places the FLIP block that is due. -/
def State.flipPlace (s : State) (p : Nat) : Nat × Nat × Nat := s.placeOf p (s.pr p) s.flipTarget

/-- The link state of a pier with the Kp and the Cp that the latch point of frame `f` puts in force (R203, R204). -/
def PierSt.atLatch (x : PierSt) (f : Nat) : PierSt :=
  let c := x.cpNext.getD (x.cpSum, x.cpN)
  { x with
    kp := match (x.kpNext.filter fun e => decide (e.1 ≤ f)).getLast? with
      | some e => e.2
      | none => x.kp
    cpSum := c.1, cpN := c.2 }

/-- The start, as NT48 in ns, of the next FLIP block that pier `p` is to emit: of the frame in blanking or in progress, or of the
next frame. -/
def State.nextFlip (s : State) (p : Nat) : Option Nat :=
  let x := s.pr p
  let d := s.deck
  if s.pierState p ≠ 3 then none
  else if x.flipDue then some (s.flipPlace p).1
  else if d.phase = .blank ∨ d.phase = .idle then
    d.nextK.map fun k => (s.placeOf p (x.atLatch (d.frameNum + 1)) (addNs (s.schedS k)
      (s.ac Reg.DECK_LINES.LINES * s.ac Reg.DECK_LINE_PERIOD.PERIOD + s.ac Reg.DECK_FLIP_OFFSET.OFFSET : Nat))).1
  else if x.firstF ≤ d.frameNum then some (s.placeOf p (x.atLatch d.frameNum) (addNs d.latchNT d.flipOffset)).1
  else none

/-- Has the instant at which pier `p` is to emit its FLIP block come? -/
def State.flipCome (s : State) (p : Nat) : Bool := s.due (s.flipPlace p).1

/-- EV_PIER_FLIP_LATE, once per frame for all piers (R203). -/
def State.postFlipLate (s : State) (n : Nat) : State :=
  if n = 0 ∨ s.deck.flipLateEv = true then s
  else ({ s with deck := { s.deck with flipLateEv := true } }).post 0x0804 sevWarn (p2 n)

/-- Every FLIP that is due and whose instant lies in the past is marked late (R203). -/
def State.markFlipsLate (s : State) : State :=
  let ps := (List.range 512).filter fun p => (s.pr p).flipDue && !(s.pr p).flipLate && s.flipCome p
  (ps.foldl (fun s p => s.setPr p { s.pr p with flipLate := true }) s).postFlipLate ps.length

end Sys2Proof.Machine
end

