-- ==== Sys2Proof/Machine/Fault.lean ====
section
/-! DEFINITION. The causes of FS_FAULT_N (17 R411, R420, R423, R424): setting and ending a cause posts EV_FS_FAULT and moves
the pin. The pin is asserted at once; the rule allows up to 10 ms. -/

namespace Sys2Proof.Machine


/-- Does the rectangle of page `g` cover section hogel (x, y) (07 R172)? -/
def State.pageCovers (s : State) (g x y : Nat) : Bool :=
  let x0 := s.get (Reg.KEY_PAGE_POS.X g)
  let y0 := s.get (Reg.KEY_PAGE_POS.Y g)
  let k := s.pageScale g
  decide (x0 ≤ x) && decide (x < x0 + k * s.get (Reg.KEY_PAGE_SIZE.W g))
    && decide (y0 ≤ y) && decide (y < y0 + k * s.get (Reg.KEY_PAGE_SIZE.H g))


/-- SFK_READY and the pin follow FS_CAUSE (R423). -/
def State.faultSync (s : State) : State :=
  let clear := s.rd Reg.FS_CAUSE == 0 && decide (s.deck.dev ≠ .safeHalt)
  let s := s.set Reg.FS_STATUS.SFK_READY (ofBool clear)
  if clear then s else s.faultAssert

/-- EV_FS_FAULT: cause bit, 0 set or 1 ended, pier or 0xFFFF (R432). -/
def State.postFault (s : State) (cause : Nat) (on : Bool) (pier : Nat) : State :=
  s.post 0x1101 sevSafety (p1 cause ++ pb (!on) ++ p2 pier)

/-- A cause of R423 is set or ends. -/
def State.setCause (s : State) (f : Field) (on : Bool) : State :=
  if s.flag f = on then s else ((s.set f (ofBool on)).postFault f.lo on 0xFFFF).faultSync

/-- The echo fault of pier `p` is set or cleared in FS_PIERw, with the cause ECHO (R420, R424). -/
def State.setEchoFault (s : State) (p : Nat) (on : Bool) : State :=
  let f := Reg.FS_PIER.PIER (p / 32)
  if bit (s.get f) (p % 32) = on then s
  else
    let s := s.set f (if on then setBit (s.get f) (p % 32) else clearBit (s.get f) (p % 32))
    let any := (List.range 16).any fun w => s.rd (Reg.FS_PIER w) != 0
    ((s.set Reg.FS_CAUSE.ECHO (ofBool any)).postFault 11 on p).faultSync

/-- The cause PIER_DOWN follows the states of the alarm-covered piers (R423). -/
def State.pierDownSync (s : State) : State :=
  if s.deck.dev = .safeHalt then s
  else s.setCause Reg.FS_CAUSE.PIER_DOWN
    ((List.range 512).any fun p => decide (s.get (Reg.PIER_GEOM.NH p) ≠ 0) && s.alarmCovered p
      && decide (s.get (Reg.PIER_STATUS.STATE p) ≠ 3))

/-- FS_FAULT_RELEASE: the last cause has ended and 100 ms have passed since the assertion (R424). -/
def State.faultRelease (s : State) : State :=
  if s.fs.faultLow = true ∧ s.rd Reg.FS_CAUSE = 0 ∧ s.deck.dev ≠ .safeHalt ∧ s.fs.assertedAt + 800000000 ≤ s.isl then
    (({ s with fs := { s.fs with faultLow := false } }).set Reg.FS_STATUS.FAULT 0).emit (.pin "FS_FAULT_N" true)
  else s

end Sys2Proof.Machine
end

