-- ==== Sys2Proof/Machine/Ray.lean ====
section
/-! DEFINITION. Ray synthesis arithmetic (04 R84 to R103) and the scaler (03 R74): every value of a ray, from the active
descriptors, the buffers, the tables and the recipe, to the composition tap and the output code. -/

namespace Sys2Proof.Machine

/-! Geometry of tiles (08 R206, PIER_p_GEOM). -/

/-- Hogels per row of the tile of pier `p`; 0 when the pier has no tile. -/
def State.geoNh (s : State) (p : Nat) : Nat := s.get (Reg.PIER_GEOM.NH p)
/-- Hogel rows of the tile. -/
def State.geoNv (s : State) (p : Nat) : Nat := s.get (Reg.PIER_GEOM.NV p)
/-- Horizontal views per hogel. -/
def State.geoH (s : State) (p : Nat) : Nat := s.get (Reg.PIER_GEOM.H p)
/-- Vertical views per hogel. -/
def State.geoV (s : State) (p : Nat) : Nat := s.get (Reg.PIER_GEOM.V p)
/-- Rays per hogel of the tile of pier `p`. -/
def State.rays (s : State) (p : Nat) : Nat := s.geoH p * s.geoV p
/-- The piers with a tile. -/
def State.tiles (s : State) : List Nat := (List.range 512).filter fun p => decide (s.geoNh p ≠ 0)

/-! The rounding divide (R85). -/

/-- The rounding divide D of R85. -/
def rdiv (v : Nat) : Nat := (v + 32768 + (v + 32768) / 65536) / 65536

/-! Pixel formats (03 R63, R64). -/

/-- Bits per pixel of a format code of R63. -/
def fmtBits (f : Nat) : Nat :=
  match f with
  | 0 => 40
  | 1 => 32
  | 2 => 8
  | _ => 4

/-- The pixel word that starts at bit `px × b` of the row at byte address `row`; nothing where HBM is uncorrectable. -/
def State.pixelWord (s : State) (row fmt px : Nat) : Nat :=
  let b := fmtBits fmt
  leNat (memRead s.hbm (row + px * b / 8) ((b + 7) / 8)) / 2 ^ (px * b % 8) % 2 ^ b

/-! The scaler (03 R73 to R75). -/

/-- Taps of a tap code. -/
def tapCount (c : Nat) : Nat :=
  match c with
  | 0 => 1
  | 1 => 2
  | 2 => 4
  | 3 => 6
  | _ => 8

/-- A coefficient set that the image does not supply is the single tap (R75). -/
def coefDefault : Nat → Int := fun k => if k % 8 = 0 then 4096 else 0

/-- Coefficient `t` of phase `ph` of set `c`. -/
def State.coefAt (s : State) (c ph t : Nat) : Int := s.layers.coef.get coefDefault (c * 512 + ph * 8 + t)

/-- One component of one pass of the scaler (R74): `x` gives the source code at an index, `n` is the source size. -/
def State.scalePass (s : State) (coef taps n cmax : Nat) (pos : Int) (x : Nat → Nat) : Nat :=
  let at' := fun i : Int => x (clampI i 0 ((n : Int) - 1)).toNat
  if taps = 1 then at' (shrI (pos + 0x8000) 16)
  else
    let base := shrI pos 16
    let ph := modI (shrI pos 10) 64
    let acc := (List.range taps).foldl (fun acc t =>
      acc + s.coefAt coef ph t * (at' (base - (taps / 2 : Nat) + 1 + t) : Nat)) (0 : Int)
    (clampI (shrI (acc + 2048) 12) 0 cmax).toNat

/-- Component `q` (0 R, 1 G, 2 B, 3 A) of a C12A4 or C8A8 pixel word. -/
def pixComp (fmt w q : Nat) : Nat :=
  if fmt = 0 then (if q = 3 then bits w 36 4 else bits w (12 * q) 12) else bits w (8 * q) 8

/-- The largest code of component `q`. -/
def compMax (fmt q : Nat) : Nat := if fmt = 0 then (if q = 3 then 15 else 4095) else 255

/-- Component `q` of scaled-plane pixel (qx, qy) of video layer `n` reading the buffer at `buf` (R74): the vertical pass
first, then the horizontal pass over its codes. -/
def State.scaled (s : State) (n buf : Nat) (qx qy : Nat) (q : Nat) : Nat :=
  let f := s.ac (Reg.LAYER_CTRL.FORMAT n)
  let w := s.ac (Reg.LAYER_SIZE.SRC_W n)
  let h := s.ac (Reg.LAYER_SIZE.SRC_H n)
  let pitch := s.ac (Reg.LAYER_PITCH.PITCH n)
  let c := s.ac (Reg.LAYER_SCALER.COEF n)
  let posY := signed 32 (s.ac (Reg.LAYER_INIT_Y.INIT n)) + (qy : Int) * s.ac (Reg.LAYER_STEP_Y.STEP n)
  let posX := signed 32 (s.ac (Reg.LAYER_INIT_X.INIT n)) + (qx : Int) * s.ac (Reg.LAYER_STEP_X.STEP n)
  let row := fun px => s.scalePass c (tapCount (s.ac (Reg.LAYER_SCALER.VTAPS n))) h (compMax f q) posY
    fun py => pixComp f (s.pixelWord (buf + py * pitch) f px) q
  s.scalePass c (tapCount (s.ac (Reg.LAYER_SCALER.HTAPS n))) w (compMax f q) posX row

/-! Sample coordinates (R87, R88). -/

/-- View offset in half view steps (R87). -/
def viewOff (i h : Nat) : Int := 2 * (i : Int) - ((h : Int) - 1)

/-- A sample coordinate in units of 2^-12 plane pixels (R88). -/
def sampleCoord (org hscale disp x : Int) (off : Int) : Int := shrI (2 * org + 2 * x * hscale + off * disp + 1) 1

/-! Linear values (R90, R91; tables 03 R77, R78). -/

/-- Entry `e` of table `c` of pre-blend LUT slot `slot`. -/
def State.lutAt (s : State) (slot c e : Nat) : Nat := s.layers.lut.get (fun _ => 0) (slot * 12288 + c * 4096 + e)

/-- Entry `e` of the active palette of graphic layer 24 + m. -/
def State.palAt (s : State) (m e : Nat) : Nat := s.layers.pal.get (fun _ => 0) (m * 256 + e)

/-- An 8-bit code as the index of a LUT entry. -/
def code8 (c : Nat) : Nat := c * 16 + c / 16

/-- A premultiplied pixel: R, G, B, alpha. -/
abbrev Pix := Nat × Nat × Nat × Nat

/-- Premultiplication (R91) of LUT values of 12-bit codes with a 16-bit alpha. -/
def State.premul (s : State) (slot r g b a : Nat) : Pix :=
  (rdiv (s.lutAt slot 0 r * a), rdiv (s.lutAt slot 1 g * a), rdiv (s.lutAt slot 2 b * a), a)

/-- A palette entry's colour with alpha `a`. -/
def State.palPix (s : State) (slot e a : Nat) : Pix := s.premul slot (bits e 0 12) (bits e 16 12) (bits e 32 12) a

/-- Scaled-plane pixel (qx, qy) of a video layer, converted and premultiplied (R90, R91). -/
def State.videoPix (s : State) (n buf qx qy : Nat) : Pix :=
  let f := s.ac (Reg.LAYER_CTRL.FORMAT n)
  let slot := s.ac (Reg.LAYER_CTRL.LUT n)
  let c := s.scaled n buf qx qy
  if f = 0 then s.premul slot (c 0) (c 1) (c 2) (c 3 * 0x1111)
  else s.premul slot (code8 (c 0)) (code8 (c 1)) (code8 (c 2)) (c 3 * 257)

/-- Source pixel (px, py) of a graphic layer, converted and premultiplied (R90, R91). -/
def State.graphicPix (s : State) (n buf px py : Nat) : Pix :=
  let f := s.ac (Reg.LAYER_CTRL.FORMAT n)
  let slot := s.ac (Reg.LAYER_CTRL.LUT n)
  let w := s.pixelWord (buf + py * s.ac (Reg.LAYER_PITCH.PITCH n)) f px
  match f with
  | 0 => s.premul slot (bits w 0 12) (bits w 12 12) (bits w 24 12) (bits w 36 4 * 0x1111)
  | 1 => s.premul slot (code8 (bits w 0 8)) (code8 (bits w 8 8)) (code8 (bits w 16 8)) (bits w 24 8 * 257)
  | 4 => s.palPix slot (s.palAt (n - 24) 0) (w * 0x1111)
  | _ =>
    let e := s.palAt (n - 24) w
    s.palPix slot e (bits e 48 4 * 0x1111)

/-! Bilinear interpolation (R92). -/

/-- One component of the bilinear sample. -/
def bilinear (fx fy p00 p10 p01 p11 : Nat) : Nat :=
  ((4096 - fx) * (4096 - fy) * p00 + fx * (4096 - fy) * p10 + (4096 - fx) * fy * p01 + fx * fy * p11 + 8388608) / 2 ^ 24

/-- The sample of a video layer for one ray (R88, R89, R92). -/
def State.videoSample (s : State) (n buf x y : Nat) (oh ov : Int) : Pix :=
  let cx := sampleCoord (signed 32 (s.ac (Reg.LAYER_ORG_X.ORG n))) (s.ac (Reg.LAYER_HSCALE.X n))
    (signed 17 (s.ac (Reg.LAYER_DISP_H.DISP n))) x oh
  let cy := sampleCoord (signed 32 (s.ac (Reg.LAYER_ORG_Y.ORG n))) (s.ac (Reg.LAYER_HSCALE.Y n))
    (signed 17 (s.ac (Reg.LAYER_DISP_V.DISP n))) y ov
  let fx := modI cx 4096
  let fy := modI cy 4096
  let pw : Int := s.ac (Reg.LAYER_PLANE.PLANE_W n)
  let ph : Int := s.ac (Reg.LAYER_PLANE.PLANE_H n)
  let col := fun i : Int => (clampI i 0 (pw - 1)).toNat
  let row := fun i : Int => (clampI i 0 (ph - 1)).toNat
  let ix := shrI cx 12
  let iy := shrI cy 12
  let a := s.videoPix n buf (col ix) (row iy)
  let b := s.videoPix n buf (col (ix + 1)) (row iy)
  let c := s.videoPix n buf (col ix) (row (iy + 1))
  let d := s.videoPix n buf (col (ix + 1)) (row (iy + 1))
  (bilinear fx fy a.1 b.1 c.1 d.1, bilinear fx fy a.2.1 b.2.1 c.2.1 d.2.1,
   bilinear fx fy a.2.2.1 b.2.2.1 c.2.2.1 d.2.2.1, bilinear fx fy a.2.2.2 b.2.2.2 c.2.2.2 d.2.2.2)

/-! The recipe (05 R119) and its stages (R93 to R98). -/

/-- Bytes per recipe slot. -/
def recipeSize : Nat := 14336

/-- A little-endian field of recipe slot `r`. -/
def State.rcp (s : State) (r o n : Nat) : Nat := leNat (memRead s.layers.recipe (r * recipeSize + o) n)

/-- The bytes of recipe slot `r`. -/
def State.recBytes (s : State) (r : Nat) : List Byte := memRead s.layers.recipe (r * recipeSize) recipeSize

/-- A recipe slot is present when MAGIC and CRC are correct and no BLEND field holds 3 (05 R120). -/
def State.recipePresent (s : State) (r : Nat) : Bool :=
  let b := s.recBytes r
  s.rcp r 0 4 == 0x52435031
    && s.rcp r 0x3C 4 == crc32c (b.take 0x3C ++ List.replicate 4 (0 : Byte) ++ b.drop 0x40)
    && (List.range 32).all fun n => decide (bits (s.rcp r 0x40 8) (2 * n) 2 ≠ 3)

/-- The colour matrix (R93). -/
def State.colourMatrix (s : State) (r n : Nat) (p : Pix) : Pix :=
  if bit (s.rcp r 6 2) 0 && bit (s.rcp r 0x48 4) n then
    let m := fun k l => signed 16 (s.rcp r (0x60 + 18 * n + 6 * k + 2 * l) 2)
    let f := fun k => (clampI (shrI (m k 0 * p.1 + m k 1 * p.2.1 + m k 2 * p.2.2.1 + 2048) 12) 0 p.2.2.2).toNat
    (f 0, f 1, f 2, p.2.2.2)
  else p

/-- The depth haze (R94). -/
def State.depthHaze (s : State) (r n : Nat) (p : Pix) : Pix :=
  if bit (s.rcp r 6 2) 1 then
    let depth := if 23 < n then 0 else signed 24 (s.ac (Reg.LAYER_DEPTH.DEPTH n))
    let near := signed 24 (s.rcp r 0x56 4)
    let d := depth - near
    let h := min (s.rcp r 0x5C 2) ((s.rcp r 0x5A 2 * (if d < 0 then 0 else d).toNat + 32768) / 65536)
    let f := fun k c => rdiv ((65535 - h) * c + h * rdiv (s.rcp r (0x50 + 2 * k) 2 * p.2.2.2))
    (f 0 p.1, f 1 p.2.1, f 2 p.2.2.1, p.2.2.2)
  else p

/-- One layer composited over the accumulators C and A (R96). -/
def compositeStep (blend : Nat) (acc p : Pix) : Pix :=
  let t := 65535 - acc.2.2.2
  let add := fun c x => min 65535 (c + rdiv (t * x))
  let a := acc.2.2.2 + rdiv (t * p.2.2.2)
  match blend with
  | 0 => (add acc.1 p.1, add acc.2.1 p.2.1, add acc.2.2.1 p.2.2.1, a)
  | 1 => (add acc.1 p.1, add acc.2.1 p.2.1, add acc.2.2.1 p.2.2.1, acc.2.2.2)
  | _ => (acc.1, acc.2.1, acc.2.2.1, a)

/-- Angular roll-off and view tint (R98). -/
def State.postStages (s : State) (r i k : Nat) (c : Nat × Nat × Nat) : List Nat :=
  let roll := s.rcp r (0x1000 + 2 * k) 2
  let f := fun x => if bit (s.rcp r 6 2) 2 then rdiv (x * roll) else x
  let g := fun q x => if bit (s.rcp r 6 2) 3 then
      min 65535 ((x * s.rcp r (0x2A0 + 6 * i + 2 * q) 2 + 16384) / 32768) else x
  [g 0 (f c.1), g 1 (f c.2.1), g 2 (f c.2.2)]

/-- The layers enabled in the active state. -/
def State.enabledL (s : State) : List Nat := (List.range 32).filter fun n => s.ac (Reg.LAYER_CTRL.ENABLE n) != 0

/-- The layers that are shed. -/
def State.shedL (s : State) : List Nat := bitsSet 32 (s.get Reg.DECK_SHED_STATUS.SHED)

/-- Layers in compositing order (03 R81): ascending PRIO, then ascending number. -/
def State.byPrio (s : State) (ls : List Nat) : List Nat :=
  (List.range 32).flatMap fun pr => ls.filter fun n => s.ac (Reg.LAYER_CTRL.PRIO n) == pr

/-- What a layer that reads no buffer holds. -/
def noShown : Nat → Option Shown := fun _ => none

/-- The layers that contribute to a hogel (R96): enabled, not shed, with a buffer, not switched off by underrun, and for
a graphic layer with the hogel inside its window (03 R72). -/
def State.contributing (s : State) (off : List Nat) (x y : Nat) : List Nat :=
  s.byPrio (s.enabledL.filter fun n =>
    !(s.shedL.contains n) && !(off.contains n) && (s.layers.reading.get noShown n).isSome &&
      (decide (n < 24) ||
        let dx := s.ac (Reg.LAYER_DST.DST_X n)
        let dy := s.ac (Reg.LAYER_DST.DST_Y n)
        decide (dx ≤ x) && decide (x < dx + s.ac (Reg.LAYER_SIZE.SRC_W n)) &&
        decide (dy ≤ y) && decide (y < dy + s.ac (Reg.LAYER_SIZE.SRC_H n))))

/-- The sample of layer `n` for the ray of view (i, j) in section hogel (x, y), after its effect stages. -/
def State.layerSample (s : State) (r n x y : Nat) (oh ov : Int) : Pix :=
  match s.layers.reading.get noShown n with
  | none => (0, 0, 0, 0)
  | some b =>
    let p := if n < 24 then s.videoSample n b.addr x y oh ov
      else s.graphicPix n b.addr (x - s.ac (Reg.LAYER_DST.DST_X n)) (y - s.ac (Reg.LAYER_DST.DST_Y n))
    s.depthHaze r n (s.colourMatrix r n p)

/-- The three 16-bit values that a cell writes for one ray (R86 steps 1 to 9) under recipe slot `r`. -/
def State.rayValue (s : State) (r h v : Nat) (ls : List Nat) (x y i j : Nat) : List Nat :=
  let acc := ls.foldl (fun acc n =>
    if acc.2.2.2 = 65535 then acc
    else compositeStep (bits (s.rcp r 0x40 8) (2 * n) 2) acc (s.layerSample r n x y (viewOff i h) (viewOff j v)))
    ((0, 0, 0, 0) : Pix)
  s.postStages r i (j * h + i) (acc.1, acc.2.1, acc.2.2.1)

/-- The section hogel of tile-local hogel (u, v) of pier `p` (00 R12; log 10). -/
def sectionHogel (p u v : Nat) : Nat × Nat := (Config.tileX p + u, Config.tileY p + v)

/-- Every value of a hogel in ray order (00 R13), under recipe slot `r`, with the layers of `off` switched off. -/
def State.hogelValues (s : State) (r p u v : Nat) (off : List Nat) : List Nat :=
  let xy := sectionHogel p u v
  let ls := s.contributing off xy.1 xy.2
  (List.range (s.rays p)).flatMap fun k =>
    s.rayValue r (s.geoH p) (s.geoV p) ls xy.1 xy.2 (k % s.geoH p) (k / s.geoH p)

/-! Uniformity and output code (R100 to R102). -/

/-- The uniformity gain of a ray and colour (R100). -/
def uniGain (g q step : Nat) : Nat := (clampI ((g : Int) + ((q : Int) - 8) * step) 0 65535).toNat

/-- The corrected value from the product of value and gain (R100). -/
def uniOut (prod : Nat) : Nat := min 65535 ((prod + 16384) / 32768)

/-- The corrected value (R100). -/
def uniApply (v g : Nat) : Nat := uniOut (v * g)

/-- Breakpoint `i` of colour `c` of post-blend set `set`. -/
def State.plutAt (s : State) (set c i : Nat) : Nat := s.port.plut.get (fun _ => 0) (set * 3075 + c * 1025 + i)

/-- The output code of width `w` (R102). -/
def State.outCode (s : State) (set c w v : Nat) : Nat :=
  let k := v / 64
  let f := v % 64
  min (2 ^ w - 1) ((s.plutAt set c k * (64 - f) + s.plutAt set c (k + 1) * f + 512) / 1024)

/-- The residue modulo 15 (R101). -/
def res15 (n : Nat) : Nat := n % 15

/-- The products of values and gains as a pass of a lane delivers them. -/
def laneProducts (vg : List (Nat × Nat)) (b : LaneBad) : List Nat :=
  let ps := vg.map fun e => e.1 * e.2
  match b with
  | .product i got => ps.set i got
  | _ => ps

/-- Does the residue check pass on every product (R101)? -/
def residueOk (vg : List (Nat × Nat)) (ps : List Nat) : Bool :=
  (vg.zip ps).all fun e => res15 (res15 e.1.1 * res15 e.1.2) == res15 e.2

/-- The codes that a pass of a lane delivers with post-blend set `set` at width `w`; none when the residue check fails, or the compare
with the code table for values converted with a Keystone set (R101, R102; 17 R419). -/
def State.lanePass (s : State) (set w : Nat) (vg : List (Nat × Nat)) (want : Option (List Nat)) (b : LaneBad) :
    Option (List Nat) :=
  let ps := laneProducts vg b
  let cs := (ps.zip (List.range ps.length)).map fun e => s.outCode set (e.2 % 3) w (uniOut e.1)
  let cs := match b with
    | .code i got => cs.set i got
    | _ => cs
  if residueOk vg ps && (want.isNone || want == some cs) then some cs else none

/-- Output width in bits of a WIDTH code. -/
def widthBits (c : Nat) : Nat := if c = 0 then 8 else if c = 1 then 10 else 12

end Sys2Proof.Machine
end

