-- ==== Sys2Proof/Machine/Key.lean ====
section
/-! DEFINITION. The Keystone layer (07 R171 to R177; 17 R417 to R419): pages and indices, the KEY_REQ pair, the active page
set of a latch point, the locked sets, and the scrubber. -/

namespace Sys2Proof.Machine

/-! The store (R171, R172). -/

/-- Nibble `n` of the area of page `g`. -/
def State.pageNibble (s : State) (g n : Nat) : Nat :=
  let b := (s.key.store.get zeroByte (0x40000 * g + n / 2)).toNat
  if n % 2 = 0 then b % 16 else b / 16

/-- The number of the nibble of page `g` that serves a section hogel it covers. -/
def State.pagePlace (s : State) (g x y : Nat) : Nat :=
  let k := s.pageScale g
  let px := (x - s.get (Reg.KEY_PAGE_POS.X g)) / k
  let py := (y - s.get (Reg.KEY_PAGE_POS.Y g)) / k
  py * s.get (Reg.KEY_PAGE_SIZE.W g) + px

/-- The index that page `g` gives at a section hogel it covers. -/
def State.pageIndex (s : State) (g x y : Nat) : Nat := s.pageNibble g (s.pagePlace g x y)

/-- The word of the store, of 64 bits, that serves a section hogel from page `g` (R177). -/
def State.pageWord (s : State) (g x y : Nat) : Nat := (0x40000 * g + s.pagePlace g x y / 2) / 8

/-- The active pages in the order of R172: those active by hardware request first. -/
def State.pageOrder (s : State) : List Nat :=
  let hw := s.key.hw &&& s.key.active
  bitsSet 16 hw ++ (bitsSet 16 s.key.active).filter fun g => !(bit hw g)

/-- The page and index of a section hogel: the first index from 1 to 15 that a covering page gives (R172). -/
def State.keystone (s : State) (x y : Nat) : Option (Nat × Nat) :=
  s.pageOrder.findSome? fun g =>
    if s.pageCovers g x y then
      (let i := s.pageIndex g x y
       if i = 0 then none else some (g, i))
    else none

/-- The Keystone index of hogel (u, v) of pier `p` under the present page set. -/
def State.hogelKey (s : State) (p u v : Nat) : Option (Nat × Nat) :=
  let xy := sectionHogel p u v
  s.keystone xy.1 xy.2

/-- The pages whose nibble a lane reads for hogel (u, v) of pier `p`: the covering pages in order, up to the first that gives an index
from 1 to 15 (R172). -/
def State.pagesRead (s : State) (p u v : Nat) : List Nat :=
  let xy := sectionHogel p u v
  let ps := s.pageOrder.filter fun g => s.pageCovers g xy.1 xy.2
  let clear := ps.takeWhile fun g => s.pageIndex g xy.1 xy.2 == 0
  clear ++ (ps.drop clear.length).take 1

/-- The page and index that a lane uses for hogel (u, v) of pier `p`: none where it has read an uncorrectable word in this frame
(R177; log 25). -/
def State.laneKey (s : State) (p u v : Nat) : Option (Nat × Nat) :=
  let xy := sectionHogel p u v
  if (s.pagesRead p u v).any fun g => s.key.eccBad.contains (s.pageWord g xy.1 xy.2) then none else s.hogelKey p u v

/-- The palette colour of an index of a page: R, G, B (R171). -/
def State.keyColour (s : State) (e : Nat × Nat) : List Nat :=
  [0, 1, 2].map fun c => s.key.palette.get (fun _ => 0) (e.1 * 64 + e.2 * 4 + c)

/-- The bytes that the CRC of page `g` covers (R171). -/
def State.pageCrcBytes (s : State) (g : Nat) : List Byte :=
  let n := (s.get (Reg.KEY_PAGE_SIZE.W g) * s.get (Reg.KEY_PAGE_SIZE.H g) + 1) / 2
  memRead s.key.store (0x40000 * g) n
    ++ ((List.range 15).flatMap fun i => (s.keyColour (g, i + 1)).flatMap (leBytes 2))
    ++ leBytes 4 (s.rd (Reg.KEY_PAGE_POS g)).toNat ++ leBytes 4 (s.rd (Reg.KEY_PAGE_SIZE g)).toNat
    ++ leBytes 4 (s.rd (Reg.KEY_PAGE_CFG g)).toNat

/-- Is the CRC of page `g` correct? -/
def State.pageCrcOk (s : State) (g : Nat) : Bool := crc32c (s.pageCrcBytes g) == s.get (Reg.KEY_PAGE_CRC.CRC g)

/-! The locked sets and the code table (17 R418, R419). -/

/-- The codes of the code table for an index of a page, or for black, at the three colours (17 R419). -/
def State.tableCodes (s : State) (w : Nat) (e : Option (Nat × Nat)) : List Nat :=
  let k := e.getD (0, 0)
  s.key.codes.getMany (fun _ => 0) (((k.1 * 16 + k.2) * 3 + w) * 3) 3

/-- The three codes that a lane gives a tap with the Keystone set of WIDTH code `w` (R102). -/
def State.keyCodes (s : State) (w : Nat) (tap : List Nat) : List Nat :=
  [0, 1, 2].map fun c => s.outCode (13 + w) c (widthBits w) (tap.getD c 0)

/-- The code table built in phase 4: key ((page × 16 + index) × 3 + width) × 3 + colour; index 0 holds the code of black. -/
def State.buildCodes (s : State) : Table Nat :=
  (bitsSet 16 (setBit (s.get Reg.KEY_PAGES.PRESENT) 0)).foldl (fun t g =>
    (List.range 16).foldl (fun t i => (List.range 3).foldl (fun t w =>
      t.setMany (fun _ => 0) (((g * 16 + i) * 3 + w) * 3) (s.keyCodes w (if i = 0 then [0, 0, 0] else s.keyColour (g, i)))) t) t) []

/-- The CRCs over sets 13 to 15 and over the code table, whose serialisation is two bytes an entry in key order. -/
def State.lockedCrcs (s : State) : List Nat :=
  ([13, 14, 15].map fun k => crc32c ((s.port.plut.getMany (fun _ => 0) (k * 3075) 3075).flatMap (leBytes 2)))
    ++ [crc32c (s.key.codes.flatMap fun e => leBytes 2 e.2)]

/-! The pair (R174). -/

/-- A change of level on the pair starts the debounce. -/
def State.keyInput (s : State) (a b : Bool) : State :=
  if s.key.pinA = a ∧ s.key.pinB = b then s
  else
    let s : State := { s with key := { s.key with pinA := a, pinB := b, since := s.isl, deb := true } }
    (s.set Reg.KEY_STATUS.REQ_A (ofBool a)).set Reg.KEY_STATUS.REQ_B (ofBool b)

/-- The least debounce time, 0.95 ms, in 1/8 ns (R188 table). -/
def debounceMin : Nat := 7600000

/-- The input fault is set or clears; the pair levels are coded as in KEY_STATUS. -/
def State.keyInputFault (s : State) (on : Bool) : State :=
  if s.flag Reg.KEY_STATUS.INPUT_FAULT = on then s
  else
    let s := s.set Reg.KEY_STATUS.INPUT_FAULT (ofBool on)
    (s.post 0x0702 sevSafety (p1 (ofBool s.key.pinA + 2 * ofBool s.key.pinB) ++ pb (!on))).setCause
      Reg.FS_CAUSE.KEY_INPUT on

/-- The pair value held for the debounce time is registered as request, idle or input fault. -/
def State.keyRegister (s : State) : State :=
  if s.key.deb = false ∨ s.isl < s.key.since + debounceMin then s
  else
    let s : State := { s with key := { s.key with deb := false } }
    if s.key.pinA = s.key.pinB then s.keyInputFault true
    else
      let s := s.keyInputFault false
      let old := s.flag Reg.KEY_STATUS.HW_REQ
      if old = s.key.pinA then s
      else
        ({ s with key := { s.key with reqPrev := old, reqAt := s.nt.now8 } }).set Reg.KEY_STATUS.HW_REQ (ofBool s.key.pinA)

/-! The active set (R175, R25; 17 R417). -/

/-- The hardware request that a latch point uses: a change registered less than 5 µs before it does not count. -/
def State.keyUsed (s : State) : Bool :=
  if s.key.reqAt + 40000 ≤ s.nt.now8 then s.flag Reg.KEY_STATUS.HW_REQ else s.key.reqPrev

/-- The page set of R175 under an alarm mask. -/
def State.pageSet (s : State) (alarm : Nat) : Nat :=
  ((if s.keyUsed then alarm else 0) ||| s.get Reg.KEY_SUP_MASK.PAGES) &&& s.get Reg.KEY_PAGES.PRESENT
    &&& (0xFFFF - s.get Reg.KEY_PAGES.FAILED)

/-- The pages marked failed take effect, and the set of the next frame is taken and compared with the island's own. -/
def State.latchKey (s : State) : State :=
  let s := s.set Reg.KEY_PAGES.FAILED (s.get Reg.KEY_PAGES.FAILED ||| s.key.failNext)
  let alarm := s.get Reg.KEY_ALARM_MASK.PAGES
  let set := s.pageSet alarm
  let hw := if s.keyUsed then alarm &&& set else 0
  let old := s.key.active
  let s : State := { s with
    key := { s.key with failNext := 0, eccBad := [], active := set, hw := hw }
    thm := { s.thm with tripAt := if set = 0 then s.thm.tripAt else none } }
  let s : State := if set = old then s else s.post 0x0701 sevWarn (p2 set ++ p2 hw)
  if s.pageSet s.fs.alarmCopy = set then s else s.setCause Reg.FS_CAUSE.PAGESET true

/-- A supervisor write of KEY_SUP_MASK; the host's is ignored (R175, R189). -/
def State.keySupMask (s : State) (bySup : Bool) (v : Word) : State :=
  if bySup then s.set Reg.KEY_SUP_MASK.PAGES v.toNat else s

/-! Failures (R177). -/

/-- Page `g` fails from the next latch point: cause 0 ECC, 1 CRC. An alarm page sets the cause PAGE (17 R423). -/
def State.failPage (s : State) (g cause : Nat) : State :=
  if bit (s.get Reg.KEY_PAGES.PRESENT) g = false ∨ bit (s.get Reg.KEY_PAGES.FAILED ||| s.key.failNext) g = true then s
  else
    let s : State := { s with key := { s.key with failNext := setBit s.key.failNext g } }
    let s := s.post 0x0703 sevSafety (p1 g ++ p1 cause)
    if bit (s.get Reg.KEY_ALARM_MASK.PAGES) g then s.setCause Reg.FS_CAUSE.PAGE true else s

/-- A lane finds the word of page `g` that it reads for hogel (u, v) of pier `p` uncorrectable. -/
def State.laneEcc (s : State) (p u v : Nat) (ecc : Option Nat) : State :=
  match ecc with
  | none => s
  | some g =>
    if (s.pagesRead p u v).contains g then
      let xy := sectionHogel p u v
      ({ s with key := { s.key with eccBad := s.pageWord g xy.1 xy.2 :: s.key.eccBad } } : State).failPage g 0
    else s

/-- A scrub pass: `ecc` names the pages in which it found an uncorrectable word, `crc` those whose contents an upset had
changed past the code; `locked` tells of an uncorrectable word of the code table (17 R418). -/
def State.keyScrub (s : State) (ecc crc : Nat) (locked : Bool) : State :=
  let s := s.count Reg.KEY_SCRUB.PASSES
  let s := (bitsSet 16 (ecc % 65536)).foldl (fun s g => s.failPage g 0) s
  let s := ((List.range 16).filter fun g => bit crc g || (bit (s.get Reg.KEY_PAGES.PRESENT) g && !(s.pageCrcOk g))).foldl
    (fun s g => s.failPage g 1) s
  if locked = true ∨ s.lockedCrcs ≠ s.key.lockCrc then s.setCause Reg.FS_CAUSE.LOCKED true else s

end Sys2Proof.Machine
end

