-- ==== Sys2Proof/Machine/Line.lean ====
section
/-! DEFINITION. What the pier links and the Moror link share on their lines (08 R192, 11 R267, R268): the 66-bit block with its
scrambler, block lock, the check of a received packet or frame, and the test patterns (08 R211, 11 R275). -/

namespace Sys2Proof.Machine

/-! Blocks (08 R192). -/

/-- A control block of type `ty` with its bytes D1 to D7. -/
def ctlBlock (ty : Byte) (d : List Byte) : Block := ⟨true, ty :: d⟩

/-- A control block whose D7 is the CRC-8 over D1 to D6 (08 R193, 11 R269). -/
def crcBlock (ty : Byte) (d : List Byte) : Block := ctlBlock ty (d ++ [byte (crc8 d)])

/-- Does D7 of a block with bytes D1 to D7 match its CRC-8? -/
def crcOk (d : List Byte) : Bool := d.length == 7 && (d.getD 6 0).toNat == crc8 (d.take 6)

/-- An IDLE block. -/
def idleBlock : Block := ctlBlock 0x1E (List.replicate 7 0)

/-- The data blocks of a payload of whole blocks, the last one filled with zeros. -/
def dataBlocks (payload : List Byte) : List Block :=
  (List.range (ceilDiv payload.length 8)).map fun b =>
    let d := slice payload (8 * b) 8
    ⟨false, d ++ List.replicate (8 - d.length) 0⟩

/-! The scrambler x^58 + x^39 + 1 (08 R192). `st` holds the last 58 bits on the line, the oldest in bit 0. -/

/-- 32 payload bits scrambled, and the scrambler after them. -/
def scrambleHalf (st d : Nat) : Nat × Nat :=
  let o := Nat.xor (Nat.xor d (st % 2 ^ 32)) (st / 2 ^ 19 % 2 ^ 32)
  (o, st / 2 ^ 32 + o * 2 ^ 26)

/-- 32 received bits descrambled, and the descrambler after them. -/
def descrambleHalf (st o : Nat) : Nat × Nat :=
  (Nat.xor (Nat.xor o (st % 2 ^ 32)) (st / 2 ^ 19 % 2 ^ 32), st / 2 ^ 32 + o * 2 ^ 26)

/-- A block on the line: the sync header, 0b01 data and 0b10 control, in bits 1 to 0, and the scrambled payload above it. -/
def Block.word (b : Block) (st : Nat) : Nat × Nat :=
  let d := leNat b.bytes
  let lo := scrambleHalf st (d % 2 ^ 32)
  let hi := scrambleHalf lo.2 (d / 2 ^ 32 % 2 ^ 32)
  ((if b.ctl then 2 else 1) + 4 * (lo.1 + 2 ^ 32 * hi.1), hi.2)

/-- Blocks in the order in which they leave. -/
def lineWords (st : Nat) : List Block → List Nat × Nat
  | [] => ([], st)
  | b :: bs =>
    let w := b.word st
    let r := lineWords w.2 bs
    (w.1 :: r.1, r.2)

/-- The block of 66 received bits; none for a header 0b00 or 0b11. -/
def blockOf (st w : Nat) : Option Block × Nat :=
  let lo := descrambleHalf st (w / 4 % 2 ^ 32)
  let hi := descrambleHalf lo.2 (w / 2 ^ 34 % 2 ^ 32)
  let b := leBytes 8 (lo.1 + 2 ^ 32 * hi.1)
  (match w % 4 with
    | 1 => some ⟨false, b⟩
    | 2 => some ⟨true, b⟩
    | _ => none, hi.2)

/-! Block lock (08 R192, 11 R268). -/

/-- A receiver's lock: whether it holds, the valid headers in succession while it does not, and the last blocks while it does, each
marked when it was bad. -/
structure Lock where
  on   : Bool
  good : Nat
  last : List Bool
deriving DecidableEq, Repr

/-- A receiver that has seen nothing. -/
def noLock : Lock := ⟨false, 0, []⟩

/-- One more block: lock after 16 valid headers in succession, and its loss when 16 of 64 blocks are bad. -/
def Lock.step (l : Lock) (b : BlockSeen) : Lock :=
  if l.on then
    let w := (decide (b ≠ .good) :: l.last).take 64
    if 16 ≤ (w.filter id).length then noLock else { l with last := w }
  else if b = .badHeader then noLock
  else if 15 ≤ l.good then ⟨true, 0, []⟩
  else { l with good := l.good + 1 }

/-- Does a receiver hold lock after these blocks? -/
def lockAfter (l : Lock) (bs : List BlockSeen) : Bool := (bs.foldl Lock.step l).on

/-- Has a receiver that held lock lost it within these blocks? -/
def lockLost : Lock → List BlockSeen → Bool
  | _, [] => false
  | l, b :: bs => !(l.step b).on || lockLost (l.step b) bs

/-! Received packets and frames (08 R194, 11 R277). -/

/-- Is a received packet or frame whole? Its data blocks are those of its length, and the CRC `c` of its bytes is the one received. -/
def rxWhole (e : RxEnd) (len c : Nat) : Bool := !e.cut && e.blocks == ceilDiv len 8 && e.crc == c

/-! Test patterns (08 R211, 11 R275). The spec gives no polynomial, start value or way of counting (log 125). -/

/-- The bit that follows the last ones, the latest first: PRBS7 x^7 + x^6 + 1, PRBS31 x^31 + x^28 + 1, or the square wave. -/
def patternNext (mode : Nat) (h : List Bool) : Bool :=
  match mode with
  | 1 => xor (h.getD 6 false) (h.getD 5 false)
  | 2 => xor (h.getD 30 false) (h.getD 27 false)
  | _ => !(h.getD 0 false)

/-- How many bits determine the pattern: 7, 31 or 1. -/
def patternSeed (mode : Nat) : Nat := if mode = 1 then 7 else if mode = 2 then 31 else 1

/-- The `n` bits of a pattern after the history `h`. -/
def patternFrom (mode : Nat) (h : List Bool) : Nat → List Bool
  | 0 => []
  | n + 1 =>
    let b := patternNext mode h
    b :: patternFrom mode ((b :: h).take 31) n

/-- A pattern as a generator sends it, from the history of all ones; the square wave starts with 1. -/
def patternBits (mode n : Nat) : List Bool :=
  patternFrom mode (if mode = 1 ∨ mode = 2 then List.replicate 31 true else [false]) n

/-- The bits that differ from the pattern which the first of them determine. -/
def patternErrors (mode : Nat) (rx : List Bool) : Nat :=
  let n := patternSeed mode
  let body := rx.drop n
  ((patternFrom mode (rx.take n).reverse body.length).zip body).foldl (fun a e => if e.1 = e.2 then a else a + 1) 0

end Sys2Proof.Machine
end

