-- ==== Sys2Proof/Machine/Vdt.lean ====
section
/-! DEFINITION. Viaduct (09): class queues and weighted fair queueing (R214 to R219), gate lists as data, their validation and
the windows they give (R221 to R229), length-aware closing (R225, R226) and the deadline of a hogel (R228). Times of blocks
are local counts in 1/8 ns; a block is 165 of them (08 R192). -/

namespace Sys2Proof.Machine

/-- A block in 1/8 ns. -/
abbrev blk8 : Nat := 165

/-! Tiles and packets (07 R168, 08 R195). -/

/-- The pier group of a pier. -/
def groupOf (p : Nat) : Nat := p / 32

/-- The effective lead Le of pier `p` (07 R168). -/
def State.effLead (s : State) (p : Nat) : Nat := min (s.ac Reg.DECK_LEAD.LEAD) (1536 / max 1 (s.rays p))

/-- Output width of pier `p` in bits. -/
def State.outWidth (s : State) (p : Nat) : Nat := widthBits (s.ac (Reg.PORT_PIER_CFG.WIDTH p))

/-- Bytes of a hogel on the wire, Bh. -/
def State.hogelBytes (s : State) (p : Nat) : Nat := 8 * ceilDiv (3 * s.rays p * s.outWidth p) 64

/-- RAY packets of a hogel. -/
def State.hogelPackets (s : State) (p : Nat) : Nat := ceilDiv (s.hogelBytes p) 256

/-- Th in 1/8 ns: LEN / 8 + 4 blocks over the packets of a hogel (08 R195). -/
def State.th8 (s : State) (p : Nat) : Nat := (s.hogelBytes p / 8 + 4 * s.hogelPackets p) * blk8

/-- Blocks of a packet from SOP to EOP. -/
def QPkt.blocks (k : QPkt) : Nat := k.payload.length / 8 + 2

/-- The SOP bytes D1 to D7 of a packet (08 R194). -/
def sopBytes (ptype len info : Nat) : List Byte := leBytes 1 ptype ++ leBytes 2 len ++ leBytes 4 info

/-- A packet on the wire: SOP, data blocks, and EOP with the packet CRC (08 R194). -/
def QPkt.wire (k : QPkt) : List Block :=
  let h := sopBytes k.ptype k.payload.length k.info
  ctlBlock 0x78 h :: dataBlocks k.payload ++ [ctlBlock 0x87 (leBytes 4 (crc32c (h ++ k.payload)) ++ leBytes 3 0)]

/-! Queues. -/

/-- A pier with empty queues. -/
def vpier0 : VPier := ⟨[], [], [], 0, none, 0, 0, [], 0, [], 0⟩

/-- The queues of pier `p`. -/
def State.vp (s : State) (p : Nat) : VPier := s.vdt.piers.get (fun _ => vpier0) p

/-- The queues of pier `p` replaced. -/
def State.setVp (s : State) (p : Nat) (v : VPier) : State :=
  { s with vdt := { s.vdt with piers := s.vdt.piers.set (fun _ => vpier0) p v } }

/-- Blocks leave pier `p` at once, scrambled in their order (08 R192). -/
def State.lineOut (s : State) (p : Nat) (bs : List Block) : State :=
  let v := s.vp p
  let w := lineWords v.scr bs
  (s.setVp p { v with scr := w.2 }).emit (.pierLine p w.1)

/-- Blocks outside packets start on pier `p`: at once, or after the packet in transmission. -/
def State.lineSend (s : State) (p : Nat) (bs : List Block) : State :=
  let v := s.vp p
  let s := bs.foldl (fun s b => s.emit (.pierBlock p b)) s
  if v.tx.isSome then s.setVp p { v with sending := v.sending ++ bs } else s.lineOut p bs

/-- The packets queued in class `c`. -/
def VPier.q (v : VPier) (c : Nat) : List QPkt := v.queue.get (fun _ => []) c

/-- Class `c` replaced. -/
def VPier.setQ (v : VPier) (c : Nat) (l : List QPkt) : VPier := { v with queue := v.queue.set (fun _ => []) c l }

/-- The length of a packet in units (R216). -/
def State.units (s : State) (c : Nat) (k : QPkt) : Nat :=
  match c with
  | 0 => k.payload.length + s.get Reg.VDT_OVH.RAY
  | 1 => k.payload.length + s.get Reg.VDT_OVH.BULK
  | _ => 1

/-- COST of a class; 0 acts as 1. -/
def State.wfqCost (s : State) (c : Nat) : Nat := max 1 (s.get (Reg.VDT_WFQ.COST c))

/-- The finish tag of a packet that enters class `c` of pier `p` (R217). -/
def State.finishTag (s : State) (p c : Nat) (k : QPkt) : Nat :=
  let v := s.vp p
  let fl := v.flast.get (fun _ => 0) c
  let idle := (v.q c).isEmpty && !(v.tx.any fun t => t.1 == c)
  let cap := addNs v.v (-((s.get (Reg.VDT_WFQ.BURST c) * s.wfqCost c : Nat) : Int))
  let start := if idle && decide (0 < diff48 cap fl) then cap else fl
  (start + s.units c k * s.wfqCost c) % m48

/-- Has class `c` of pier `p` room for packet `k` (R215)? A TIME packet always has: it replaces the oldest. -/
def State.hasRoom (s : State) (p c : Nat) (k : QPkt) : Bool :=
  let q := (s.vp p).q c
  match c with
  | 0 => decide (q.length < s.effLead p * max 1 (s.hogelPackets p))
  | 1 => decide ((q.foldl (fun a x => a + x.payload.length) 0) + k.payload.length ≤ 16384)
  | 2 => decide (q.length < 32)
  | _ => true

/-- The depth of class `c` of pier `p` in length units (R233). -/
def State.depthOf (s : State) (p c : Nat) : Nat := ((s.vp p).q c).foldl (fun a x => a + s.units c x) 0

/-- The greatest depth of the sampled queue (R233). -/
def State.sampleDepth (s : State) (p c : Nat) : State :=
  if s.vdt.selPier = p ∧ s.vdt.selCls = c then { s with vdt := { s.vdt with depth := max s.vdt.depth (s.depthOf p c) } } else s

/-- A packet enters its class with its tag, at the end or, when it is resent, at place `at'` of the head (R217, R219). -/
def State.enqueuePkt (s : State) (p c : Nat) (k : QPkt) (at' : Option Nat) : State :=
  let f := s.finishTag p c k
  let v := s.vp p
  let k := { k with tag := f, enq8 := s.nt.now8 }
  let q := if c = 3 ∧ 2 ≤ (v.q c).length then (v.q c).drop 1 else v.q c
  let v := v.setQ c (match at' with
    | some i => q.take i ++ k :: q.drop i
    | none => q ++ [k])
  (s.setVp p { v with flast := v.flast.set (fun _ => 0) c f }).sampleDepth p c

/-- A packet outside RAY. -/
def plainPkt (ptype info : Nat) (payload : List Byte) : QPkt := ⟨ptype, info, payload, 0, none, 0, 0, false, 0, 0, false, false, 0⟩

/-- A CTRL packet (08 R197): OP and payload padded to a multiple of 8; SEQ is put in when it is sent. -/
def ctrlPkt (op : Nat) (payload : List Byte) : QPkt :=
  plainPkt 3 (op * 65536) (payload ++ List.replicate ((8 - payload.length % 8) % 8) (0 : Byte))

/-- The OP of a CTRL packet. -/
def QPkt.op (k : QPkt) : Nat := bits k.info 16 8

/-! Gate lists (R221, R222). -/

/-- A group without gating. -/
def vgroup0 : VGroup := ⟨false, none, false, 0, 0, none, none, 0, none, 0⟩

/-- The gating of group `g`. -/
def State.vg (s : State) (g : Nat) : VGroup := s.vdt.groups.get (fun _ => vgroup0) g

/-- The gating of group `g` replaced. -/
def State.setVg (s : State) (g : Nat) (v : VGroup) : State :=
  { s with vdt := { s.vdt with groups := s.vdt.groups.set (fun _ => vgroup0) g v } }

/-- The active bank. -/
def State.bankOf (s : State) (g : Nat) : Nat := s.get (Reg.VDT_G_STATUS.ACTIVE g)

/-- Entries of a bank. -/
def State.bankCount (s : State) (g b : Nat) : Nat := s.get (Reg.VDT_G_B_CFG.COUNT g b)

/-- Are the cycles of a bank Deck frames? -/
def State.frameSync (s : State) (g b : Nat) : Bool := s.flag (Reg.VDT_G_B_CFG.FRAME_SYNC g b)

/-- The GATE word of an entry. -/
def State.gateWord (s : State) (g b e : Nat) : Nat := (s.rd (Reg.VDT_G_B_E_GATE g b e)).toNat

/-- Duration of an entry in 1/8 ns. -/
def State.entry8 (s : State) (g b e : Nat) : Nat := s.get (Reg.VDT_G_B_E_TIME.INTERVAL g b e) * 8

/-- Entries in order of execution, loops expanded (R222). `segment lo e` is the run from `lo` to `e`. -/
def State.entrySeq (s : State) (g b : Nat) : List Nat :=
  (List.range (min 64 (s.bankCount g b))).flatMap fun e =>
    let w := s.gateWord g b e
    let lo := bits w 26 6
    let cnt := bits w 20 6
    if cnt = 0 ∨ e < lo ∨ e + 1 = s.bankCount g b then [e]
    else e :: (List.replicate cnt ((List.range (e - lo + 1)).map (· + lo))).flatten

/-- The entry in effect. -/
def State.gateEntry (s : State) (g : Nat) : Nat :=
  (s.entrySeq g (s.bankOf g)).getD (s.vg g).pos 0

/-- Is the Deck running (02 R451)? -/
def State.deckRunning (s : State) : Bool := s.deck.inFrame

/-- How a group is gated (R224). -/
inductive Gating where
  /-- Every forward class is open. -/
  | allOpen
  /-- Every class but RAY is open: a frame-synchronous list while the Deck is stopped. -/
  | rayClosed
  /-- The list is in force. -/
  | list
deriving DecidableEq, Repr

/-- The gating in force for group `g` (R224, R455). -/
def State.gating (s : State) (g : Nat) : Gating :=
  let v := s.vg g
  if v.on = false ∨ v.failed = true then .allOpen
  else if s.frameSync g (s.bankOf g) && !s.deckRunning then .rayClosed
  else .list

/-- Is class `c` open in GATE word `w`? -/
def openIn (w c : Nat) : Bool := bit w c && !(bit w 4)

/-- The duration of an NT interval that ends at `t`, as a local time. -/
def State.localOf (s : State) (t : Nat) : Nat := ((s.nt.now8 : Int) + s.until8 t).toNat

/-- Is class `c` open for pier group `g` now? -/
def State.classOpen (s : State) (g c : Nat) : Bool :=
  match s.gating g with
  | .allOpen => true
  | .rayClosed => c != 0
  | .list => openIn (s.gateWord g (s.bankOf g) (s.gateEntry g)) c

/-- The local time of the next cycle start of the active bank, as far as it is known. -/
def State.nextCycle8 (s : State) (g : Nat) : Option Nat :=
  if s.frameSync g (s.bankOf g) then s.deck.nextK.map fun k => s.localOf (s.schedS k)
  else (s.vg g).nextC.map fun c => s.localOf c.2

/-- Four blocks, the guard before a REV entry (R223). -/
abbrev guard8 : Nat := 4 * blk8

/-- The instant at which an open last entry closes class `c`: never when entry 0 opens it again. -/
def State.closeTail (s : State) (g c : Nat) : Option Nat :=
  let w := s.gateWord g (s.bankOf g) 0
  if openIn w c then none else (s.nextCycle8 g).map fun t => if bit w 4 then t - guard8 else t

/-- The instant at which class `c` closes, walking from an entry that ends at `t` over the entries that follow. -/
def State.closeWalk (s : State) (g c t : Nat) : List Nat → Option Nat
  | [] => s.closeTail g c
  | e :: es =>
    let w := s.gateWord g (s.bankOf g) e
    if openIn w c then (if es.isEmpty then s.closeTail g c else State.closeWalk s g c (t + s.entry8 g (s.bankOf g) e) es)
    else some (if bit w 4 then t - guard8 else t)

/-- The guard before the next free window of a group without a list in force (08 R199). -/
def State.freeCloses (s : State) : Option Nat :=
  if s.get Reg.PIER_CTRL.FREE_TURN = 0 then none
  else if s.deckRunning then
    (if s.deck.phase = .blank ∧ s.nt.now8 < s.deck.latch8 + 80000 then some (s.deck.latch8 + 80000 - guard8) else none)
  else some (s.nt.now8 + (200000 - s.nt.half / 2 % 200000) * 8 - guard8)

/-- The instant by which a packet of class `c` of group `g` must have ended (R225). -/
def State.classCloses (s : State) (g c : Nat) : Option Nat :=
  match s.gating g with
  | .list =>
    let seq := s.entrySeq g (s.bankOf g)
    let pos := (s.vg g).pos
    s.closeWalk g c ((s.vg g).begun8 + s.entry8 g (s.bankOf g) (seq.getD pos 0)) (seq.drop (pos + 1))
  | _ => s.freeCloses

/-- The length of a cycle of a bank in 1/8 ns: a frame period or CYCLE_NUM / CYCLE_DEN. -/
def State.cycle8 (s : State) (g b : Nat) : Nat :=
  if s.frameSync g b then 8 * s.ac Reg.DECK_PERIOD_NUM.NUM / max 1 (s.ac Reg.DECK_PERIOD_DEN.DEN)
  else 8 * s.get (Reg.VDT_G_B_CYCLE.NUM g b) / max 1 (s.get (Reg.VDT_G_B_CFG.DEN g b))

/-- The entries of a cycle of length `len8` with their offsets: start, end, GATE word. The last entry runs to the end of the
cycle. -/
def State.cycleSegs (s : State) (g b len8 : Nat) : List (Nat × Nat × Nat) :=
  let go := fun (a : List (Nat × Nat × Nat) × Nat) e =>
    let fin := if e + 1 = s.bankCount g b then max (a.2 + 8) len8 else a.2 + s.entry8 g b e
    (a.1 ++ [(a.2, fin, s.gateWord g b e)], fin)
  ((s.entrySeq g b).foldl go ([], 0)).1

/-- The windows of class `c`: maximal runs of entries that open it, less the guard before a REV entry; `next` is the GATE word of
the entry that follows the last one. -/
def classWindows (c next : Nat) : List (Nat × Nat × Nat) → List (Nat × Nat)
  | [] => []
  | (a, b, w) :: rest =>
    if openIn w c then
      let b' := match rest with
        | (_, _, w2) :: _ => if bit w2 4 then b - guard8 else b
        | [] => if bit next 4 then b - guard8 else b
      (match rest with
      | (a2, _, w2) :: _ =>
        if openIn w2 c && a2 == b then
          (match classWindows c next rest with
          | (_, e) :: more => (a, e) :: more
          | [] => [(a, b')])
        else (a, b') :: classWindows c next rest
      | [] => [(a, b')])
    else classWindows c next rest

/-- The entries of two cycles of a bank in a row, in which every window that does not last for ever lies whole once. -/
def twoCycles (segs : List (Nat × Nat × Nat)) : List (Nat × Nat × Nat) :=
  let len := (segs.getLast?.map fun e => e.2.1).getD 0
  segs ++ segs.map fun e => (e.1 + len, e.2.1 + len, e.2.2)

/-- Is a packet of `n` blocks longer than every window of its class in the active bank (R226)? A class without a window
holds its packets. -/
def State.oversize (s : State) (g c n : Nat) : Bool :=
  match s.gating g with
  | .list =>
    let segs := s.cycleSegs g (s.bankOf g) (s.cycle8 g (s.bankOf g))
    let ws := classWindows c (s.gateWord g (s.bankOf g) 0) (twoCycles segs)
    !ws.isEmpty && !(segs.all fun e => openIn e.2.2 c) && ws.all fun w => decide (w.2 < w.1 + n * blk8)
  | _ => false

/-! Entering a queue (R215, R226). -/

/-- A head packet longer than every window is dropped with EV_VDT_OVERSIZE, and a packet held back enters while there is room; at most
`n` packets move. -/
def State.settle (s : State) (p c : Nat) : Nat → State
  | 0 => s
  | n + 1 =>
    let v := s.vp p
    if (v.q c).head?.any fun k => s.oversize (groupOf p) c k.blocks then
      let k := (v.q c).headD (plainPkt 0 0 [])
      let s' := (s.setVp p (v.setQ c ((v.q c).drop 1))).count Reg.VDT_COUNT_OVERSIZE.COUNT
      State.settle (s'.post 0x0903 sevWarn (p2 p ++ p1 c ++ p4 (s.units c k))) p c n
    else match v.offer.find? (fun o => o.1 == c) with
      | none => s
      | some o =>
        if s.hasRoom p c o.2 then
          State.settle ((s.setVp p { v with offer := dropFirst (fun o => o.1 == c) v.offer }).enqueuePkt p c o.2 none) p c n
        else s

/-- The head of class `c` of pier `p` is tested, and what was held back enters as far as there is room. -/
def State.settleHead (s : State) (p c : Nat) : State :=
  s.settle p c (((s.vp p).q c).length + 2 * (s.vp p).offer.length)

/-- A source offers packets to class `c`; they enter as far as there is room, and the rest is held back (R215). -/
def State.offerPkts (s : State) (p c : Nat) (ks : List QPkt) : State :=
  let v := s.vp p
  (s.setVp p { v with offer := v.offer ++ ks.map fun k => (c, k) }).settleHead p c

/-- PACKET_ENQUEUE: a packet of the supervisor's or the host's tile traffic (BULK, CTRL) is offered; for RAY and TIME, which the
port stage and the Deck fill themselves, only what was held back enters (R214, R215). -/
def State.packetEnqueue (s : State) (p c info : Nat) (payload : List Byte) : State :=
  if s.deck.dev = .safeHalt ∨ 511 < p then s
  else
    let n := payload.length
    let ok := decide (8 ≤ n) && decide (n ≤ 256) && n % 8 == 0
    match c with
    | 1 => s.offerPkts p 1 (if ok then [plainPkt 4 (bits info 0 8 * 65536) payload] else [])
    | 2 => s.offerPkts p 2 (if ok then [plainPkt 3 (bits info 0 8 * 65536) payload] else [])
    | c => s.offerPkts p c []

/-! Validation of a bank (R229). -/

/-- Checks 1 to 5 of R229: the first that fails. -/
def State.bankError (s : State) (g b : Nat) : Option Nat :=
  let n := s.bankCount g b
  let es := List.range n
  let w := s.gateWord g b
  let rng := (es.filter fun e => decide (bits (w e) 20 6 ≠ 0)).map fun e => (bits (w e) 26 6, e)
  if n = 0 ∨ 64 < n then some 1
  else if es.any (fun e => decide (e + 1 < n) && decide (s.get (Reg.VDT_G_B_E_TIME.INTERVAL g b e) < 1000)) then some 2
  else if es.any (fun e => bit (w e) 4 && (bits (w e) 0 4 != 0 || e + 1 == n)) then some 3
  else if es.any (fun e => decide (e < bits (w e) 26 6))
      || rng.any (fun r => rng.any fun q => decide (r.2 < q.2) && decide (q.1 ≤ r.2)) then some 4
  else
    let den := s.get (Reg.VDT_G_B_CFG.DEN g b)
    if s.frameSync g b = false ∧ (den < 1 ∨ 64 < den ∨ s.get (Reg.VDT_G_B_CYCLE.NUM g b) < 10000 * den) then some 5 else none

/-- EV_VDT_GATE_ERROR, with VDT_Gg_STATUS.ERR. -/
def State.gateError (s : State) (g b err : Nat) : State :=
  (s.set (Reg.VDT_G_STATUS.ERR g) err).post 0x0902 sevWarn (p1 g ++ p1 b ++ p1 err)

/-- (n × CYCLE_NUM) div CYCLE_DEN of a bank. -/
def State.cycleNs (s : State) (g b : Nat) (n : Int) : Int :=
  divI (n * s.get (Reg.VDT_G_B_CYCLE.NUM g b)) (max 1 (s.get (Reg.VDT_G_B_CFG.DEN g b)))

/-- C(n) = BASE + (n × CYCLE_NUM) div CYCLE_DEN of a bank (R221). -/
def State.cycleC (s : State) (g b : Nat) (n : Int) : Nat :=
  addNs (s.get (Reg.VDT_G_B_BASE_LO.BASE g b) + 2 ^ 32 * s.get (Reg.VDT_G_B_BASE_HI.BASE g b)) (s.cycleNs g b n)

/-- The index of the first C(n) at or after the NT48 instant `t`, which is judged by its signed difference from C(m) (R230). -/
def State.firstCycle (s : State) (g b t : Nat) (m : Int) : Int :=
  let num := max 1 (s.get (Reg.VDT_G_B_CYCLE.NUM g b))
  let den := max 1 (s.get (Reg.VDT_G_B_CFG.DEN g b))
  0 - divI (-((s.cycleNs g b m + diff48 t (s.cycleC g b m)) * (den : Nat))) num

/-- Cycle start `n` with its C(n). -/
def State.cycleAt (s : State) (g b : Nat) (n : Int) : Int × Nat := (n, s.cycleC g b n)

/-! The deadline of a hogel (R228). -/

/-- The actual start of the frame in progress, or S(k) of the next frame, as NT48 (R228). -/
def State.frameStartNt (s : State) : Nat :=
  match s.deck.phase with
  | .blank | .idle => s.schedS (s.deck.nextK.getD s.deck.k)
  | _ => addNs s.nt48 (-(((s.nt.now8 - s.deck.start8) / 8 : Nat) : Int))

/-- The RAY time of the active bank of group `g` between two offsets from the frame start, in 1/8 ns. -/
def State.raySegs (s : State) (g from8 to8 : Nat) : List (Nat × Nat) :=
  let clip := fun (ws : List (Nat × Nat)) => ws.filterMap fun w =>
    let a := max w.1 from8
    let b := min w.2 to8
    if a < b then some (a, b) else none
  if (s.vg g).on = false ∨ (s.vg g).failed = true then [(from8, to8)]
  else
    let b := s.bankOf g
    let ws := fun len : Nat => classWindows 0 (s.gateWord g b 0) (s.cycleSegs g b len)
    if s.frameSync g b then clip (ws (s.cycle8 g b))
    else
      let start := s.frameStartNt
      let n := s.firstCycle g b (addNs start ((from8 / 8 : Nat) : Int)) ((s.vg g).nextC.map (·.1) |>.getD 0) - 1
      clip ((List.range ((to8 - from8) / 80000 + 3)).flatMap fun i =>
        let o := 8 * diff48 (s.cycleC g b (n + (i : Nat))) start
        let len := (8 * diff48 (s.cycleC g b (n + (i : Nat) + 1)) start - o).toNat
        (ws len).filterMap fun w =>
          let e := o + min w.2 len
          if e ≤ 0 then none else some ((o + w.1).toNat, e.toNat))

/-- The latest instant from which `need` of RAY time remains, walking the windows from the last one back. -/
def latestFrom (least need : Nat) : List (Nat × Nat) → Nat
  | [] => least
  | (a, b) :: ws => if need ≤ b - a then b - need else latestFrom least (need - (b - a)) ws

/-- D(p, v, u) as an offset from the actual frame start in 1/8 ns. -/
def State.deadline8 (s : State) (p v u : Nat) : Nat :=
  let lp := s.ac Reg.DECK_LINE_PERIOD.PERIOD * 8
  latestFrom (v * lp) ((s.geoNh p - u) * s.th8 p) (s.raySegs (groupOf p) (v * lp) ((v + 1) * lp)).reverse

/-! Scheduling (R218, R219, R225, R226). -/

/-- Does the state of pier `p` admit packet `k` of class `c` (08 R206)? A pier in LINKUP sends DISCOVER, and TEST (08 R211). -/
def State.admits (s : State) (p c : Nat) (k : QPkt) : Bool :=
  match s.pierState p with
  | 1 => c == 2 && (k.op == 1 || k.op == 5)
  | 2 => c == 2
  | 3 => true
  | 4 => c == 1 || c == 2
  | _ => false

/-- The line of the frame in progress that has started and not ended; the last line ends at the latch point (R220). -/
def Deck.curLine (d : Deck) : Option Nat :=
  match d.phase with
  | .line v => some v
  | .waitLatch => some (d.lines - 1)
  | _ => none

/-- Is line `v` of the frame in progress running? -/
def Deck.inLine (d : Deck) (v : Nat) : Bool := d.curLine == some v

/-- The local time at which line `v` of the frame in progress has run for its period. -/
def Deck.lineEnd8 (d : Deck) (v : Nat) : Nat := d.start8 + (v + 1) * d.linePeriod * 8

/-- The local time at which line `v` of the frame in progress ends for the queues: the last line at the latch point (R220). -/
def State.rayEnd8 (s : State) (v : Nat) : Nat :=
  let e := s.deck.lineEnd8 v
  if v + 1 = s.deck.lines ∧ s.deck.rephased = false then max e (s.localOf s.deck.latchNT) else e

/-- FLIP blocks that pier `p` emits inside a packet of `n` blocks that starts at its next block boundary (R225). -/
def State.flipsInside (s : State) (p n : Nat) : Nat :=
  if (s.pr p).flipDue then
    let d := s.until8 (s.flipPlace p).1 - (s.block8 p - s.nt.now8 : Nat)
    if 0 ≤ d ∧ d < ((n * blk8 : Nat) : Int) then 1 else 0
  else 0

/-- Does packet `k` fit if it starts at the next block boundary (R225)? -/
def State.fits (s : State) (p c : Nat) (k : QPkt) : Bool :=
  let e := s.block8 p + (k.blocks + s.flipsInside p k.blocks) * blk8
  (match s.classCloses (groupOf p) c with
    | none => true
    | some t => decide (e ≤ t))
    && (c != 0 || decide (e ≤ s.rayEnd8 k.line))

/-- The CTRL and BULK packets of a pier that have been sent and not acknowledged, those that wait to be sent again among them
(08 R198). -/
def VPier.unackedN (v : VPier) : Nat := v.unacked.length + ((v.q 1 ++ v.q 2).filter fun k => k.seq.isSome).length

/-- Is the head packet `k` of class `c` open to be sent, apart from fitting (R219)? A packet that is sent again is one of the
unacknowledged ones itself (log 126). -/
def State.mayStart (s : State) (p c : Nat) (k : QPkt) : Bool :=
  s.classOpen (groupOf p) c && s.admits p c k
    && (!(c == 1 || c == 2) || k.seq.isSome || decide ((s.vp p).unackedN < 64))
    && (c != 0 || s.deck.inLine k.line)

/-- A head packet that could start but does not fit is held, and counted once (R226). -/
def State.holdHead (s : State) (p c : Nat) : State :=
  match (s.vp p).q c with
  | [] => s
  | k :: ks =>
    if s.mayStart p c k && !(s.fits p c k) && !k.held then
      let s := s.setVp p ((s.vp p).setQ c ({ k with held := true } :: ks))
      let s := s.bump (Reg.VDT_G_COUNT.HELD (groupOf p))
      if s.vdt.selPier = p ∧ s.vdt.selCls = c then { s with vdt := { s.vdt with held := s.vdt.held + 1 } } else s
    else s

/-- The class whose eligible head has the least tag; ties go to TIME, CTRL, RAY, BULK (R218). -/
def State.pickClass (s : State) (p : Nat) : Option (Nat × QPkt) :=
  [3, 2, 0, 1].foldl (fun best c =>
    match (s.vp p).q c with
    | [] => best
    | k :: _ =>
      if s.mayStart p c k && s.fits p c k then
        (match best with
        | none => some (c, k)
        | some b => if diff48 k.tag b.2.tag < 0 then some (c, k) else best)
      else best) none

/-- The packet with its SEQ in INFO: CTRL and BULK take the next one at their first transmission (08 R198). -/
def VPier.withSeq (v : VPier) (c : Nat) (k : QPkt) : QPkt × VPier :=
  if c = 1 ∨ c = 2 then
    match k.seq with
    | some _ => ({ k with tries := k.tries + 1 }, v)
    | none => ({ k with seq := some v.seq, info := k.info / 4096 * 4096 + v.seq, tries := 1 }, { v with seq := (v.seq + 1) % 4096 })
  else (k, v)

/-- The frame CRC of a pier takes the payload of a RAY packet it sends (07 R188). -/
def State.crcSend (s : State) (p : Nat) (k : QPkt) : State :=
  if k.ptype = 1 then
    let r := (s.port.crcRun.get (fun _ => none) p).getD 0xFFFFFFFF
    { s with port := { s.port with
        crcRun := s.port.crcRun.set (fun _ => none) p (some (k.payload.foldl (crcByte 0x82F63B78) r))
        keyNow := if k.key then s.port.keyNow.set (fun _ => false) p true else s.port.keyNow } }
  else s

/-- The chosen packet starts at the next block boundary (R218). -/
def State.startPkt (s : State) (p c : Nat) (k : QPkt) : State :=
  let v := s.vp p
  let (k, v) := v.withSeq c k
  let at8 := s.block8 p
  let v := { v.setQ c ((v.q c).drop 1) with v := k.tag, tx := some (c, k), txEnd8 := at8 + k.blocks * blk8, sending := k.wire }
  let v := if c = 1 ∨ c = 2 then { v with unacked := v.unacked ++ [(c, k)] } else v
  let s := ((s.setVp p v).crcSend p k).emit (.packet p c k.wire)
  let s : State := if s.vdt.selPier = p ∧ s.vdt.selCls = c then
      { s with vdt := { s.vdt with sent := s.vdt.sent + 1, delay := max s.vdt.delay ((at8 - k.enq8) / 8) } } else s
  s.settleHead p c

/-- Is the line of pier `p` held by a reverse window? The pier idles up to the window's end once the tile's TURN has come
(08 R200). -/
def State.lineHeld (s : State) (p : Nat) : Bool :=
  match (s.pr p).win with
  | none => false
  | some w => !w.turned || decide (s.nt.now8 < w.end8)

/-- VDT_SCHEDULE: at a block boundary with the line free, the eligible head with the least tag starts, or IDLE is sent. -/
def State.vdtSchedule (s : State) (p : Nat) : State :=
  let v := s.vp p
  if s.deck.dev = .safeHalt ∨ 511 < p ∨ v.tx.isSome ∨ s.block8 p < v.eop8 + 2 * blk8 ∨ s.lineHeld p = true
      ∨ s.pierState p = 0 ∨ s.pierState p = 5 ∨ s.pierState p = 6 then s
  else
    let s := [0, 1, 2, 3].foldl (fun s c => (s.settleHead p c).holdHead p c) s
    match s.pickClass p with
    | none => s.lineSend p [idleBlock]
    | some (c, k) => s.startPkt p c k

/-- The slot of a hogel is released (07 R168). -/
def State.releaseSlot (s : State) (p line u : Nat) : State :=
  let l := (s.port.slots.get (fun _ => []) p).filter fun x => !(x.line == line && x.u == u)
  { s with port := { s.port with slots := s.port.slots.set (fun _ => []) p l } }

/-- The transmission of a pier ends (R218): the slot of a finished hogel is released, and a pier whose queues are all empty
restarts its virtual time. -/
def State.txEnd (s : State) (p : Nat) : State :=
  let v := s.vp p
  match v.tx with
  | none => s
  | some (_, k) =>
    let bs := v.sending
    let v := { v with tx := none, eop8 := v.txEnd8, sending := [] }
    let v := if v.queue.isEmpty then { v with v := 0, flast := [] } else v
    let s := (s.setVp p v).lineOut p bs
    if (k.ptype = 1 ∨ k.ptype = 2) ∧ k.last = true then s.releaseSlot p k.line k.u else s

/-! The end of a line (R220). -/

/-- The Keystone content of the hogels of a list. -/
def State.anyKey (s : State) (p v : Nat) (us : List Nat) : Bool := us.any fun u => (s.hogelKey p u v).isSome

/-- EV_VDT_RAY_EXPIRED: once per pier and frame at each severity. -/
def State.postExpired (s : State) (p v n : Nat) (key : Bool) : State :=
  let got := s.vdt.posted.get (fun _ => 0) p
  let s : State := if got = 0 ∨ (key = true ∧ got = 1) then
      ({ s with vdt := { s.vdt with posted := s.vdt.posted.set (fun _ => 0) p (if key then 2 else 1) } }).post 0x0904
        (if key then sevSafety else sevWarn) (p2 p ++ c1 n ++ p1 v)
    else s
  if key then ({ s with vdt := { s.vdt with keyExp := true } }).setCause
      Reg.FS_CAUSE.EXPIRED true
  else s

/-- The key of a section hogel among the taps (04 R99). -/
def tapKey (xy : Nat × Nat) : Nat := xy.2 * 8192 + xy.1

/-- A hogel that has no tap values in the frame. -/
def noTap : Nat → Option Tap := fun _ => none

/-- The hogels of line `v` of pier `p` that were not handed over and sent in full expire (R220); one that is still held back has no
tap (04 R99). -/
def State.expireLine (s : State) (v p : Nat) : State :=
  let d := s.port.doneU.get (fun _ => 0) p
  let first := if d / 64 = v then d % 64 else if d / 64 < v then 0 else 64
  let q := ((s.vp p).q 0 ++ ((s.vp p).offer.filter fun o => o.1 == 0).map (·.2)).filter fun k => k.line == v
  let unsent := (List.range (s.geoNh p)).filter fun u => decide (first ≤ u) || q.any fun k => k.u == u
  let kept := ((s.vp p).offer.filter fun o => o.1 == 0 && o.2.line == v).map fun o => tapKey (sectionHogel p o.2.u v)
  let s := s.setVp p (let w := s.vp p
    { w.setQ 0 ((w.q 0).filter fun k => k.line != v) with offer := w.offer.filter fun o => !(o.1 == 0 && o.2.line == v) })
  let s : State := { s with port := { s.port with
    slots := s.port.slots.set (fun _ => []) p ((s.port.slots.get (fun _ => []) p).filter fun x => x.line != v)
    nextU := s.port.nextU.set (fun _ => 0) p (max (s.port.nextU.get (fun _ => 0) p) ((v + 1) * 64))
    doneU := s.port.doneU.set (fun _ => 0) p (max d ((v + 1) * 64))
    tap := kept.foldl (fun t k => t.set noTap k none) s.port.tap } }
  let s := s.settleHead p 0
  if s.pierState p = 3 ∧ v < s.geoNv p ∧ unsent ≠ [] ∧ s.deck.frameNum ≥ (s.pr p).firstF then
    let s := s.wr Reg.VDT_COUNT_EXPIRED (s.rd Reg.VDT_COUNT_EXPIRED + word unsent.length)
    let s : State := if s.vdt.selPier = p ∧ s.vdt.selCls = 0 then
        { s with vdt := { s.vdt with expired := s.vdt.expired + unsent.length } } else s
    s.postExpired p v unsent.length (s.anyKey p v unsent)
  else s

/-- Line `v` ends on every pier. -/
def State.endLine (s : State) (v : Nat) : State := s.tiles.foldl (State.expireLine · v ·) s

/-! The snapshot (R233). -/

/-- The sampled queue is snapshotted at the latch point, and a new selection takes effect; what is queued then counts for the next
frame. -/
def State.latchVdt (s : State) : State :=
  let v := s.vdt
  let s := s.wr Reg.VDT_SAMPLE_DEPTH (word (min v.depth 0xFFFFFF))
  let s := s.wr Reg.VDT_SAMPLE_DELAY (word (min v.delay 0xFFFFFFFF))
  let s := s.wr Reg.VDT_SAMPLE_SENT (word (min v.held 0xFFFF * 65536 + min v.sent 0xFFFF))
  let s := s.wr Reg.VDT_SAMPLE_EXPIRED (word (if v.selCls = 0 then min v.expired 0xFFFF else 0))
  let s := s.wr Reg.VDT_SAMPLE_GEN (word (s.deck.frameNum % 2 ^ 31))
  { s with
    vdt := { s.vdt with
      depth := s.depthOf (s.get Reg.VDT_SAMPLE_SEL.PIER) (s.get Reg.VDT_SAMPLE_SEL.CLASS)
      delay := 0, sent := 0, held := 0, expired := 0, posted := [], keyExp := false
      selPier := s.get Reg.VDT_SAMPLE_SEL.PIER, selCls := s.get Reg.VDT_SAMPLE_SEL.CLASS }
    fs := { s.fs with expiredLast := s.vdt.keyExp } }

end Sys2Proof.Machine
end

