-- ==== Sys2Proof/Machine/Hbm.lean ====
section
/-! DEFINITION. What the HBM controller does beside its requests (12 R304 to R311, R315 to R317): refresh, temperature, self-refresh,
retraining, the scrubber, initial training and the wipe. -/

namespace Sys2Proof.Machine

/-- `n` refresh commands are issued on pseudo-channel `pc`, in rotation over its banks: each closes its bank (R304, R305). -/
def State.issueRefresh (s : State) (pc : Nat) : Nat → State
  | 0 => s
  | n + 1 =>
    let b := s.hc.refBank.get (fun _ => 0) pc
    let s := s.closeBank (32 * pc + b)
    State.issueRefresh { s with hc := { s.hc with refBank := s.hc.refBank.set (fun _ => 0) pc ((b + 1) % 32) } } pc n

/-- The refresh commands that pseudo-channel `pc` is behind. -/
def State.behindBy (s : State) (pc n : Nat) : State := { s with hc := { s.hc with behind := s.hc.behind.set (fun _ => 0) pc n } }

/-- HBM_REFRESH: a refresh falls due on pseudo-channel `pc`; it waits for a level-0 request to its bank while fewer than 8 are
behind (R305). -/
def State.hbmRefresh (s : State) (pc : Nat) (busy : Bool) : State :=
  let st := s.get Reg.HBM_STATUS.STATE
  if 15 < pc ∨ st ≠ 3 then s
  else
    let n := s.hc.behind.get (fun _ => 0) pc + 1
    let issue := if busy then n / 8 else n
    (s.behindBy pc (n - issue)).issueRefresh pc issue

/-- HBM_TEMP_READ: the stack's temperature report halves tREFI from 85 °C and restores it below 82 °C (R306). -/
def State.hbmTemp (s : State) (t : Nat) : State :=
  let st := s.get Reg.HBM_STATUS.STATE
  if st < 3 ∨ s.deck.dev = .safeHalt then s
  else
    let s := (s.set Reg.HBM_TEMP.VALID 1).set Reg.HBM_TEMP.TEMP t
    let c := signed 8 t
    let old := s.flag Reg.HBM_STATUS.HOT
    let hot := if 85 ≤ c then true else if c < 82 then false else old
    if hot = old then s
    else (s.set Reg.HBM_STATUS.HOT (ofBool hot)).post 0x0C06 sevInfo (p1 t ++ pb (!hot))

/-- Has no source had a request for SR_IDLE µs (R307)? -/
def State.hbmIdle (s : State) : Bool := decide (s.hc.lastReq + 8000 * max 1 (s.get Reg.HBM_PM_CFG.SR_IDLE) ≤ s.isl)

/-- HBM_SR_ENTRY: every open bank is precharged, the stack enters self-refresh and the PHY clock is gated (R307). An entry that a request
abandons (R308) is one that this command does not make (log 116). -/
def State.srEntry (s : State) : State :=
  let st := s.get Reg.HBM_STATUS.STATE
  if st = 3 ∧ s.flag Reg.HBM_PM_CFG.SR_EN = true ∧ s.hbmIdle = true ∧ s.deck.dev ≠ .safeHalt then
    let s := s.closeAll
    ({ s with hc := { s.hc with srAt := s.isl, phyOff := true } }.set Reg.HBM_STATUS.STATE 4).post 0x0C04 sevInfo
      (p1 0 ++ p4 (max 1 (s.get Reg.HBM_PM_CFG.SR_IDLE)))
  else s

/-! Retraining (R310, R311). -/

/-- HBM_TRAIN_REQ: the supervisor makes pseudo-channels due. -/
def State.trainReq (s : State) (bySup : Bool) (v : Word) : State :=
  if bySup then (bitsSet 16 v.toNat).foldl (fun s pc => s.trainDue pc 3) s else s

/-- Has the INTERVAL since the last training of a pseudo-channel passed? -/
def State.trainLate (s : State) (pc : Nat) : Bool :=
  decide (s.hc.lastTrain.get (fun _ => 0) pc + oneSecond * max 1 (s.get Reg.HBM_TRAIN_CFG.INTERVAL) ≤ s.isl)

/-- Has Tj moved by TEMP_STEP since the last training of a pseudo-channel? -/
def State.trainWarm (s : State) (pc : Nat) : Bool :=
  decide (64 * max 1 (s.get Reg.HBM_TRAIN_CFG.TEMP_STEP)
    ≤ (signed 16 (s.get Reg.THM_TJ.TJ) - s.hc.lastTj.get (fun _ => 0) pc).natAbs)

/-- Pseudo-channels that Tj makes due: it is compared with that of their last training after every sample (R310; 14 R340). -/
def State.warmTriggers (s : State) : State :=
  if s.hbmHolds then s else (List.range 16).foldl (fun s pc => if s.trainWarm pc then s.trainDue pc 1 else s) s

/-- Pseudo-channels that have become due by time or temperature. -/
def State.trainTriggers (s : State) : State :=
  (List.range 16).foldl (fun s pc =>
    if s.trainLate pc then s.trainDue pc 0 else if s.trainWarm pc then s.trainDue pc 1 else s) s

/-- The pseudo-channel that the next pause serves: those that retry first, then in ascending number. -/
def State.trainNext (s : State) : Option Nat :=
  let due := (List.range 16).filter fun pc =>
    (s.hc.due.get (fun _ => none) pc).isSome && !(bit (s.get Reg.HBM_STATUS.FAILED) pc)
  (due.find? fun pc => decide (0 < s.hc.fails.get (fun _ => 0) pc)).orElse fun _ => due.head?

/-- May a pause start now: at L(k) + 8 µs once per frame, or every 100 µs while the Deck is stopped (02 R451)? -/
def State.pauseDue (s : State) : Bool :=
  if s.deckRunning then
    decide (s.deck.phase = .blank) && decide (s.deck.latch8 + 64000 ≤ s.nt.now8) && s.hc.pauseF != some s.deck.frameNum
  else decide (s.hc.pauseAt + 800000 ≤ s.nt.now8)

/-- A pseudo-channel is no longer due. -/
def State.trainDone (s : State) (pc : Nat) : State :=
  { s with hc := { s.hc with due := s.hc.due.set (fun _ => none) pc none, fails := s.hc.fails.set (fun _ => 0) pc 0 } }

/-- EV_HBM_TRAIN: result 0 setting kept, 1 marked MARGINAL. -/
def State.postTrain (s : State) (pc result : Nat) : State :=
  s.post 0x0C01 (if result = 1 then sevError else sevWarn)
    (p1 pc ++ p1 ((s.hc.due.get (fun _ => none) pc).getD 0) ++ p1 result ++ p1 (s.get (Reg.HBM_PC_STATUS.RETRIES pc)))

/-- The training of pseudo-channel `pc` is over: its interval and its temperature step start anew. -/
def State.trainOver (s : State) (pc : Nat) : State :=
  let s := s.trainDone pc
  { s with hc := { s.hc with
    lastTrain := s.hc.lastTrain.set (fun _ => 0) pc s.isl
    lastTj := s.hc.lastTj.set (fun _ => 0) pc (signed 16 (s.get Reg.THM_TJ.TJ)) } }

/-- A setting of pseudo-channel `pc` works. -/
def State.trainPass (s : State) (pc : Nat) : State :=
  (((s.bump (Reg.HBM_PC_STATUS.TRAINS pc)).set (Reg.HBM_PC_STATUS.RETRIES pc) 0).set (Reg.HBM_PC_STATUS.MARGINAL pc) 0).trainOver pc

/-- No setting of pseudo-channel `pc` works; after three retries it is marginal. -/
def State.trainFail (s : State) (pc : Nat) : State :=
  let n := s.hc.fails.get (fun _ => 0) pc + 1
  let s : State := { s with hc := { s.hc with fails := s.hc.fails.set (fun _ => 0) pc n } }
  let s := s.set (Reg.HBM_PC_STATUS.RETRIES pc) (min 3 (n - 1))
  if n < 4 then s.postTrain pc 0 else ((s.set (Reg.HBM_PC_STATUS.MARGINAL pc) 1).postTrain pc 1).trainOver pc

/-- The traffic of pseudo-channel `pc` pauses for its training: its rows are closed (R304), and the refreshes that have fallen due are
issued (R310). -/
def State.trainPauseAt (s : State) (pc : Nat) : State :=
  let s : State := { s with hc := { s.hc with pauseAt := s.nt.now8, pauseF := some s.deck.frameNum } }
  ((s.closePc pc).issueRefresh pc (s.hc.behind.get (fun _ => 0) pc)).behindBy pc 0

/-- Does a setting work whose least eye over all pins and both sides is `eye` (R309)? -/
def State.eyeWorks (s : State) (eye : Nat) : Bool := decide (max 1 (s.get Reg.HBM_TRAIN_CFG.MIN_EYE) ≤ eye)

/-- HBM_RETRAIN_PAUSE: one due pseudo-channel is retrained; `eye` is the least eye of the best setting that the search finds. -/
def State.retrainPause (s : State) (eye : Nat) : State :=
  if s.get Reg.HBM_STATUS.STATE ≠ 3 ∨ s.flag Reg.HBM_TRAIN_CFG.EN = false ∨ s.deck.dev = .safeHalt ∨ s.pauseDue = false then s
  else match s.trainTriggers.trainNext with
    | none => s.trainTriggers
    | some pc =>
      let s := s.trainTriggers.trainPauseAt pc
      if s.eyeWorks eye then s.trainPass pc else s.trainFail pc

/-! The scrubber (R315). -/

/-- A burst that needed correction on two successive passes is a hard error (R313). -/
def State.scrubCorrected (s : State) (a symbols : Nat) : State :=
  let s : State := { s with hc := { s.hc with corrNow := s.hc.corrNow ++ [a] } }
  if s.hc.corrLast.contains a then
    let pc := s.hbmPc a
    (s.bump (Reg.HBM_PC_ECC.HARD pc)).post 0x0C02 sevWarn (p1 pc ++ p8 a ++ p1 symbols ++ p2 1)
  else s

/-- The scrubber moves on by one burst; at the end of the stack a pass is complete. -/
def State.scrubNext (s : State) : State :=
  let p := s.hc.scrubPos + 32
  if hbmSize ≤ p then
    ({ s with hc := { s.hc with scrubPos := 0, corrLast := s.hc.corrNow, corrNow := [] } }.count
      Reg.HBM_SCRUB_STATUS.PASSES).set Reg.HBM_SCRUB_STATUS.PROGRESS 0
  else { s with hc := { s.hc with scrubPos := p } }.set Reg.HBM_SCRUB_STATUS.PROGRESS (p / 2 ^ 18)

/-- HBM_SCRUB: the scrubber reads the next burst in address order. -/
def State.hbmScrub (s : State) (find : HbmFind) : State :=
  let st := s.get Reg.HBM_STATUS.STATE
  if st ≠ 3 ∨ s.flag Reg.HBM_SCRUB_CFG.EN = false ∨ s.deck.dev = .safeHalt then s
  else
    let a := s.hc.scrubPos
    let r := (s.hbmTouch 10 a 32).burstFound a 10 find
    (if r.2 = 0 then r.1 else r.1.scrubCorrected a r.2).scrubNext

/-! Training at start-up and the wipe (R309, R317). -/

/-- HBM_GO starts the initial training (16 R394). -/
def State.hbmGo (s : State) : State :=
  let st := s.get Reg.HBM_STATUS.STATE
  if st = 0 ∧ s.clk.state = .locked then s.set Reg.HBM_STATUS.STATE 1 else s

/-- The pseudo-channels for which no setting works, from the least eye that the search finds for each (R309). -/
def State.badEyes (s : State) (eyes : List Nat) : Nat := maskOf ((List.range 16).filter fun pc => !(s.eyeWorks (eyes.getD pc 0)))

/-- HBM_WIPE_DONE: training and the wipe are complete. `eyes` gives the eye of each pseudo-channel, `us` the duration of the wipe. Every
burst of the pseudo-channels that work holds 0. -/
def State.wipeDone (s : State) (eyes : List Nat) (us : Nat) : State :=
  let st := s.get Reg.HBM_STATUS.STATE
  if st ≠ 1 ∧ st ≠ 2 then s
  else
    let bad := s.badEyes eyes
    let s := (bitsSet 16 bad).foldl (fun s pc => s.pcFails pc 3 0 0xFF) s
    let s : State := { s with
      hbm := s.hbm.filter fun e => bit bad (s.hbmPc e.1)
      hc := { s.hc with
        rows := []
        lastReq := s.isl
        lastTrain := (List.range 16).foldl (fun t pc => t.set (fun _ => 0) pc s.isl) s.hc.lastTrain
        lastTj := (List.range 16).foldl (fun t pc => t.set (fun _ => 0) pc (signed 16 (s.get Reg.THM_TJ.TJ))) s.hc.lastTj } }
    ((s.set Reg.HBM_STATUS.STATE 3).wr Reg.HBM_WIPE_TIME (word us)).post 0x0C05 sevInfo
      (p4 us ++ p1 (16 - popCount 16 bad))

end Sys2Proof.Machine
end

