-- ==== Sys2Proof/Machine/Commit.lean ====
section
/-! DEFINITION. Shadows and commits (02 R37 to R47, R452; 03 R61, R62, R65, R66, R70 to R76; 05 R118, R120; 06 R129;
07 R178, R182): shadow writes, GO, validation against the projected state, CANCEL, and the application at a latch point. -/

namespace Sys2Proof.Machine

/-! Writers and shadows. -/

/-- Does a requester act as the supervisor? The REG windows do in TEST (02 R37, 11 R285). -/
def State.actsSup (s : State) (r : Req) : Bool :=
  match r with
  | .sup => true
  | .portA => decide (s.boot.lc = .test)
  | .portB => decide (s.boot.lc = .test)
  | .ctrl => false

/-- The writer that a requester's writes count as (02 R37). -/
def State.writerOf (s : State) (r : Req) : Writer := if s.actsSup r then .supervisor else .host

/-- The layer whose descriptor holds the word at `a`, if any. -/
def layerOf (a : Nat) : Option Nat :=
  if 0x12000000 ≤ a ∧ a < 0x12001000 then some ((a - 0x12000000) / 0x80) else none

/-- The owner of layer `n` (03 R61). -/
def State.layerOwner (s : State) (n : Nat) : Writer :=
  if s.flag (Reg.LAYER_INFO.OWNER n) then .supervisor else .host

/-- May `w` write the shadow at `a` (03 R61)? -/
def State.ownsShadow (s : State) (w : Writer) (a : Nat) : Bool :=
  match layerOf a with
  | some n => decide (s.layerOwner n = w)
  | none => true

/-- EV_LAYER_OWNER for an ignored write (03 R61, R83): the register's offset counts from the base of the block (00 R8). -/
def State.postOwner (s : State) (w : Writer) (a : Nat) : State :=
  s.post 0x0301 sevWarn (p1 ((a - 0x12000000) / 0x80) ++ p2 (a - 0x12000000) ++ p1 w.code)

/-- What a shadow word that is not dirty holds. -/
def clean : Nat → Option Writer := fun _ => none

/-- The RWS bits of the word at `a`. -/
def rwsMask (a : Nat) : Nat :=
  match specOf a with
  | some r => r.rws
  | none => 0

/-- The shadow at `a` set, marked dirty and its writer recorded (02 R37); a word that the other writer had marked dirty
changes hands with EV_SUP_SHADOW_CONFLICT (15 R370). -/
def State.shadowPut (s : State) (w : Writer) (a : Nat) (v : Word) : State :=
  let old := s.dirty.get clean a
  let s : State := { s.wr a (mergeBits (s.rd a) v (rwsMask a)) with dirty := s.dirty.set clean a (some w) }
  match old with
  | none => s
  | some o => if o = w then s else s.post 0x0F01 sevWarn (p4 a ++ p1 o.code ++ p1 w.code)

/-- A write of a shadow word by writer `w`: ignored, with EV_LAYER_OWNER, when `w` does not own the layer (03 R61). -/
def State.shadowWrite (s : State) (w : Writer) (a : Nat) (v : Word) : State :=
  if s.ownsShadow w a then s.shadowPut w a v else s.postOwner w a

/-! The status of commits (02 R45). -/

/-- The word DECK_COMMIT_STATUSm_A of a commit: STATE, LATE and the identity. -/
def Commit.statusWord (c : Commit) (st : Nat) (late : Bool) : Word :=
  word (c.seq * 2 ^ 16 + c.tag % 256 * 2 ^ 8 + c.writer.code * 2 ^ 7 + ofBool late * 2 ^ 6 + st * 2 ^ 3)

/-- Does the status entry m = SEQ mod 16 still belong to the commit? The GO of SEQ + 16 takes it over. -/
def State.ownsEntry (s : State) (c : Commit) : Bool := decide (s.get (Reg.DECK_COMMIT_STATUS_A.SEQ (c.seq % 16)) = c.seq)

/-- A commit takes its status entry at its GO, with STATE 1, whatever older commit held it. -/
def State.commitOpen (s : State) (c : Commit) : State :=
  let m := c.seq % 16
  ((s.wr (Reg.DECK_COMMIT_STATUS_A m) (c.statusWord 1 false)).wr (Reg.DECK_COMMIT_STATUS_FRAME m) 0).wr
    (Reg.DECK_COMMIT_STATUS_CODE m) 0

/-- The status entry of a commit, while it holds one: STATE and LATE. -/
def State.commitStatus (s : State) (c : Commit) (st : Nat) (late : Bool) : State :=
  if s.ownsEntry c then s.wr (Reg.DECK_COMMIT_STATUS_A (c.seq % 16)) (c.statusWord st late) else s

/-- FRAME and CODE of the status entry of a commit, while it holds one. -/
def State.commitResult (s : State) (c : Commit) (frame code detail : Nat) : State :=
  let m := c.seq % 16
  if s.ownsEntry c then
    (s.wr (Reg.DECK_COMMIT_STATUS_FRAME m) (word frame)).wr (Reg.DECK_COMMIT_STATUS_CODE m) (word (code * 2 ^ 8 + detail))
  else s

/-- The pending commits replaced, with DECK_COMMIT_QUEUE.PENDING. -/
def State.setCommits (s : State) (cs : List Commit) : State :=
  ({ s with deck := { s.deck with commits := cs } }).set Reg.DECK_COMMIT_QUEUE.PENDING cs.length

/-- A commit is rejected (02 R39, R46). -/
def State.rejectCommit (s : State) (c : Commit) (code detail : Nat) : State :=
  let s := s.setCommits (s.deck.commits.filter fun x => x.seq != c.seq)
  ((s.commitStatus c 4 false).commitResult c 0 code detail).post 0x0202 sevWarn
    (p2 c.seq ++ p1 c.tag ++ p1 c.writer.code ++ p1 code ++ p1 detail)

/-- The SEQ after `q`: it wraps from 0xFFFF to 0x0001 (02 R45). -/
def nextSeq (q : Nat) : Nat := if 0xFFFF ≤ q then 1 else q + 1

/-- The dirty words of a writer with their values (02 R38). -/
def State.captured (s : State) (w : Writer) : List (Nat × Word) :=
  (s.dirty.filter fun e => decide (e.2 = some w)).map fun e => (e.1, s.rd e.1)

/-- A GO (02 R38, R42, R45): a SEQ is assigned; the commit is rejected with STATE or QFULL, or the writer's dirty words
are captured and the commit waits for its validation. The dirty marks stay on a rejection (log 11). -/
def State.commitGo (s : State) (w : Writer) (tag : Nat) (target : Option Nat) : State :=
  let q := nextSeq (s.get Reg.DECK_COMMIT_SEQ.LAST)
  let ws := s.captured w
  let s := s.set Reg.DECK_COMMIT_SEQ.LAST q
  let c : Commit := ⟨q, tag % 256, w, target, ws, false, false, false⟩
  let s := s.commitOpen c
  let taken := s.dirty.filter fun e => decide (e.2 ≠ some w)
  if s.deck.dev = .safeHalt then ({ s with dirty := taken }).rejectCommit c 0x0C 0
  else if 4 ≤ s.deck.commits.length then s.rejectCommit c 0x0B 0
  else
    ({ s with dirty := taken } : State).setCommits (s.deck.commits ++ [c])

/-! Validation (02 R39, R46). `p` is a table of active copies: the projected state. -/

/-- A field of a projected state. -/
def pf (p : Table Word) (f : Field) : Nat := fieldOf (p.get resetWord f.addr) f

/-- The words of a commit applied to a table of active copies. -/
def applyWords (p : Table Word) (ws : List (Nat × Word)) : Table Word :=
  ws.foldl (fun p e => p.set resetWord e.1 e.2) p

/-- The projected state before commit `c`: the active state with every earlier accepted commit (02 R39). -/
def State.projected (s : State) (seq : Nat) : Table Word :=
  (s.deck.commits.takeWhile fun x => x.seq != seq).foldl (fun p x => if x.valid then applyWords p x.words else p) s.act

/-- The enabled layers of a projected state. -/
def enabledOf (p : Table Word) : List Nat := (List.range 32).filter fun n => pf p (Reg.LAYER_CTRL.ENABLE n) != 0

/-- The blanking Bmin of R29. -/
def bminOf (p : Table Word) : Int :=
  ((pf p Reg.DECK_PERIOD_NUM.NUM / pf p Reg.DECK_PERIOD_DEN.DEN : Nat) : Int)
    - (pf p Reg.DECK_LINES.LINES * pf p Reg.DECK_LINE_PERIOD.PERIOD : Nat)

/-- PERIOD (02 R28, R29, R46): the DETAIL of the first condition that fails. -/
def State.checkPeriod (s : State) (p : Table Word) : Option Nat :=
  let num := pf p Reg.DECK_PERIOD_NUM.NUM
  let den := pf p Reg.DECK_PERIOD_DEN.DEN
  let lines := pf p Reg.DECK_LINES.LINES
  if den < 1 ∨ 64 < den then some 2
  else if 240 * num < 1000000000 * den ∨ 1000000000 * den < 24 * num then some 0
  else if lines < 1 ∨ 64 < lines ∨ s.tiles.any (fun q => decide (lines < s.geoNv q)) = true then some 3
  else if bminOf p < 40000 then some 1
  else none

/-- FLIP (02 R29): DECK_FLIP_OFFSET between PIER_NTF + 100 and Bmin − 20,000. -/
def State.checkFlip (s : State) (p : Table Word) : Option Nat :=
  let off := pf p Reg.DECK_FLIP_OFFSET.OFFSET
  if off < s.get Reg.PIER_NTF.NTF + 100 ∨ bminOf p - 20000 < (off : Int) then some 0 else none

/-- The sync group of layer `n` (02 R50). -/
def syncGroup (p : Table Word) (n : Nat) : Nat := bits (pf p (Reg.DECK_SYNC_MAP.GROUP (n / 8))) (4 * (n % 8)) 4

/-- Columns of coding cells of layer `n` (06 R128). -/
def cellCols (p : Table Word) (n : Nat) : Nat :=
  ceilDiv (pf p (Reg.LAYER_SIZE.SRC_W n)) (pf p (Reg.LAYER_CELL.CW n))

/-- Rows of coding cells of layer `n` (06 R128). -/
def cellRows (p : Table Word) (n : Nat) : Nat :=
  ceilDiv (pf p (Reg.LAYER_SIZE.SRC_H n)) (pf p (Reg.LAYER_CELL.CH n))

/-- Is a cell size a multiple of 8 in 8–512 (06 R129)? -/
def cellSizeOk (c : Nat) : Bool := decide (c % 8 = 0) && decide (8 ≤ c) && decide (c ≤ 512)

/-- Is the layer in rotation in a projected state? -/
def inRotation (p : Table Word) (n : Nat) : Bool := pf p (Reg.LAYER_CTRL.MODE n) == 0

/-- Do the context ranges of two layers overlap (03 R66)? A layer without contexts has no range. -/
def ctxOverlap (p : Table Word) (a b : Nat) : Bool :=
  let ca := pf p (Reg.LAYER_STREAM.COUNT a)
  let cb := pf p (Reg.LAYER_STREAM.COUNT b)
  let ba := pf p (Reg.LAYER_STREAM.BASE a)
  let bb := pf p (Reg.LAYER_STREAM.BASE b)
  decide (0 < ca) && decide (0 < cb) && decide (ba < bb + cb) && decide (bb < ba + ca)

/-- RANGE of one enabled layer (02 R50; 03 R65, R66, R69, R73; 06 R129). -/
def layerRangeBad (p : Table Word) (n : Nat) : Bool :=
  let within := fun v lo hi : Nat => decide (lo ≤ v) && decide (v ≤ hi)
  let base := pf p (Reg.LAYER_STREAM.BASE n)
  let count := pf p (Reg.LAYER_STREAM.COUNT n)
  let rot := inRotation p n
  !(within (pf p (Reg.LAYER_SIZE.SRC_W n)) 1 4096) || !(within (pf p (Reg.LAYER_SIZE.SRC_H n)) 1 4096)
    || (rot && count == 0) || decide (262144 < base + count)
    || (enabledOf p).any (fun m => m != n && ctxOverlap p n m)
    || (decide (n < 24) &&
        (!(within (pf p (Reg.LAYER_PLANE.PLANE_W n)) 1 4096) || !(within (pf p (Reg.LAYER_PLANE.PLANE_H n)) 1 4096)
          || pf p (Reg.LAYER_HSCALE.X n) == 0 || pf p (Reg.LAYER_HSCALE.Y n) == 0
          || decide (4 < pf p (Reg.LAYER_SCALER.VTAPS n)) || decide (4 < pf p (Reg.LAYER_SCALER.HTAPS n))
          || !(within (pf p (Reg.LAYER_STEP_X.STEP n)) 0x2000 0x40000)
          || !(within (pf p (Reg.LAYER_STEP_Y.STEP n)) 0x2000 0x40000)))
    || decide (8 < syncGroup p n)
    || (rot && (!(cellSizeOk (pf p (Reg.LAYER_CELL.CW n))) || !(cellSizeOk (pf p (Reg.LAYER_CELL.CH n)))
        || count != cellCols p n * cellRows p n))

/-- Bytes of a coefficient record (07 R178). -/
def State.crec (s : State) (q : Nat) : Nat := 32 * ceilDiv (3 * s.rays q) 64

/-- RANGE of the port stage (07 R178, R182; 08 R208). -/
def State.portRangeBad (s : State) (p : Table Word) : Bool :=
  let stride := pf p Reg.PORT_UNI_STRIDE.STRIDE * 65536
  let coef := pf p Reg.PORT_UNI_COEF_BASE.ADDR * 256
  let gain := pf p Reg.PORT_UNI_GAIN_BASE.ADDR * 256
  (List.range 512).any fun q =>
    let set := pf p (Reg.PORT_PIER_CFG.SET q)
    let width := pf p (Reg.PORT_PIER_CFG.WIDTH q)
    let st := s.get (Reg.PIER_STATUS.STATE q)
    let need := s.geoNv q * s.geoNh q * s.crec q
    decide (12 < set) || !(bit (s.get Reg.PORT_LUT_LOADED.LOADED) set) || width == 3
      || ((st == 2 || st == 3) && !(bit (s.get (Reg.PIER_DECLW.WIDTHS q)) width))
      || (pf p (Reg.PORT_PIER_CFG.UNI_EN q) == 1 &&
          (decide (stride < need) || decide (hbmSize < coef + q * stride + need)
            || decide (hbmSize < gain + q * 8192 + s.geoNv q * s.geoNh q * 2)))

/-- RANGE (02 R46): enabled layers in ascending order, then the Deck, then the port stage. -/
def State.checkRange (s : State) (p : Table Word) : Option Nat :=
  match (enabledOf p).find? (layerRangeBad p) with
  | some n => some n
  | none =>
    let lead := pf p Reg.DECK_LEAD.LEAD
    if lead < 2 ∨ 4 < lead then some 0xF0
    else if s.portRangeBad p then some 0xF2
    else none

/-- FORMAT (03 R63, R65). -/
def checkFormat (p : Table Word) : Option Nat :=
  (enabledOf p).find? fun n =>
    let f := pf p (Reg.LAYER_CTRL.FORMAT n)
    let pitch := pf p (Reg.LAYER_PITCH.PITCH n)
    decide (4 < f) || (decide (n < 24) && decide (1 < f)) || pitch % 64 != 0
      || decide (pitch < ceilDiv (pf p (Reg.LAYER_SIZE.SRC_W n) * fmtBits f) 8)

/-- BUFFER (03 R65): the extent of every buffer used lies in HBM and outside the reserved regions. -/
def State.checkBuffer (s : State) (p : Table Word) : Option Nat :=
  (enabledOf p).find? fun n =>
    let ext := pf p (Reg.LAYER_PITCH.PITCH n) * pf p (Reg.LAYER_SIZE.SRC_H n)
    (if inRotation p n then [0, 1, 2] else [0]).any fun r =>
      let a := pf p (Reg.LAYER_BUF.ADDR n r) * 256
      decide (hbmSize < a + ext) || s.inReserved a ext

/-- Does every sample of a video layer with EDGE = 0 lie inside the plane for the tile of pier `q` (03 R70)? The extreme
hogels and views decide, because the coordinate is affine. -/
def State.footprintOk (s : State) (p : Table Word) (n q : Nat) : Bool :=
  let h := s.geoH q
  let v := s.geoV q
  let x0 := Config.tileX q
  let y0 := Config.tileY q
  let inside := fun (c : Int) (w : Nat) => decide (0 ≤ c) && decide (shrI c 12 + 1 ≤ (w : Int) - 1)
  let cx := fun (x : Nat) (i : Nat) => sampleCoord (signed 32 (pf p (Reg.LAYER_ORG_X.ORG n))) (pf p (Reg.LAYER_HSCALE.X n))
    (signed 17 (pf p (Reg.LAYER_DISP_H.DISP n))) x (viewOff i h)
  let cy := fun (y : Nat) (j : Nat) => sampleCoord (signed 32 (pf p (Reg.LAYER_ORG_Y.ORG n))) (pf p (Reg.LAYER_HSCALE.Y n))
    (signed 17 (pf p (Reg.LAYER_DISP_V.DISP n))) y (viewOff j v)
  [x0, x0 + s.geoNh q - 1].all (fun x => [0, h - 1].all fun i => inside (cx x i) (pf p (Reg.LAYER_PLANE.PLANE_W n)))
    && [y0, y0 + s.geoNv q - 1].all (fun y => [0, v - 1].all fun j => inside (cy y j) (pf p (Reg.LAYER_PLANE.PLANE_H n)))

/-- GEOMETRY (03 R70, R72). -/
def State.checkGeometry (s : State) (p : Table Word) : Option Nat :=
  (enabledOf p).find? fun n =>
    if n < 24 then pf p (Reg.LAYER_CTRL.EDGE n) == 0 && s.tiles.any (fun q => !(s.footprintOk p n q))
    else decide (Config.gridW < pf p (Reg.LAYER_DST.DST_X n) + pf p (Reg.LAYER_SIZE.SRC_W n))
      || decide (Config.gridH < pf p (Reg.LAYER_DST.DST_Y n) + pf p (Reg.LAYER_SIZE.SRC_H n))

/-- The line-buffer need of a video layer (03 R76). -/
def lineBufNeed (p : Table Word) (n : Nat) : Nat :=
  tapCount (pf p (Reg.LAYER_SCALER.VTAPS n)) * pf p (Reg.LAYER_SIZE.SRC_W n)
    * (if pf p (Reg.LAYER_CTRL.FORMAT n) = 0 then 5 else 4)

/-- The first layer at which the running sum of needs exceeds the pool (03 R76). -/
def lineBufOver (p : Table Word) : List Nat → Nat → Option Nat
  | [], _ => none
  | n :: ns, sum =>
    let t := sum + lineBufNeed p n
    if 3145728 < t then some n else lineBufOver p ns t

/-- LINEBUF (03 R76). -/
def checkLineBuf (p : Table Word) : Option Nat := lineBufOver p ((enabledOf p).filter fun n => decide (n < 24)) 0

/-- LUT (03 R80): every enabled layer names a loaded slot. -/
def State.checkLut (s : State) (p : Table Word) : Option Nat :=
  (enabledOf p).find? fun n => !(bit (s.get Reg.LAYER_LUT_LOADED.LOADED) (pf p (Reg.LAYER_CTRL.LUT n)))

/-- The mode class of a state (05 R118): 0 X, 1 A, 2 B, 3 C, 4 D, 5 E. -/
def State.modeClass (s : State) (p : Table Word) : Nat :=
  let r := s.tiles.foldl (fun a q => a + s.geoNh q * s.geoNv q * s.rays q) 0
  let num := pf p Reg.DECK_PERIOD_NUM.NUM
  let g := 1000000000 * pf p Reg.DECK_PERIOD_DEN.DEN
  let w := s.tiles.foldl (fun a q => max a (widthBits (pf p (Reg.PORT_PIER_CFG.WIDTH q)))) 8
  let pv := ((enabledOf p).filter fun n => decide (n < 24)).length
  if r ≤ 2 ^ 28 ∧ g ≤ 60 * num ∧ pv ≤ 24 then 1
  else if r ≤ 2 ^ 28 ∧ g ≤ 120 * num ∧ pv ≤ 12 then 2
  else if r ≤ 2 ^ 29 ∧ g ≤ 60 * num ∧ w = 8 ∧ pv ≤ 12 then 3
  else if r ≤ 2 ^ 29 ∧ g ≤ 30 * num ∧ pv ≤ 24 then 4
  else if r ≤ 2 ^ 27 ∧ g ≤ 240 * num ∧ 24 * num ≤ g ∧ pv ≤ 12 then 5
  else 0

/-- The MODES bit of a recipe for a class (05 R119): classes A to E are bits 0–4, class X is bit 5. -/
def modeBit (c : Nat) : Nat := if c = 0 then 5 else c - 1

/-- RECIPE (05 R120). -/
def State.checkRecipe (s : State) (p : Table Word) : Option Nat :=
  (List.range 8).find? fun c =>
    let r := pf p (Reg.COMB_RECIPE.SLOT c)
    !(s.recipePresent r) || !(bit (s.rcp r 8 1) (modeBit (s.modeClass p)))

/-- SYNCGRP (02 R46): a group that mixes rotation and explicit buffers. -/
def checkSync (p : Table Word) : Option Nat :=
  [1, 2, 3, 4, 5, 6, 7, 8].find? fun g =>
    let ms := (enabledOf p).filter fun n => syncGroup p n == g
    ms.any (inRotation p) && ms.any (fun n => !(inRotation p n))

/-- The checks of R46 in the order of its table, from PERIOD on: code and DETAIL of the first that fails. -/
def State.validate (s : State) (p : Table Word) : Option (Nat × Nat) :=
  let t := fun (code : Nat) (r : Option Nat) => r.map fun d => (code, d)
  (t 0x06 (s.checkPeriod p)).orElse fun _ => (t 0x07 (s.checkFlip p)).orElse fun _ =>
  (t 0x03 (s.checkRange p)).orElse fun _ => (t 0x02 (checkFormat p)).orElse fun _ =>
  (t 0x04 (s.checkBuffer p)).orElse fun _ => (t 0x05 (s.checkGeometry p)).orElse fun _ =>
  (t 0x01 (checkLineBuf p)).orElse fun _ => (t 0x08 (s.checkLut p)).orElse fun _ =>
  (t 0x09 (s.checkRecipe p)).orElse fun _ => t 0x0A (checkSync p)

/-- The validation or revalidation of `c` completes (02 R39, R452). -/
def State.finishValidation (s : State) (c : Commit) : State :=
  let p := applyWords (s.projected c.seq) c.words
  let s := s.set Reg.COMB_MODE.PROJ (s.modeClass p)
  match (if s.deck.dev = .safeHalt then some (0x0C, 0) else s.validate p) with
  | some (code, detail) => s.rejectCommit c code detail
  | none =>
    (s.setCommits (s.deck.commits.map fun x => if x.seq = c.seq then { x with valid := true, reval := false } else x)).commitStatus
      c 2 false

/-- The first commit still under validation, once no revalidation is outstanding (02 R39). -/
def State.commitValidated (s : State) : State :=
  if s.deck.commits.any (·.reval) then s
  else match s.deck.commits.find? (fun c => !c.valid) with
    | none => s
    | some c => s.finishValidation c

/-- The first outstanding revalidation completes (02 R452). -/
def State.commitRevalidated (s : State) : State :=
  match s.deck.commits.find? (·.reval) with
  | none => s
  | some c => s.finishValidation c

/-- A CANCEL (02 R452): the writer's pending commits are withdrawn, and every accepted commit of the other writer that
follows a withdrawn one is to be validated again. Its status entry keeps STATE 2 meanwhile (log 106). -/
def State.commitCancel (s : State) (w : Writer) : State :=
  let gone := s.deck.commits.filter fun c => decide (c.writer = w)
  let after := s.deck.commits.dropWhile fun c => decide (c.writer ≠ w)
  let kept := s.deck.commits.filter fun c => decide (c.writer ≠ w)
  let kept := kept.map fun c =>
    if c.valid && after.any (fun a => a.seq == c.seq) then { c with valid := false, reval := true } else c
  gone.foldl (fun s c => (s.commitStatus c 5 false).commitResult c 0 0 0) (s.setCommits kept)

/-! Application at a latch point (02 R40 to R43). -/

/-- Is commit `c` past its intended latch, when the latch before was scheduled at `prev` (R41, R42, R452)? It is when a latch point at
which it was to apply has passed it by, or when its target lies at or before `prev`. -/
def Commit.isLate (c : Commit) (prev : Nat) : Bool :=
  c.missed || match c.target with
  | none => false
  | some t => decide (0 ≤ diff48 prev t)

/-- Is commit `c` due at the scheduled latch `l`? -/
def Commit.isDue (c : Commit) (l : Nat) : Bool :=
  match c.target with
  | none => true
  | some t => decide (0 ≤ diff48 l t)

/-- One commit applies: its words become active, and its status names the frame in which it takes effect. -/
def State.applyCommit (s : State) (prev : Nat) (c : Commit) : State :=
  let late := c.isLate prev
  let s : State := { s with act := applyWords s.act c.words }
  let s := s.set Reg.DECK_COMMIT_SEQ.ACTIVE c.seq
  let s := (s.commitStatus c 3 late).commitResult c ((s.deck.frameNum + 1) % 2 ^ 32) 0 0
  s.post 0x0201 sevInfo (p2 c.seq ++ p1 c.tag ++ p1 c.writer.code ++ pb late)

/-- A latch point scheduled at `l` passes commit `c` by: an untimed commit misses it once it has been validated, a timed one when its
target has come (R40, R41, R452). -/
def Commit.passBy (c : Commit) (l : Nat) : Commit :=
  { c with missed := c.missed || match c.target with
    | none => c.valid || c.reval
    | some _ => c.isDue l }

/-- The leading commits of the queue that are validated and due (02 R42). -/
def dueCommits (l : Nat) : List Commit → List Commit
  | [] => []
  | c :: cs => if c.valid && c.isDue l then c :: dueCommits l cs else []

/-- Every commit due at the scheduled latch `l` applies, in SEQ order (02 R42, R43). The answer also tells how many. -/
def State.applyDue (s : State) (l prev : Nat) : State × List Commit :=
  let due := dueCommits l s.deck.commits
  let rest := (s.deck.commits.drop due.length).map (Commit.passBy · l)
  let s := due.foldl (fun s c => s.applyCommit prev c) s
  let s := s.setCommits rest
  (s.set Reg.COMB_MODE.ACTIVE (s.modeClass s.act), due)

end Sys2Proof.Machine
end

