-- ==== Sys2Proof/Machine/Layer.lean ====
section
/-! DEFINITION. Layer fences and the table loader of the layer block (03 R68, R77 to R80). -/

namespace Sys2Proof.Machine

/-- A write of LAYER_n_FENCE: by the owner it sets ADDR and VALID; otherwise it is ignored with EV_LAYER_OWNER (R61, R68). -/
def State.fenceWrite (s : State) (w : Writer) (n : Nat) (v : Word) : State :=
  if s.layerOwner n = w then
    (s.set (Reg.LAYER_FENCE.ADDR n) (fieldOf v (Reg.LAYER_FENCE.ADDR n))).set (Reg.LAYER_FENCE.VALID n) 1
  else s.postOwner w (Reg.LAYER_FENCE n)

/-- A START ends at once with an error, without touching a running load (R80). -/
def State.lutEnd (s : State) (err : Nat) : State :=
  (s.set Reg.LAYER_LUT_STATUS.ERR err).set Reg.LAYER_LUT_STATUS.DONE 1

/-- Is a LUT slot named by an enabled layer of the active state or of a pending commit (R80)? -/
def State.lutInUse (s : State) (slot : Nat) : Bool :=
  let named := fun p : Table Word => (enabledOf p).any fun n => pf p (Reg.LAYER_CTRL.LUT n) == slot
  named s.act || s.deck.commits.any fun c => named (applyWords (s.projected c.seq) c.words)

/-- HBM source of the loader. -/
def State.lutSrc (s : State) : Nat :=
  s.get Reg.LAYER_LUT_SRC_LO.ADDR * 256 + 2 ^ 32 * s.get Reg.LAYER_LUT_SRC_HI.ADDR

/-- The load begins: BUSY is set, and a LUT slot is no longer loaded (R80). -/
def State.lutBegin (s : State) (kind slot : Nat) : State :=
  let s : State := { s with layers := { s.layers with
    load := some ⟨kind, slot, s.lutSrc, s.get Reg.LAYER_LUT_CRC.CRC⟩ } }
  let s := s.set Reg.LAYER_LUT_STATUS.BUSY 1
  if kind = 0 then s.set Reg.LAYER_LUT_LOADED.LOADED (clearBit (s.get Reg.LAYER_LUT_LOADED.LOADED) slot) else s

/-- A START of a LUT slot: refused with ERR 2 while a load runs or the slot is in use (R80). -/
def State.lutStart (s : State) (slot : Nat) : State :=
  if s.layers.load.isSome ∨ s.lutInUse slot = true then s.lutEnd 2 else s.lutBegin 0 slot

/-- A START of a palette: ERR 3 above 7, refused while a load runs (R80; a busy loader refuses every START, log 15). -/
def State.paletteStart (s : State) (m : Nat) : State :=
  if 7 < m then s.lutEnd 3
  else if s.layers.load.isSome then s.lutEnd 2
  else s.lutBegin 1 m

/-- Little-endian values of `n` bytes each. -/
def leValues (n : Nat) : Nat → List Byte → List Nat
  | 0, _ => []
  | k + 1, bs => leNat (bs.take n) :: leValues n k (bs.drop n)

/-- The running load ends after its CRC check (R80), `f` being what its first read finds: a LUT slot is loaded, a palette goes to its
standby copy, or the error is reported. A failed palette load leaves an earlier standby copy as it is (log 108). Before the wipe of HBM
its reads are held (12 R317). -/
def State.lutDone (s : State) (f : HbmFind) : State := s.hbmFor fun s =>
  match s.layers.load with
  | none => s
  | some l =>
    let n := if l.kind = 0 then 24576 else 2048
    let s := s.hbmAsk 5 (l.src % hbmSize) n f
    let s : State := { s with layers := { s.layers with load := none } }
    let s := s.set Reg.LAYER_LUT_STATUS.BUSY 0
    let fail := fun err => (s.lutEnd err).post 0x0303 sevWarn (p1 l.kind ++ p1 l.slot ++ p1 err)
    match s.hbmRead (l.src % hbmSize) n with
    | none => fail 4
    | some bs =>
      if crc32c bs ≠ l.crc then fail 1
      else if l.kind = 0 then
        let s : State := { s with layers := { s.layers with
          lut := s.layers.lut.setMany (fun _ => 0) (l.slot * 12288) (leValues 2 12288 bs) } }
        let s := s.set Reg.LAYER_LUT_LOADED.LOADED (setBit (s.get Reg.LAYER_LUT_LOADED.LOADED) l.slot)
        (s.lutEnd 0).post 0x0302 sevInfo (p1 l.kind ++ p1 l.slot)
      else
        let s : State := { s with layers := { s.layers with
          palNext := (l.slot, leValues 8 256 bs) :: s.layers.palNext.filter fun e => e.1 != l.slot } }
        s.lutEnd 0

/-- Standby palettes become active at a latch point, each with EV_LUT_LOADED (R80, R83). -/
def State.latchPalettes (s : State) : State :=
  let next := s.layers.palNext
  let s : State := { s with layers := { s.layers with
      pal := next.foldl (fun t e => t.setMany (fun _ => 0) (e.1 * 256) e.2) s.layers.pal, palNext := [] } }
  next.foldr (fun e s => s.post 0x0302 sevInfo (p1 1 ++ p1 e.1)) s

/-- A write of LAYER_LUT_LOAD with START (R80). -/
def State.lutLoadWrite (s : State) (v : Word) : State :=
  if bit v.toNat 31 then
    (if bit v.toNat 8 then s.paletteStart (bits v.toNat 0 5) else s.lutStart (bits v.toNat 0 5))
  else s

end Sys2Proof.Machine
end

