-- ==== Sys2Proof/Machine/Blitter.lean ====
section
/-! DEFINITION. The blitter (13 R320 to R334): descriptors, their checks, the values and order of the five operations, the bursts
between which it pauses, waits, ends and aborts. One of the commands FILL to TEXT runs one burst of the descriptor in
progress. -/

namespace Sys2Proof.Machine

/-! Descriptors (R326). -/

/-- A little-endian field of a descriptor. -/
def BltRun.fld (c : BltRun) (o n : Nat) : Nat := leAt c.desc o n
/-- KIND. -/
def BltRun.kind (c : BltRun) : Nat := bits (c.fld 0 4) 0 4
/-- Destination format. -/
def BltRun.dstFmt (c : BltRun) : Nat := bits (c.fld 4 4) 0 4
/-- Source format; 8 is BIT1. -/
def BltRun.srcFmt (c : BltRun) : Nat := bits (c.fld 4 4) 4 4
/-- FENCE: a layer, or 0xFF. -/
def BltRun.fence (c : BltRun) : Nat := bits (c.fld 4 4) 8 8
/-- The scale s. -/
def BltRun.scale (c : BltRun) : Nat := if c.kind < 4 then 1 else 2 ^ bits (c.fld 0 4) 17 2
/-- Is the source the glyph ROM? -/
def BltRun.rom (c : BltRun) : Bool := bit (c.fld 0 4) 19
/-- DST and SRC, bits [33:0]. -/
def BltRun.dst (c : BltRun) : Nat := c.fld 8 8 % 2 ^ 34
/-- As `dst`, for the source. -/
def BltRun.src (c : BltRun) : Nat := c.fld 0x20 8 % 2 ^ 34
/-- W. -/
def BltRun.w (c : BltRun) : Nat := bits (c.fld 0x18 4) 0 13
/-- H. -/
def BltRun.h (c : BltRun) : Nat := bits (c.fld 0x18 4) 16 13
/-- DX. -/
def BltRun.dx (c : BltRun) : Nat := bits (c.fld 0x14 4) 0 13
/-- DY. -/
def BltRun.dy (c : BltRun) : Nat := bits (c.fld 0x14 4) 16 13
/-- SX. -/
def BltRun.sx (c : BltRun) : Nat := bits (c.fld 0x2C 4) 0 13
/-- SY. -/
def BltRun.sy (c : BltRun) : Nat := bits (c.fld 0x2C 4) 16 13
/-- Destination width Wd (R324). -/
def BltRun.wd (c : BltRun) : Nat := (if c.kind = 5 then 8 else 1) * c.scale * c.w
/-- Destination height Hd. -/
def BltRun.hd (c : BltRun) : Nat := if c.kind = 5 then 16 * c.scale else c.scale * c.h

/-- Pixels of the destination. -/
def BltRun.total (c : BltRun) : Nat := c.wd * c.hd

/-- Destination rows completed. -/
def BltRun.rows (c : BltRun) : Nat := c.pos / max 1 c.wd

/-! The checks (R321, R322, R331). -/

/-- Bits per pixel of a format code or BIT1. -/
def bltBits (f : Nat) : Nat := if f = 8 then 1 else fmtBits f

/-- The byte after the extent of a surface rectangle. -/
def extentEnd (addr pitch fmt x y w h : Nat) : Nat := addr + (y + h - 1) * pitch + ceilDiv ((x + w) * bltBits fmt) 8

/-- Does a surface break R321? -/
def surfaceBad (addr pitch fmt x w : Nat) : Bool :=
  decide (pitch < ceilDiv ((x + w) * bltBits fmt) 8) || (fmt != 8 && (addr % 32 != 0 || pitch % 32 != 0))

/-- Has the descriptor a pixel source in HBM: COPY, CONVERT, or EXPAND outside the ROM? -/
def BltRun.hbmSource (c : BltRun) : Bool := c.kind == 2 || c.kind == 3 || (c.kind == 4 && !c.rom)

/-- FORMAT. -/
def BltRun.formatBad (c : BltRun) : Bool :=
  decide (4 < c.dstFmt) || (c.rom && decide (c.kind < 4)) || (c.srcFmt == 8 && c.kind != 4)
    || (match c.kind with
      | 2 => c.srcFmt != c.dstFmt
      | 3 => !((c.srcFmt == 1 && c.dstFmt == 0) || (c.srcFmt == 0 && c.dstFmt == 1) || (c.srcFmt == 3 && c.dstFmt == 2))
      | 4 => !c.rom && c.srcFmt != 8
      | _ => false)

/-- ALIGN. The pitch of the ROM is 1. -/
def BltRun.alignBad (c : BltRun) : Bool :=
  surfaceBad c.dst (c.fld 0x10 4) c.dstFmt c.dx c.wd
    || (c.hbmSource && surfaceBad c.src (c.fld 0x28 4) c.srcFmt c.sx c.w)
    || (c.kind == 4 && c.rom && decide (8 < c.sx + c.w))

/-- RANGE. -/
def BltRun.rangeBad (c : BltRun) : Bool :=
  let ok := fun n : Nat => decide (1 ≤ n) && decide (n ≤ 4096)
  !(ok c.w) || (c.kind != 5 && !(ok c.h)) || decide (16384 < c.wd) || decide (16384 < c.hd)
    || decide (hbmSize < extentEnd c.dst (c.fld 0x10 4) c.dstFmt c.dx c.dy c.wd c.hd)
    || (c.hbmSource && decide (hbmSize < extentEnd c.src (c.fld 0x28 4) c.srcFmt c.sx c.sy c.w c.h))
    || (c.kind == 5 && decide (hbmSize < c.src + c.w))
    || (decide (31 < c.fence) && c.fence != 0xFF) || (decide (c.fence < 32) && c.dst % 256 != 0)

/-- The RESULT of the checks, 0 when all pass. -/
def State.bltCheck (s : State) (c : BltRun) : Nat :=
  if c.kind = 0 ∨ 5 < c.kind then 1
  else if c.formatBad then 2
  else if c.alignBad then 3
  else if c.rangeBad then 4
  else
    let lo := c.dst + c.dy * c.fld 0x10 4
    if s.inReserved lo (extentEnd c.dst (c.fld 0x10 4) c.dstFmt c.dx c.dy c.wd c.hd - lo) then 5 else 0

/-! Values (R323, R324). -/

/-- A byte of the glyph ROM: codes without a shape are blank (R324; log 8). -/
def romByte (n : Nat) : Byte :=
  let g := n / 16
  if (0x20 ≤ g ∧ g ≤ 0x7E) ∨ (0xA0 ≤ g ∧ g ≤ 0xFF) ∨ 0xFF < g then Config.glyphByte n else 0

/-- The alpha of four bits of one of eight (R323). -/
def alpha4 (a : Nat) : Nat := (a + 8) / 17

/-- One colour component of CONVERT. -/
def comp12to8 (c : Nat) : Nat := (c * 255 + 2047) / 4095

/-- CONVERT of a pixel word. -/
def convertPix (srcFmt w : Nat) : Nat :=
  match srcFmt with
  | 1 => code8 (bits w 0 8) + code8 (bits w 8 8) * 2 ^ 12 + code8 (bits w 16 8) * 2 ^ 24 + alpha4 (bits w 24 8) * 2 ^ 36
  | 0 => comp12to8 (bits w 0 12) + comp12to8 (bits w 12 12) * 2 ^ 8 + comp12to8 (bits w 24 12) * 2 ^ 16
      + bits w 36 4 * 17 * 2 ^ 24
  | _ => w

/-- The source bit of EXPAND and TEXT at destination pixel (x, y), with the HBM bytes it reads (address and count). -/
def State.sourceBit (s : State) (c : BltRun) (x y : Nat) : Bool :=
  let bx := x / c.scale
  let by' := y / c.scale
  if c.kind = 5 then
    let code := (s.hbm.get zeroByte (c.src + bx / 8)).toNat
    bit (romByte (16 * code + by')).toNat (bx % 8)
  else
    let q := c.sx + bx
    let r := c.sy + by'
    if c.rom then bit (romByte (c.src + r + q / 8)).toNat (q % 8)
    else bit (s.hbm.get zeroByte (c.src + r * c.fld 0x28 4 + q / 8)).toNat (q % 8)

/-- The HBM bytes that pixel (x, y) reads. -/
def BltRun.reads (c : BltRun) (x y : Nat) : Nat × Nat :=
  let row := c.src + (c.sy + y / c.scale) * c.fld 0x28 4
  let b := bltBits c.srcFmt
  match c.kind with
  | 2 => (row + (c.sx + x) * b / 8, (b + 7) / 8)
  | 3 => (row + (c.sx + x) * b / 8, (b + 7) / 8)
  | 4 => if c.rom then (0, 0) else (row + (c.sx + x / c.scale) / 8, 1)
  | 5 => (c.src + x / c.scale / 8, 1)
  | _ => (0, 0)

/-- The pixel word to write at (x, y) of the destination rectangle; none where it stays unchanged. -/
def State.bltValue (s : State) (c : BltRun) (x y : Nat) : Option Nat :=
  let src := fun _ : Unit => s.pixelWord (c.src + (c.sy + y) * c.fld 0x28 4) c.srcFmt (c.sx + x)
  match c.kind with
  | 1 => some (c.fld 0x30 5)
  | 2 => some (src ())
  | 3 => some (convertPix c.srcFmt (src ()))
  | _ => if s.sourceBit c x y then some (c.fld 0x30 5)
    else if bit (c.fld 0 4) 6 then none else some (c.fld 0x35 5)

/-- A pixel word of `b` bits written at pixel `px` of the row at `row`. -/
def State.putPixel (s : State) (row b px v : Nat) : State :=
  let a := row + px * b / 8
  if b = 4 then
    let old := (s.hbm.get zeroByte a).toNat
    s.hbmStore 6 a [byte (if px % 2 = 0 then old / 16 * 16 + v % 16 else old % 16 + v % 16 * 16)]
  else s.hbmStore 6 a (leBytes (b / 8) v)

/-- Pixel `n` in the order of R325: its column and row in the destination rectangle. -/
def BltRun.place (c : BltRun) (n : Nat) : Nat × Nat :=
  let x := n % max 1 c.wd
  let y := n / max 1 c.wd
  (if bit (c.fld 0 4) 4 then c.wd - 1 - x else x, if bit (c.fld 0 4) 5 then c.hd - 1 - y else y)

/-- The next pixel is written; an uncorrectable read or a discarded write ends the descriptor with HBM. -/
def State.bltPixel (s : State) (c : BltRun) : State × BltRun :=
  let xy := c.place c.pos
  let rd := c.reads xy.1 xy.2
  let row := c.dst + (c.dy + xy.2) * c.fld 0x10 4
  let b := bltBits c.dstFmt
  let px := c.dx + xy.1
  let s := if rd.2 = 0 then s else s.hbmTouch 6 rd.1 rd.2
  if !(s.hbmOk rd.1 rd.2) then (s, { c with result := 6, done := true })
  else match s.bltValue c xy.1 xy.2 with
    | none => (s, { c with pos := c.pos + 1 })
    | some v =>
      if s.hbmOk (row + px * b / 8) ((b + 7) / 8) then (s.putPixel row b px v, { c with pos := c.pos + 1 })
      else (s.putPixel row b px v, { c with result := 6, done := true })

/-- Up to `n` pixels. -/
def State.bltPixels (s : State) (c : BltRun) : Nat → State × BltRun
  | 0 => (s, c)
  | n + 1 =>
    if c.done ∨ c.total ≤ c.pos then (s, c)
    else
      let r := s.bltPixel c
      State.bltPixels r.1 r.2 n

/-! The queue (R326). -/

/-- Bytes of a burst (R330). -/
def State.burstBits (s : State) : Nat := max 1 (min 64 (s.get Reg.BLT_CFG.BURST)) * 8192

/-- HBM address of descriptor `i`. -/
def State.bltAddr (s : State) (i : Nat) : Nat := s.get Reg.BLT_Q_BASE.ADDR * 64 + i * 64

/-- Descriptors in the ring; 0 or below 16: the queue is off. -/
def State.bltSize (s : State) : Nat := min 1024 (s.get Reg.BLT_Q_SIZE.ENTRIES)

/-- BLT_STATUS follows the descriptor in progress. -/
def State.bltShow (s : State) : State :=
  match s.blt.cur with
  | none => (s.set Reg.BLT_STATUS.BUSY 0).set Reg.BLT_STATUS.WAITING 0
  | some c => ((s.set Reg.BLT_STATUS.BUSY 1).set Reg.BLT_STATUS.WAITING (ofBool c.waiting)).set Reg.BLT_STATUS.CURRENT c.index

/-- The descriptor in progress replaced. -/
def State.setBlt (s : State) (c : Option BltRun) : State := { s with blt := { s.blt with cur := c } }.bltShow

/-- The descriptor at the head is taken, checked, and waits if it is to (R326, R328, R331). Before the wipe of HBM its read is held
(12 R317). -/
def State.bltTake (s : State) : State :=
  let h := s.get Reg.BLT_Q_HEAD.HEAD
  if s.blt.cur.isSome ∨ s.flag Reg.BLT_CTRL.EN = false ∨ s.bltSize < 16 ∨ h = s.get Reg.BLT_Q_TAIL.TAIL
      ∨ s.nt.now8 < s.blt.pauseTo ∨ s.deck.dev = .safeHalt ∨ s.hbmHolds = true then s
  else
    let s := s.hbmTouch 6 (s.bltAddr h % hbmSize) 64
    match s.hbmRead (s.bltAddr h % hbmSize) 64 with
    | none => s.setBlt (some ⟨List.replicate 64 (0 : Byte), h, 6, 0, false, false, false, true, true⟩)
    | some d =>
      let c : BltRun := ⟨d, h, 0, 0, false, false, false, false, false⟩
      let r := s.bltCheck c
      let wait := bits (c.fld 0 4) 8 2
      s.setBlt (some { c with result := r, checked := r != 0, done := r != 0, waiting := r == 0 && (wait == 1 || wait == 2) && s.deckRunning })

/-- BLT_POST: the supervisor writes BLT_Q_TAIL. -/
def State.bltPost (s : State) (bySup : Bool) (v : Word) : State :=
  if bySup then (s.set Reg.BLT_Q_TAIL.TAIL v.toNat).bltTake else s

/-- One burst of the descriptor in progress, if its KIND is `kind`; then the pause begins (R330). `f` is what the first read of the
burst finds in HBM. -/
def State.bltBurst (s : State) (kind : Nat) (f : HbmFind) : State :=
  let s := s.bltTake
  match s.blt.cur with
  | none => s
  | some c =>
    if c.kind ≠ kind ∨ c.done = true ∨ c.waiting = true ∨ s.nt.now8 < s.blt.pauseTo ∨ s.deck.dev = .safeHalt then s
    else
      let xy := c.place c.pos
      let rd := c.reads xy.1 xy.2
      let s := if rd.2 = 0 then s else s.hbmAsk 6 rd.1 rd.2 f
      let b := bltBits c.dstFmt
      let fin := ceilDiv ((c.pos * b / s.burstBits + 1) * s.burstBits) b
      let r := s.bltPixels c (fin - c.pos)
      let c' := { r.2 with done := r.2.done || decide (r.2.total ≤ r.2.pos) }
      let pause := (s.get Reg.BLT_CFG.GAP + s.get Reg.THM_THROTTLE.LEVEL * 256) * 8
      let full := decide (fin ≤ c'.pos)
      ({ r.1 with blt := { r.1.blt with pauseTo := if full || c'.done then s.nt.now8 + pause else s.blt.pauseTo } }).setBlt (some c')

/-- BLT_BURST_PAUSE_END: the pause is over, and the queue goes on. -/
def State.bltPauseEnd (s : State) : State :=
  if s.nt.now8 < s.blt.pauseTo then s else s.bltTake

/-- BLT_WAIT_START: the wait of the descriptor in progress is over (R328). -/
def State.bltWaitStart (s : State) : State :=
  match s.blt.cur with
  | none => s
  | some c =>
    if c.waiting = true ∧ (c.go = true ∨ s.deckRunning = false) ∧ s.deck.dev ≠ .safeHalt then
      s.setBlt (some { c with waiting := false })
    else s

/-- The end of the descriptor in progress (R327, R331): fence, STATUS, HEAD, counts, interrupts and events. -/
def State.bltEnd (s : State) (c : BltRun) : State :=
  let s : State := if c.fence < 32 ∧ c.checked = false then s.fenceWrite .supervisor c.fence (word (c.dst / 256)) else s
  let s := s.hbmStore 6 (s.bltAddr c.index + 0x3C) (leBytes 4
    (2 ^ 31 + ofBool c.crossed * 2 ^ 30 + c.rows * 2 ^ 15 + c.result))
  let s := s.set Reg.BLT_Q_HEAD.HEAD ((c.index + 1) % max 1 s.bltSize)
  let s := (s.set Reg.BLT_STATUS.RESULT c.result).count Reg.BLT_COUNT.DONE
  let tag := bits (c.fld 0 4) 24 8
  let s : State := if bit (c.fld 0 4) 7 then
      (s.set Reg.BLT_IRQ.DONE 1).post 0x0D01 sevInfo (p1 tag ++ p2 c.index ++ p2 c.rows ++ pb c.crossed)
    else s
  let s : State := if c.result = 0 then s
    else
      let s := (s.bump Reg.BLT_COUNT.ERRORS).set Reg.BLT_IRQ.ERR 1
      let s : State := if s.flag Reg.BLT_CTRL.STOP_ON_ERR then s.set Reg.BLT_CTRL.EN 0 else s
      s.post 0x0D02 sevWarn (p1 tag ++ p2 c.index ++ p1 c.result ++ p2 c.rows)
  s.setBlt none

/-- BLT_DESCRIPTOR_END: a descriptor with nothing left to write ends, and the next one is taken. -/
def State.bltDescEnd (s : State) : State :=
  let s := s.bltTake
  match s.blt.cur with
  | none => s
  | some c => if c.done = true ∧ s.deck.dev ≠ .safeHalt then (s.bltEnd c).bltTake else s

/-- ABORT by the supervisor: the descriptor in progress ends with ABORT, and EN is cleared (R332). -/
def State.bltAbort (s : State) (bySup : Bool) (v : Word) : State :=
  if bySup = false then s
  else
    let s := (s.set Reg.BLT_CTRL.STOP_ON_ERR (fieldOf v Reg.BLT_CTRL.STOP_ON_ERR)).set Reg.BLT_CTRL.EN (fieldOf v Reg.BLT_CTRL.EN)
    if bit v.toNat 31 = false ∨ s.deck.dev = .safeHalt then s.bltTake
    else
      let s := s.set Reg.BLT_CTRL.EN 0
      match s.blt.cur with
      | none => s
      | some c => s.bltEnd { c with result := 7 }

/-! Lines and latch points (R328). -/

/-- A scan line starts, or the latch point comes (`none`): the watermark, the waits and CROSSED. -/
def State.bltPoint (s : State) (line : Option Nat) : State :=
  let hit := fun v : Nat => match line with
    | some l => decide (l = v) && decide (v < s.deck.lines)
    | none => decide (s.deck.lines ≤ v)
  let s : State := if s.flag Reg.BLT_WMARK.EN ∧ hit (s.get Reg.BLT_WMARK.LINE) = true then s.set Reg.BLT_IRQ.WMARK 1 else s
  match s.blt.cur with
  | none => s
  | some c =>
    let wait := bits (c.fld 0 4) 8 2
    let go := c.waiting && (if wait = 1 then hit (bits (c.fld 0 4) 10 7) else line.isNone)
    s.setBlt (some { c with go := c.go || go, crossed := c.crossed || (line.isNone && !c.waiting) })

end Sys2Proof.Machine
end

