-- ==== Sys2Proof/Machine/NectarCode.lean ====
section
/-! DEFINITION. Nectar coding (06 R130 to R142): the block header, prediction, classes, the adaptive Golomb–Rice code, run
mode, rows of a cell in both directions, and the serialisation that the CRC covers. -/

namespace Sys2Proof.Machine

/-- A block header (R130). -/
structure NecHdr where
  ver   : Nat
  mode  : Nat
  fmt   : Nat
  flags : Nat
  ctx   : Nat
  fsn   : Nat
  w     : Nat
  h     : Nat
  len   : Nat
  crc   : Nat
deriving DecidableEq, Repr

/-- The header in the first 24 bytes of a block. -/
def necHdr (b : List Byte) : NecHdr :=
  ⟨leAt b 0 1, leAt b 1 1, leAt b 2 1, leAt b 3 1, leAt b 4 4, leAt b 8 4, leAt b 12 2, leAt b 14 2, leAt b 16 4, leAt b 20 4⟩

/-- A header as 24 bytes. -/
def NecHdr.bytes (h : NecHdr) : List Byte :=
  leBytes 1 h.ver ++ leBytes 1 h.mode ++ leBytes 1 h.fmt ++ leBytes 1 h.flags ++ leBytes 4 h.ctx ++ leBytes 4 h.fsn
    ++ leBytes 2 h.w ++ leBytes 2 h.h ++ leBytes 4 h.len ++ leBytes 4 h.crc

/-- FLAGS.RESET. -/
def NecHdr.reset (h : NecHdr) : Bool := bit h.flags 0
/-- FLAGS.RUN. -/
def NecHdr.run (h : NecHdr) : Bool := bit h.flags 1

/-- Does a header keep to the stated values (R130), with its context below `lim`? The header of a job's block may hold any (R155). -/
def NecHdr.okFor (h : NecHdr) (ctxs : Nat) : Bool :=
  let lim := if h.fmt = 7 then 65535 else 512
  h.ver == 1 && decide (h.mode < 4) && (decide (h.fmt ≤ 4) || h.fmt == 7) && decide (h.flags < 4) && decide (h.ctx < ctxs)
    && decide (1 ≤ h.w) && decide (h.w ≤ lim) && decide (1 ≤ h.h) && decide (h.h ≤ lim) && decide (h.len ≤ 4194304)

/-- Does a header keep to the stated values (R130)? -/
def NecHdr.ok (h : NecHdr) : Bool := h.okFor 262144

/-- The component widths of a format in coding order (R131). -/
def compWidths (fmt : Nat) : List Nat :=
  match fmt with
  | 0 => [12, 12, 12, 4]
  | 1 => [8, 8, 8, 8]
  | 2 => [8]
  | 7 => [8]
  | _ => [4]

/-- An adaptive state (A, N) (R136). -/
abbrev GrState := Nat × Nat

/-- The initial state for width `n` (R137). -/
def grInit (n : Nat) : GrState := (max 2 (2 ^ n / 64), 1)

/-- The adaptive states of a context: 64 of mode, component and class, then the run states of INTRA and INTER. A
component that the format lacks holds zeros. -/
def statesInit (fmt : Nat) : List GrState :=
  let one := (List.range 32).map fun i =>
    match (compWidths fmt)[i / 8]? with
    | some n => grInit n
    | none => (0, 0)
  one ++ one ++ [grInit 12, grInit 12]

/-- The parameter k (R136). -/
def grK (st : GrState) (n : Nat) : Nat :=
  (List.range n).foldl (fun k _ => if st.2 * 2 ^ k < st.1 ∧ k < n - 1 then k + 1 else k) 0

/-- The state after a coded value (R137). -/
def grNext (st : GrState) (m : Nat) : GrState :=
  if st.2 + 1 = 64 then ((st.1 + m) / 2, 32) else (st.1 + m, st.2 + 1)

/-- The `k` low bits of `m`, least significant first. -/
def lowBits : Nat → Nat → List Bool
  | 0, _ => []
  | k + 1, m => (m % 2 == 1) :: lowBits k (m / 2)

/-- The number that bits spell, least significant first. -/
def bitsNat : List Bool → Nat
  | [] => 0
  | b :: bs => (if b then 1 else 0) + 2 * bitsNat bs

/-- The code of a value (R136). -/
def grEncode (st : GrState) (n m : Nat) : List Bool :=
  let k := grK st n
  let q := m / 2 ^ k
  if q < 2 * n then List.replicate q false ++ true :: lowBits k m
  else List.replicate (2 * n) false ++ lowBits n m

/-- Zero bits in front, up to `lim`, and what follows; none when the bits end first. -/
def zeros : Nat → List Bool → Option (Nat × List Bool)
  | 0, bs => some (0, bs)
  | _ + 1, [] => none
  | _ + 1, true :: bs => some (0, true :: bs)
  | l + 1, false :: bs => (zeros l bs).map fun e => (e.1 + 1, e.2)

/-- `k` bits as a number; none when fewer are left. -/
def takeBits (k : Nat) (bs : List Bool) : Option (Nat × List Bool) :=
  if bs.length < k then none else some (bitsNat (bs.take k), bs.drop k)

/-- The value that a code spells (R136); none is SYNTAX. -/
def grDecode (st : GrState) (n : Nat) (bs : List Bool) : Option (Nat × List Bool) :=
  let k := grK st n
  match zeros (2 * n) bs with
  | none => none
  | some (q, r) =>
    if q = 2 * n then takeBits n r
    else (takeBits k (r.drop 1)).map fun e => (q * 2 ^ k + e.1, e.2)

/-- The median-edge function (R133). -/
def med (a b c : Int) : Int :=
  if max a b ≤ c then min a b else if c ≤ min a b then max a b else a + b - c

/-- The neighbours a, b, c after the replacements of R132. -/
def neighbours (n : Nat) (x0 y0 : Bool) (left up upLeft : Nat) : Nat × Nat × Nat :=
  if x0 && y0 then (2 ^ (n - 1), 2 ^ (n - 1), 2 ^ (n - 1))
  else if y0 then (left, left, left)
  else if x0 then (up, up, up)
  else (left, up, upLeft)

/-- A row of pixels, each a list of components. -/
abbrev PixRow := List (List Nat)

/-- Component `q` of pixel `x` of a row. -/
def PixRow.at (r : PixRow) (x q : Nat) : Nat := (r.getD x []).getD q 0

/-- What a row is predicted from: the format, INTER or not, whether it is the first row, the row above, and the history
row with the history row above it. -/
structure RowCtx where
  fmt    : Nat
  inter  : Bool
  first  : Bool
  up     : PixRow
  hist   : PixRow
  histUp : PixRow

/-- The prediction and the class of component `q` (width `n`) at column `x`, with `cur` the row so far (R132 to R134). -/
def predict (c : RowCtx) (cur : PixRow) (x q n : Nat) : Nat × Nat :=
  let nb := neighbours n (x == 0) c.first (cur.at (x - 1) q) (c.up.at x q) (c.up.at (x - 1) q)
  let hn := neighbours n (x == 0) c.first (c.hist.at (x - 1) q) (c.histUp.at x q) (c.histUp.at (x - 1) q)
  let m := med nb.1 nb.2.1 nb.2.2
  let p := if c.inter then (clampI ((c.hist.at x q : Int) + m - med hn.1 hn.2.1 hn.2.2) 0 (2 ^ n - 1)).toNat else m.toNat
  let ad := fun a b : Nat => ((a : Int) - b).natAbs
  let d := if c.inter then ad nb.1 hn.1 + ad nb.2.1 hn.2.1 else ad nb.1 nb.2.2 + ad nb.2.1 nb.2.2
  (p, min 7 (bitLen (d / 2 ^ (n - 8))))

/-- The prediction error mapped to an unsigned value (R135). -/
def mapErr (n x p : Nat) : Nat :=
  let e := (x + 2 ^ n - p) % 2 ^ n
  if 2 ^ (n - 1) ≤ e then 2 * (2 ^ n - e) - 1 else 2 * e

/-- The component that a mapped value restores (R135). A code can spell an m above 2^n − 1, whose restored value is taken modulo 2^n
(log 124). -/
def unmapErr (n m p : Nat) : Nat :=
  if m % 2 = 0 then (p + m / 2) % 2 ^ n else (p + 2 ^ n - (m + 1) / 2) % 2 ^ n

/-- Index of a component's state. -/
def stIdx (inter : Bool) (q z : Nat) : Nat := (if inter then 32 else 0) + 8 * q + z

/-- Index of the run state of a mode. -/
def runIdx (inter : Bool) : Nat := if inter then 65 else 64

/-- The components of one pixel decoded in order: values, states, remaining bits, and whether every m was 0. -/
def decodePixel (c : RowCtx) (cur : PixRow) (x : Nat) :
    List (Nat × Nat) → List GrState → List Bool → Option (List Nat × List GrState × List Bool × Bool)
  | [], sts, bs => some ([], sts, bs, true)
  | (q, n) :: qs, sts, bs =>
    let pz := predict c cur x q n
    let i := stIdx c.inter q pz.2
    let st := sts.getD i (0, 0)
    match grDecode st n bs with
    | none => none
    | some (m, bs) =>
      match decodePixel c cur x qs (sts.set i (grNext st m)) bs with
      | none => none
      | some (vs, sts, bs, z) => some (unmapErr n m pz.1 :: vs, sts, bs, z && m == 0)

/-- The components of a format with their indexes. -/
def comps (fmt : Nat) : List (Nat × Nat) := (compWidths fmt).mapIdx fun i n => (i, n)

/-- `r` pixels reconstructed as their predictions (R139). -/
def predictRun (c : RowCtx) : Nat → PixRow → PixRow
  | 0, cur => cur
  | r + 1, cur => predictRun c r (cur ++ [(comps c.fmt).map fun e => (predict c cur cur.length e.1 e.2).1])

/-- A row of width `w` decoded (R136 to R139), at most `fuel` coded pixels; `zero` tells that the previous pixel was coded
with m = 0 in every component. None is SYNTAX. -/
def decodePixels (c : RowCtx) (run : Bool) (w : Nat) :
    Nat → PixRow → Bool → List GrState → List Bool → Option (PixRow × List GrState × List Bool)
  | 0, cur, _, sts, bs => some (cur, sts, bs)
  | fuel + 1, cur, zero, sts, bs =>
    if w ≤ cur.length then some (cur, sts, bs)
    else
      let ri := runIdx c.inter
      let rs := sts.getD ri (0, 0)
      let step : Option (PixRow × List GrState × List Bool) :=
        if run && zero && decide (0 < cur.length) then
          match grDecode rs 12 bs with
          | none => none
          | some (r, bs) =>
            if w < cur.length + r then none else some (predictRun c r cur, sts.set ri (grNext rs r), bs)
        else some (cur, sts, bs)
      match step with
      | none => none
      | some (cur, sts, bs) =>
        if w ≤ cur.length then some (cur, sts, bs)
        else match decodePixel c cur cur.length (comps c.fmt) sts bs with
          | none => none
          | some (px, sts, bs, z) => decodePixels c run w fuel (cur ++ [px]) z sts bs

/-- A row decoded from a byte boundary, with the padding dropped (R138). -/
def decodeRow (c : RowCtx) (run : Bool) (w : Nat) (sts : List GrState) (bs : List Bool) :
    Option (PixRow × List GrState × List Bool) :=
  (decodePixels c run w (w + 1) [] false sts bs).map fun e => (e.1, e.2.1, e.2.2.drop (e.2.2.length % 8))

/-- The components of one pixel coded in order: bits, states, and whether every m was 0. -/
def encodePixel (c : RowCtx) (cur : PixRow) (x : Nat) (px : List Nat) :
    List (Nat × Nat) → List GrState → List Bool × List GrState × Bool
  | [], sts => ([], sts, true)
  | (q, n) :: qs, sts =>
    let pz := predict c cur x q n
    let i := stIdx c.inter q pz.2
    let st := sts.getD i (0, 0)
    let m := mapErr n (px.getD q 0) pz.1
    let r := encodePixel c cur x px qs (sts.set i (grNext st m))
    (grEncode st n m ++ r.1, r.2.1, r.2.2 && m == 0)

/-- How many of the pixels ahead equal their predictions (R139). -/
def runLength (c : RowCtx) : PixRow → PixRow → Nat
  | _, [] => 0
  | cur, px :: rest =>
    if (comps c.fmt).all fun e => px.getD e.1 0 == (predict c cur cur.length e.1 e.2).1 then
      runLength c (cur ++ [px]) rest + 1
    else 0

/-- A row coded (R136 to R139): `todo` are the pixels still to code. -/
def encodePixels (c : RowCtx) (run : Bool) : Nat → PixRow → PixRow → Bool → List GrState → List Bool × List GrState
  | 0, _, _, _, sts => ([], sts)
  | fuel + 1, cur, todo, zero, sts =>
    let ri := runIdx c.inter
    let rs := sts.getD ri (0, 0)
    let r := if run && zero && decide (0 < cur.length) && !todo.isEmpty then some (runLength c cur todo) else none
    let head := match r with
      | some r => grEncode rs 12 r
      | none => []
    let sts := match r with
      | some r => sts.set ri (grNext rs r)
      | none => sts
    let cur := cur ++ todo.take (r.getD 0)
    match todo.drop (r.getD 0) with
    | [] => (head, sts)
    | px :: rest =>
      let e := encodePixel c cur cur.length px (comps c.fmt) sts
      let t := encodePixels c run fuel (cur ++ [px]) rest e.2.2 e.2.1
      (head ++ e.1 ++ t.1, t.2)

/-- Bits as bytes, padded with 0 bits (R138). -/
def bitsToBytes : Nat → List Bool → List Byte
  | 0, _ => []
  | n + 1, bs => if bs.isEmpty then [] else byte (bitsNat (bs.take 8)) :: bitsToBytes n (bs.drop 8)

/-- The bits of bytes, bit 0 of byte 0 first (R138). -/
def bytesToBits (bs : List Byte) : List Bool := bs.flatMap fun b => lowBits 8 b.toNat

/-- A row coded to bytes. -/
def encodeRow (c : RowCtx) (run : Bool) (sts : List GrState) (row : PixRow) : List Byte × List GrState :=
  let e := encodePixels c run (row.length + 1) [] row false sts
  (bitsToBytes (e.1.length + 1) e.1, e.2)

/-- Bits per pixel of a block format. -/
def necBits (fmt : Nat) : Nat := (compWidths fmt).foldl (· + ·) 0

/-- The pixel word of a pixel's components (03 R63). -/
def pixelOf (fmt : Nat) (px : List Nat) : Nat :=
  ((compWidths fmt).zip px).foldr (fun e acc => e.2 % 2 ^ e.1 + 2 ^ e.1 * acc) 0

/-- The components of a pixel word. -/
def compsOf (fmt w : Nat) : List Nat :=
  ((compWidths fmt).foldl (fun (acc : List Nat × Nat) n => (acc.1 ++ [acc.2 % 2 ^ n], acc.2 / 2 ^ n)) ([], w)).1

/-- The bytes of a row as the CRC and memory take them (R141, 03 R64). -/
def rowBytes (fmt : Nat) (row : PixRow) : List Byte :=
  leBytes ((row.length * necBits fmt + 7) / 8) (packBits (necBits fmt) (row.map (pixelOf fmt)))

/-- A row of `w` pixels from the bytes of memory at its first pixel. -/
def rowOf (fmt w : Nat) (bs : List Byte) : PixRow :=
  let n := leNat bs
  (List.range w).map fun x => compsOf fmt (bits n (x * necBits fmt) (necBits fmt))

/-- Bytes that a row of `w` pixels takes. -/
def rowLen (fmt w : Nat) : Nat := (w * necBits fmt + 7) / 8

/-- A running CRC-32C continued over further bytes. -/
def crcMore (c : Nat) (bs : List Byte) : Nat := (bs.foldl (crcByte 0x82F63B78) (c ^^^ 0xFFFFFFFF)) ^^^ 0xFFFFFFFF

end Sys2Proof.Machine
end

