-- ==== Sys2Proof/Machine/Nectar.lean ====
section
/-! DEFINITION. The Nectar codec (06 R143 to R166): frame sequence numbers and rotation buffers, context records and their
cache, the decode of blocks, posted jobs with resumption, the encoder direction, and the clip feeder. -/

namespace Sys2Proof.Machine

/-! Result codes (R160). -/
abbrev nrOk : Nat := 0
abbrev nrCrc : Nat := 1
abbrev nrSyntax : Nat := 2
abbrev nrNoHistory : Nat := 3
abbrev nrFormat : Nat := 4
abbrev nrGeometry : Nat := 5
abbrev nrNoLayer : Nat := 6
abbrev nrStale : Nat := 7
abbrev nrDuplicate : Nat := 8
abbrev nrOwner : Nat := 9
abbrev nrHeader : Nat := 10
abbrev nrHbm : Nat := 11
abbrev nrExhausted : Nat := 12
abbrev nrSpace : Nat := 13
abbrev nrResume : Nat := 14
abbrev nrRange : Nat := 15
abbrev nrClip : Nat := 16

/-! Defaults of the codec's tables. -/

/-- The rotation state of a layer that has opened no FSN. -/
def necLayer0 : NecLayer := ⟨false, false, 0, 0, 0, [], ⟨0, 0⟩, ⟨0, 0⟩, ⟨0, 0⟩, 0, []⟩

/-- An idle unit. -/
def necUnit0 : NecUnit := ⟨.idle, 0⟩

/-- The rotation state of layer `n`. -/
def State.necL (s : State) (n : Nat) : NecLayer := s.nec.layers.get (fun _ => necLayer0) n

/-- Unit `u`. -/
def State.necU (s : State) (u : Nat) : NecUnit := s.nec.units.get (fun _ => necUnit0) u

/-- Rotation buffer `b` of a layer. -/
def NecLayer.getBuf (l : NecLayer) (b : Nat) : NecBuf := if b = 0 then l.b0 else if b = 1 then l.b1 else l.b2

/-- A rotation buffer replaced. -/
def NecLayer.putBuf (l : NecLayer) (b : Nat) (x : NecBuf) : NecLayer :=
  if b = 0 then { l with b0 := x } else if b = 1 then { l with b1 := x } else { l with b2 := x }

/-- The three words that NEC_LAYERn shows (R165). -/
def State.showNec (s : State) (n : Nat) : State :=
  let l := s.necL n
  let st := l.epoch % 65536 * 65536 + ofBool l.isOpen * 1024 + l.buf * 256 + l.b2.st * 16 + l.b1.st * 4 + l.b0.st
  ((s.wr (Reg.NEC_LAYER_FSN n) (word l.fsn)).wr (Reg.NEC_LAYER_FILL n)
    (word (if l.isOpen then l.landed.length else 0))).wr (Reg.NEC_LAYER_STATE n) (word st)

/-- The blocks deferred, over all layers. -/
def State.deferredCount (s : State) : Nat := (List.range 32).foldl (fun a n => a + (s.necL n).deferred.length) 0

/-- The blocks that units decode. -/
def State.unitBlocks (s : State) : List NecBlock := (List.range 32).filterMap fun u => match (s.necU u).work with
  | .block _ b => some b
  | _ => none

/-- The blocks of the host that take space in the input ring: waiting, deferred or in a unit (log 119). -/
def State.ringBlocks (s : State) : List NecBlock :=
  (s.nec.ring ++ ((List.range 32).flatMap fun n => (s.necL n).deferred) ++ s.unitBlocks).filter fun b => !b.feeder

/-- NEC_STATUS and NEC_RING_FILL after a change of the blocks or the units. -/
def State.showQueues (s : State) : State :=
  let busy := ((List.range 32).filter fun u => decide ((s.necU u).work ≠ .idle)).length
  let bytes := s.ringBlocks.foldl (fun a b => a + b.size) 0
  ((s.set Reg.NEC_STATUS.UNITS_BUSY busy).set Reg.NEC_STATUS.DEFERRED (min 0xFFFF s.deferredCount)).wr Reg.NEC_RING_FILL
    (word (ceilDiv bytes 1024))

/-- Layer `n` replaced, with its registers. -/
def State.setNecL (s : State) (n : Nat) (l : NecLayer) : State :=
  ({ s with nec := { s.nec with layers := s.nec.layers.set (fun _ => necLayer0) n l } }).showNec n

/-- Unit `u` replaced. -/
def State.setNecU (s : State) (u : Nat) (x : NecUnit) : State :=
  ({ s with nec := { s.nec with units := s.nec.units.set (fun _ => necUnit0) u x } }).showQueues

/-! The input ring (R145; 12 R301). -/

/-- The contexts whose records units use. -/
def State.unitCtxs (s : State) : List Nat := (List.range 32).filterMap fun u => match (s.necU u).work with
  | .block _ b => some (necHdr b.hdr).ctx
  | .seg _ d => some (bits (leAt d 4 4) 0 18)
  | .idle => none

/-- A piece of memory put among others in the order of their addresses. -/
def spanInsert (x : Nat × Nat) : List (Nat × Nat) → List (Nat × Nat)
  | [] => [x]
  | y :: ys => if x.1 ≤ y.1 then x :: y :: ys else y :: spanInsert x ys

/-- The pieces of the ring that hold a block. -/
def State.ringTaken (s : State) : List (Nat × Nat) := (s.ringBlocks.flatMap (·.spans)).foldr spanInsert []

/-- The first `n` free bytes from `a` up to `fin`, between the taken pieces: where a block comes to lie in the ring (log 119). -/
def takeSpans (fin : Nat) : List (Nat × Nat) → (a n : Nat) → List (Nat × Nat)
  | [], a, n => if n = 0 ∨ fin ≤ a then [] else [(a, min n (fin - a))]
  | x :: xs, a, n =>
    if n = 0 then []
    else if x.1 ≤ a then takeSpans fin xs (max a (x.1 + x.2)) n
    else if n ≤ x.1 - a then [(a, n)]
    else (a, x.1 - a) :: takeSpans fin xs (x.1 + x.2) (n - (x.1 - a))

/-- The place of a new block of `n` bytes in the ring. -/
def State.ringPlace (s : State) (n : Nat) : List (Nat × Nat) :=
  let a := s.get Reg.NEC_RING_BASE.ADDR * 2 ^ 20
  takeSpans (a + s.get Reg.NEC_RING_SIZE.MIB * 2 ^ 20) s.ringTaken a n

/-- Bytes stored by source `src` piece by piece; before the wipe they wait (12 R317). -/
def State.storeSpans (s : State) (src : Nat) : List (Nat × Nat) → List Byte → State
  | [], _ => s
  | x :: xs, bs => State.storeSpans (s.hbmPost src x.1 (bs.take x.2)) src xs (bs.drop x.2)

/-- Bytes read piece by piece; none after an uncorrectable read. -/
def State.readSpans (s : State) : List (Nat × Nat) → Option (List Byte)
  | [] => some []
  | x :: xs => match s.hbmRead (x.1 % hbmSize) x.2, State.readSpans s xs with
    | some a, some b => some (a ++ b)
    | _, _ => none

/-- A complete block of the host enters the ring: the ingress parser writes it into HBM (12 R301). -/
def State.ringPut (s : State) (bs : List Byte) : State :=
  let at' := s.ringPlace bs.length
  let s := s.storeSpans 2 at' bs
  { s with nec := { s.nec with ring := s.nec.ring ++ [(⟨bs.take 24, bs.length, at', false⟩ : NecBlock)] } }.showQueues

/-- The throttle pause of level × 256 ns, in 1/8 ns (05 R123, 06 R164, 13 R330). -/
def State.throttlePause (s : State) : Nat := s.get Reg.THM_THROTTLE.LEVEL * 2048

/-! Context records (R151 to R153). -/

/-- A context record. -/
structure CtxRec where
  histValid : Bool
  resume    : Bool
  dir       : Bool
  layer     : Nat
  fmt       : Nat
  lastFsn   : Nat
  epoch     : Nat
  histAddr  : Nat
  histPitch : Nat
  resHdr    : List Byte
  resRow    : Nat
  resIn     : Nat
  resOut    : Nat
  resCrc    : Nat
  resHdrAddr : Nat
  states    : List GrState
  blocks    : Nat
  errors    : Nat
  fresh     : Bool
deriving DecidableEq, Repr

/-- MAGIC of a record. -/
def ctxMagic : Nat := 0x4E435831

/-- An adaptive state in 8 bytes (R151). -/
def grBytes (g : GrState) : List Byte := leBytes 4 g.1 ++ leBytes 2 g.2 ++ leBytes 2 0

/-- A record as 1,024 bytes (R151). -/
def CtxRec.bytes (r : CtxRec) : List Byte :=
  let flags := ofBool r.histValid + 2 * ofBool r.resume + 4 * ofBool r.dir + 256 * (r.layer % 256) + 65536 * (r.fmt % 8)
  let body := leBytes 4 ctxMagic ++ leBytes 4 flags ++ leBytes 4 r.lastFsn ++ leBytes 4 r.epoch ++ leBytes 8 r.histAddr
    ++ leBytes 4 r.histPitch ++ leBytes 4 0 ++ (r.resHdr ++ List.replicate 24 (0 : Byte)).take 24
    ++ leBytes 2 r.resRow ++ leBytes 2 0 ++ leBytes 4 r.resIn ++ leBytes 4 r.resOut ++ leBytes 4 r.resCrc
    ++ leBytes 8 r.resHdrAddr ++ List.replicate 48 (0 : Byte) ++ r.states.flatMap grBytes
    ++ leBytes 4 r.blocks ++ leBytes 4 r.errors ++ List.replicate 356 (0 : Byte)
  body ++ leBytes 4 (crc32c body)

/-- A fresh record (R152). -/
def ctxFresh : CtxRec :=
  ⟨false, false, false, 0, 0, 0, 0, 0, 0, [], 0, 0, 0, 0, 0, [], 0, 0, true⟩

/-- The record in 1,024 bytes, and whether its CRC failed (R152). -/
def ctxOf (b : List Byte) : CtxRec × Bool :=
  if leAt b 0 4 ≠ ctxMagic then (ctxFresh, false)
  else if leAt b 0x3FC 4 ≠ crc32c (b.take 0x3FC) then (ctxFresh, true)
  else
    let f := leAt b 4 4
    (⟨bit f 0, bit f 1, bit f 2, bits f 8 8, bits f 16 3, leAt b 8 4, leAt b 12 4, leAt b 0x10 8, leAt b 0x18 4,
      slice b 0x20 24, leAt b 0x38 2, leAt b 0x3C 4, leAt b 0x40 4, leAt b 0x44 4, leAt b 0x48 8,
      (List.range 66).map (fun i => (leAt b (0x80 + 8 * i) 4, leAt b (0x84 + 8 * i) 2)),
      leAt b 0x290 4, leAt b 0x294 4, false⟩, false)

/-- HBM address of the record of a context. -/
def State.ctxAddr (s : State) (ctx : Nat) : Nat := s.get Reg.NEC_CTX_BASE.ADDR * 2 ^ 20 + 1024 * ctx

/-- A record enters the cache as the most recently used one; of more than 2,048 the least recently used that no unit uses leaves, and is
written back when it is modified (R153). -/
def State.cachePut (s : State) (ctx : Nat) (bs : List Byte) (modified : Bool) : State :=
  let kept := (ctx, bs, modified) :: s.nec.cache.filter fun e => e.1 != ctx
  if kept.length ≤ 2048 then { s with nec := { s.nec with cache := kept } }
  else
    let goes := fun e : Nat × List Byte × Bool => !(s.unitCtxs.contains e.1)
    let s' : State := { s with nec := { s.nec with cache := (dropFirst goes kept.reverse).reverse } }
    match kept.reverse.find? goes with
    | none => s'
    | some e => if e.2.2 then s'.hbmStore 3 (s'.ctxAddr e.1) e.2.1 else s'

/-- The record of a context from the cache or from HBM; none after an uncorrectable read. One whose CRC fails is posted and replaced
by a fresh one (R152). -/
def State.ctxLoad (s : State) (ctx : Nat) : Option (CtxRec × State) :=
  match s.nec.cache.find? (fun e => e.1 == ctx) with
  | some e => some ((ctxOf e.2.1).1, s.cachePut ctx e.2.1 e.2.2)
  | none =>
    let s := s.hbmTouch 3 (s.ctxAddr ctx % hbmSize) 1024
    match s.hbmRead (s.ctxAddr ctx % hbmSize) 1024 with
    | none => none
    | some b =>
      if (ctxOf b).2 then some (ctxFresh, (s.cachePut ctx (List.replicate 1024 (0 : Byte)) true).post 0x0604 sevWarn (p4 ctx))
      else some ((ctxOf b).1, s.cachePut ctx b false)

/-- A unit starts on a context: its record comes into the cache, where it stays until the unit ends (R153). -/
def State.ctxFetch (s : State) (ctx : Nat) : State :=
  match s.ctxLoad ctx with
  | none => s
  | some e => e.2

/-- A modified record is saved (R149, R153). -/
def State.ctxSave (s : State) (ctx : Nat) (r : CtxRec) : State := s.cachePut ctx r.bytes true

/-- Every modified record goes back to HBM (R153). -/
def State.ctxFlush (s : State) : State :=
  let s' := s.nec.cache.foldl (fun s e => if e.2.2 then s.hbmStore 3 (s.ctxAddr e.1) e.2.1 else s) s
  { s' with nec := { s'.nec with cache := s'.nec.cache.map fun e => (e.1, e.2.1, false) } }

/-- The ERRORS counter raised and nothing else changed (R149). -/
def State.ctxError (s : State) (ctx : Nat) : State :=
  match s.ctxLoad ctx with
  | none => s
  | some (r, s) => s.ctxSave ctx { r with errors := (r.errors + 1) % 2 ^ 32, fresh := false,
                                          states := if r.fresh then statesInit r.fmt else r.states }

/-- The adaptive states that a block starts with (R137, R152). -/
def CtxRec.startStates (r : CtxRec) (fmt : Nat) (reset : Bool) : List GrState :=
  if r.fresh || reset || r.fmt != fmt then statesInit fmt else r.states

/-! Layers and cells of a context (R128, R129, R143). -/

/-- The layer enabled in rotation whose range holds a context. -/
def State.layerOfCtx (s : State) (ctx : Nat) : Option Nat :=
  s.enabledL.find? fun n => inRotation s.act n &&
    decide (s.ac (Reg.LAYER_STREAM.BASE n) ≤ ctx) &&
    decide (ctx < s.ac (Reg.LAYER_STREAM.BASE n) + s.ac (Reg.LAYER_STREAM.COUNT n))

/-- The cell of a context: first pixel and size. -/
structure CellRect where
  x : Nat
  y : Nat
  w : Nat
  h : Nat

/-- The cell that a context of layer `n` codes (R128). -/
def State.cellOf (s : State) (n ctx : Nat) : CellRect :=
  let i := ctx - s.ac (Reg.LAYER_STREAM.BASE n)
  let cols := cellCols s.act n
  let cw := s.ac (Reg.LAYER_CELL.CW n)
  let ch := s.ac (Reg.LAYER_CELL.CH n)
  let x := i % cols * cw
  let y := i / cols * ch
  ⟨x, y, min (s.ac (Reg.LAYER_SIZE.SRC_W n)) (x + cw) - x, min (s.ac (Reg.LAYER_SIZE.SRC_H n)) (y + ch) - y⟩

/-- Byte address of the first pixel of a cell in rotation buffer `b` of layer `n`. -/
def State.cellAddr (s : State) (n b : Nat) (c : CellRect) : Nat :=
  s.ac (Reg.LAYER_BUF.ADDR n b) * 256 + c.y * s.ac (Reg.LAYER_PITCH.PITCH n)
    + c.x * fmtBits (s.ac (Reg.LAYER_CTRL.FORMAT n)) / 8

/-- The checks of R130 and R143 in order. -/
def State.blockCheck (s : State) (b : NecBlock) : Nat × Nat :=
  let h := necHdr b.hdr
  if h.ok = false ∨ b.size < 24 then (nrHeader, 0)
  else match s.layerOfCtx h.ctx with
    | none => (nrNoLayer, 0)
    | some n =>
      if s.layerOwner n ≠ (if b.feeder then .supervisor else .host) then (nrOwner, n)
      else if h.fmt ≠ s.ac (Reg.LAYER_CTRL.FORMAT n) then (nrFormat, n)
      else
        let c := s.cellOf n h.ctx
        if h.w ≠ c.w ∨ h.h ≠ c.h then (nrGeometry, n) else (nrOk, n)

/-- The signed 32-bit difference `a − b` (R144). -/
def diff32 (a b : Nat) : Int := signed 32 (a % 2 ^ 32 + 2 ^ 32 - b % 2 ^ 32)

/-! Counting the ends of blocks and jobs (R160, R165). -/

/-- EV_NEC_PLAY: clip address, 0 start, 1 loop, 2 next, 3 end or an error code of R160, and the clip frame. -/
def State.postPlay (s : State) (sev what : Nat) : State :=
  s.post 0x0605 sev (p8 (s.nec.playClip * 256) ++ p1 what ++ p4 (s.get Reg.NEC_PLAY_STATUS.FRAME))

/-- The feeder stops with an error (R162). -/
def State.playError (s : State) : State :=
  if s.get Reg.NEC_PLAY_STATUS.STATE = 1 then (s.set Reg.NEC_PLAY_STATUS.STATE 2).postPlay sevWarn nrClip else s

/-- A block that ends in error: events for the first 64 of a Deck frame, later ones counted only (R160). The count runs from latch point
to latch point, and without a frame there is no limit (log 121). -/
def State.blockError (s : State) (ctx fsn code : Nat) : State :=
  if s.deck.phase = .idle then s.post 0x0601 sevWarn (p4 ctx ++ p4 fsn ++ p1 code)
  else
    let n := s.nec.frameErrs
    let s : State := { s with nec := { s.nec with frameErrs := n + 1 } }
    if n < 64 then s.post 0x0601 sevWarn (p4 ctx ++ p4 fsn ++ p1 code) else s

/-- A block or segment ends with a result (R160, R165). -/
def State.countEnd (s : State) (code : Nat) : State :=
  let s := s.count Reg.NEC_COUNT_BLOCKS.COUNT
  if code = nrOk ∨ code = nrExhausted then s else s.count Reg.NEC_COUNT_ERRORS.COUNT

/-- A block ends in error (R149, R160, R162). The record whose ERRORS rises is that of CTX[17:0] also where CTX[31:18] are not 0
(log 122). -/
def State.blockFail (s : State) (b : NecBlock) (code : Nat) : State :=
  let h := necHdr b.hdr
  let s := s.countEnd code
  let s := if b.size < 8 then s else s.ctxError (h.ctx % 2 ^ 18)
  if b.feeder then s.playError else s.blockError h.ctx h.fsn code

/-! Opening and abandoning FSNs (R144 to R147). -/

/-- Does a unit work on a block of layer `n`? -/
def State.inFlight (s : State) (n : Nat) : Bool :=
  (List.range 32).any fun u => match (s.necU u).work with
    | .block m _ => m == n
    | _ => false

/-- The open FSN is abandoned (R147): its buffer is free, the EPOCH rises and its deferred blocks go. -/
def State.abandon (s : State) (n : Nat) : State :=
  let l := s.necL n
  if l.isOpen then
    let missing := l.count - l.landed.length
    let l' := (l.putBuf l.buf ⟨0, l.fsn⟩)
    let l' := { l' with isOpen := false, epoch := (l.epoch + 1) % 2 ^ 32,
                        deferred := l.deferred.filter fun b => (necHdr b.hdr).fsn != l.fsn }
    (s.setNecL n l').post 0x0602 sevWarn (p1 n ++ p4 l.fsn ++ c2 missing ++ p4 l'.epoch)
  else s

/-- The buffer after the last opened one; the first FSN opens BUF0 (R144). -/
def NecLayer.nextBuf (l : NecLayer) : Nat := if l.opened then (l.buf + 1) % 3 else 0

/-- FSN `f` is opened in the next buffer in turn. -/
def State.openFsn (s : State) (n f : Nat) : State :=
  let l := s.necL n
  let b := l.nextBuf
  s.setNecL n { l.putBuf b ⟨1, f⟩ with
    opened := true, isOpen := true, fsn := f, buf := b, count := s.ac (Reg.LAYER_STREAM.COUNT n), landed := [] }

/-- Is the next buffer in turn free (R145)? -/
def NecLayer.nextFree (l : NecLayer) : Bool := (l.getBuf l.nextBuf).st == 0

/-- How a block stands to the FSNs of its layer (R144). -/
inductive FsnCase where
  /-- It decodes into the open buffer. -/
  | decode
  /-- It is dropped with a result code. -/
  | drop (code : Nat)
  /-- It is newer: its FSN is to be opened. -/
  | newer
deriving DecidableEq, Repr

/-- The case of FSN `f` of the context with index `i` in its layer (R144). -/
def NecLayer.fsnCase (l : NecLayer) (f i : Nat) : FsnCase :=
  let d := diff32 f l.fsn
  if l.isOpen then
    (if d = 0 then (if l.landed.contains i then .drop nrDuplicate else .decode)
     else if 0 < d then .newer else .drop nrStale)
  else if l.opened = false ∨ 0 < d then .newer
  else if d = 0 then (if l.landed.contains i then .drop nrDuplicate else .drop nrStale)
  else .drop nrStale

/-- A block starts on a unit, with its record in the cache. -/
def State.startBlock (s : State) (u n : Nat) (b : NecBlock) : State :=
  let s := s.ctxFetch (necHdr b.hdr).ctx
  s.setNecU u { s.necU u with work := .block n b }

/-- A block waits on its layer's list (R145). -/
def State.deferBlock (s : State) (n : Nat) (b : NecBlock) : State :=
  (s.setNecL n { s.necL n with deferred := (s.necL n).deferred ++ [b] }).showQueues

/-- Does another unit work on the same context (R153)? -/
def State.ctxBusy (s : State) (ctx : Nat) : Bool := s.unitCtxs.contains ctx

/-- A block that has been checked meets the FSNs of its layer (R144, R145): it starts, waits or is dropped. `front` tells
that it comes from the layer's own list. -/
def State.placeBlock (s : State) (u n : Nat) (b : NecBlock) (front : Bool) : State :=
  let h := necHdr b.hdr
  let i := h.ctx - s.ac (Reg.LAYER_STREAM.BASE n)
  let l := s.necL n
  let wait := fun s : State =>
    if front then (s.setNecL n { s.necL n with deferred := b :: (s.necL n).deferred }).showQueues else s.deferBlock n b
  match l.fsnCase h.fsn i with
  | .decode => if s.ctxBusy h.ctx then wait s else s.startBlock u n b
  | .drop code => s.blockFail b code
  | .newer =>
    if s.inFlight n then wait s
    else
      let s := s.abandon n
      if (s.necL n).nextFree then (s.openFsn n h.fsn).startBlock u n b else wait s

/-- Can unit `u` take work (R164, R165)? Before the wipe of HBM its reads are held (12 R317). -/
def State.unitFree (s : State) (u : Nat) : Bool :=
  decide (u < 32) && (s.necU u).work == .idle && decide ((s.necU u).freeAt ≤ s.nt.now8)
    && s.flag Reg.NEC_CTRL.EN && decide (s.deck.dev ≠ .safeHalt) && !s.hbmHolds

/-- The head of a layer's list meets the FSNs again. -/
def State.retryDeferred (s : State) (u n : Nat) : State :=
  match (s.necL n).deferred with
  | [] => s
  | b :: rest =>
    if s.unitFree u then
      let s := (s.setNecL n { s.necL n with deferred := rest }).showQueues
      match s.blockCheck b with
      | (0, m) => s.placeBlock u m b true
      | (code, _) => s.blockFail b code
    else s

/-- Could the head of a layer's list decode into the open buffer now? -/
def State.headReady (s : State) (n : Nat) : Bool :=
  match (s.necL n).deferred with
  | [] => false
  | b :: _ =>
    let h := necHdr b.hdr
    (s.necL n).fsnCase h.fsn (h.ctx - s.ac (Reg.LAYER_STREAM.BASE n)) != .newer && !(s.ctxBusy h.ctx)

/-- The codec takes a block (R143, R144): first a waiting block of a layer that can go on, then the oldest of the ring. -/
def State.takeBlock (s : State) (u : Nat) : State :=
  if s.unitFree u then
    match (List.range 32).find? s.headReady with
    | some n => s.retryDeferred u n
    | none =>
      match s.nec.ring with
      | [] => s
      | b :: rest =>
        let s : State := { s with nec := { s.nec with ring := rest } }.showQueues
        match s.blockCheck b with
        | (0, n) => if (s.necL n).deferred.isEmpty then s.placeBlock u n b false else s.deferBlock n b
        | (code, _) => s.blockFail b code
  else s

/-- A deferred block proceeds once the next buffer has become free (R145). -/
def State.deferredRelease (s : State) (u n : Nat) : State :=
  if (s.necL n).isOpen = false ∧ (s.necL n).nextFree = true then s.retryDeferred u n else s

/-- A newer FSN is opened once the earlier blocks of the layer have ended (R144). -/
def State.fsnOpen (s : State) (u n : Nat) : State :=
  if (s.necL n).isOpen = true ∧ s.inFlight n = false then s.retryDeferred u n else s

/-! Decoding (R131 to R142, R148). -/

/-- Where rows of a history cell come from. -/
structure HistSrc where
  addr  : Nat
  pitch : Nat

/-- Can `n` rows of `len` bytes each, `pitch` apart, be read without an uncorrectable error? -/
def State.rowsOk (s : State) (a pitch len n : Nat) : Bool :=
  s.get Reg.HBM_STATUS.FAILED == 0 || (List.range n).all fun y => s.hbmOk ((a + y * pitch) % hbmSize) len

/-- A unit reads rows. -/
def State.touchRows (s : State) (a pitch len n : Nat) : State :=
  (List.range n).foldl (fun s y => s.hbmTouch 3 ((a + y * pitch) % hbmSize) len) s

/-- Row `y` of the history cell. -/
def State.histRow (s : State) (hs : HistSrc) (fmt w y : Nat) : PixRow :=
  rowOf fmt w (memRead s.hbm (hs.addr + y * hs.pitch) (rowLen fmt w))

/-- A row written at its byte address; a 4-bit row of odd width leaves the last high nibble as it was (R155). -/
def State.putRow (s : State) (a fmt : Nat) (row : PixRow) : State :=
  let bs := rowBytes fmt row
  if row.length * necBits fmt % 8 = 0 then s.hbmStore 3 a bs
  else
    let last := a + bs.length - 1
    let old := (s.hbm.get zeroByte (last % hbmSize)).toNat
    s.hbmStore 3 a (bs.take (bs.length - 1) ++ [byte ((bs.getD (bs.length - 1) 0).toNat + old / 16 * 16)])

/-- The progress of a decode: rows done, states, remaining bits, last row, running CRC. -/
structure DecRun where
  st   : State
  y    : Nat
  sts  : List GrState
  bits : List Bool
  last : PixRow
  crc  : Nat

/-- Up to `n` rows decoded and written, with the progress made; false is SYNTAX. Row r of the segment goes to `out + r × pitch`. -/
def decodeRows (hd : NecHdr) (hs : HistSrc) (out pitch r0 : Nat) : Nat → DecRun → Bool × DecRun
  | 0, d => (true, d)
  | n + 1, d =>
    let inter := hd.mode == 1
    let d := if hd.mode = 1 ∨ hd.mode = 2 then
        { d with st := d.st.hbmTouch 3 ((hs.addr + d.y * hs.pitch) % hbmSize) (rowLen hd.fmt hd.w) }
      else d
    let row : Option (PixRow × List GrState × List Bool) :=
      match hd.mode with
      | 2 => some (d.st.histRow hs hd.fmt hd.w d.y, d.sts, d.bits)
      | 3 => some (List.replicate hd.w (compsOf hd.fmt (bitsNat (d.bits.take (necBits hd.fmt)))), d.sts, d.bits)
      | _ =>
        decodeRow ⟨hd.fmt, inter, d.y == 0, d.last, if inter then d.st.histRow hs hd.fmt hd.w d.y else [],
          if inter && decide (0 < d.y) then d.st.histRow hs hd.fmt hd.w (d.y - 1) else []⟩ hd.run hd.w d.sts d.bits
    match row with
    | none => (false, d)
    | some (row, sts, bs) =>
      decodeRows hd hs out pitch r0 n
        ⟨d.st.putRow (out + (d.y - r0) * pitch) hd.fmt row, d.y + 1, sts, bs, row, crcMore d.crc (rowBytes hd.fmt row)⟩

/-- Payload bytes of a FILL block (R140). -/
def fillLen (fmt : Nat) : Nat := (necBits fmt + 7) / 8

/-- Does a SKIP or FILL block break R140, or is its payload cut short? -/
def fillBad (hd : NecHdr) (payload : List Byte) : Bool :=
  match hd.mode with
  | 2 => hd.len != 0
  | 3 => hd.len != fillLen hd.fmt || payload.length != fillLen hd.fmt
      || ((hd.fmt == 3 || hd.fmt == 4) && decide (16 ≤ (payload.getD 0 0).toNat))
  | _ => false

/-- A whole block decoded from its payload into `out`: the result code, the run, and the state. -/
def State.decodeBlock (s : State) (hd : NecHdr) (hs : HistSrc) (payload : List Byte) (sts : List GrState) (out pitch : Nat) :
    Nat × DecRun :=
  let d0 : DecRun := ⟨s, 0, sts, bytesToBits payload, [], 0⟩
  if fillBad hd payload then (nrSyntax, d0)
  else
    let r := decodeRows hd hs out pitch 0 hd.h d0
    if r.1 = false ∨ (hd.mode < 2 ∧ r.2.bits.isEmpty = false) then (nrSyntax, r.2)
    else if r.2.crc ≠ hd.crc then (nrCrc, r.2)
    else (nrOk, r.2)

/-- Does an INTER or SKIP block of FSN `f` have history (R148)? -/
def CtxRec.hasHistory (r : CtxRec) (epoch f : Nat) : Bool :=
  r.histValid && r.epoch == epoch && (r.lastFsn + 1) % 2 ^ 32 == f % 2 ^ 32

/-- A context has landed a block: the open buffer becomes ready when it was the last one (R146). -/
def State.land (s : State) (n i f : Nat) : State :=
  let l := s.necL n
  if l.isOpen && l.fsn == f then
    let landed := if l.landed.contains i then l.landed else i :: l.landed
    if landed.length = l.count then
      s.setNecL n { l.putBuf l.buf ⟨2, f⟩ with isOpen := false, landed := landed }
    else s.setNecL n { l with landed := landed }
  else s

/-- A unit reads the bytes of a block from the ring or the clip. -/
def State.touchSpans (s : State) (l : List (Nat × Nat)) : State := l.foldl (fun s x => s.hbmTouch 3 (x.1 % hbmSize) x.2) s

/-- The payload of a block as it stands in HBM; none after an uncorrectable read. -/
def State.blockPayload (s : State) (b : NecBlock) : Option (List Byte) :=
  (s.readSpans b.spans).map fun bs => (bs.drop 24).take (necHdr b.hdr).len

/-- The block of a unit ends (R146, R148, R149). -/
def State.endBlock (s : State) (n : Nat) (b : NecBlock) : State :=
  let hd := necHdr b.hdr
  match s.ctxLoad hd.ctx, s.blockPayload b with
  | some (r, s), some payload =>
    let s := s.touchSpans b.spans
    let l := s.necL n
    let c := s.cellOf n hd.ctx
    let pitch := s.ac (Reg.LAYER_PITCH.PITCH n)
    let out := s.cellAddr n l.buf c
    if (hd.mode = 1 ∨ hd.mode = 2) ∧ r.hasHistory l.epoch hd.fsn = false then s.blockFail b nrNoHistory
    else if (hd.mode = 1 ∨ hd.mode = 2) ∧ s.rowsOk r.histAddr r.histPitch (rowLen hd.fmt hd.w) hd.h = false then s.blockFail b nrHbm
    else
      let sts := r.startStates hd.fmt hd.reset
      let d := s.decodeBlock hd ⟨r.histAddr, r.histPitch⟩ payload sts out pitch
      if b.size ≠ 24 + hd.len then s.blockFail b nrSyntax
      else if d.1 = nrOk then
        let s := d.2.st.countEnd nrOk
        let s := s.ctxSave hd.ctx { r with
          histValid := true, resume := false, dir := false, layer := n, fmt := hd.fmt, lastFsn := hd.fsn, epoch := l.epoch,
          histAddr := out, histPitch := pitch, states := d.2.sts, blocks := (r.blocks + 1) % 2 ^ 32, fresh := false }
        s.land n (hd.ctx - s.ac (Reg.LAYER_STREAM.BASE n)) hd.fsn
      else d.2.st.blockFail b d.1
  | _, _ => s.blockFail b nrHbm

/-- The end of the work of unit `u`, with its throttle pause (R164). -/
def State.unitDone (s : State) (u : Nat) : State := s.setNecU u ⟨.idle, s.nt.now8 + s.throttlePause⟩

/-- NEC_BLOCK_END: the block of a unit ends. -/
def State.necBlockEnd (s : State) (u : Nat) : State :=
  match (s.necU u).work with
  | .block n b => if s.deck.dev = .safeHalt then s else (s.endBlock n b).unitDone u
  | _ => s

/-! Posted jobs (R154 to R158). -/

/-- Address of the job descriptor at a ring index. -/
def State.jobAddr (s : State) (i : Nat) : Nat := s.get Reg.NEC_JQ_BASE.ADDR * 64 + 64 * i

/-- Kinds of a descriptor's OP word. -/
abbrev jobKind (d : List Byte) : Nat := bits (leAt d 0 4) 0 4
abbrev jobResume (d : List Byte) : Bool := bit (leAt d 0 4) 8
abbrev jobHist (d : List Byte) : Bool := bit (leAt d 0 4) 9
abbrev jobCtx (d : List Byte) : Nat := bits (leAt d 4 4) 0 18

/-- Is the job queue on and not empty? -/
def State.jobWaiting (s : State) : Bool :=
  decide (0 < s.get Reg.NEC_JQ_SIZE.ENTRIES) && s.nec.jqTaken != s.get Reg.NEC_JQ_TAIL.TAIL

/-- Units that run job segments. -/
def State.jobUnits (s : State) : Nat :=
  ((List.range 32).filter fun u => match (s.necU u).work with
    | .seg _ _ => true
    | _ => false).length

/-- May a unit take a job while automatic blocks wait (R157)? -/
def State.jobAllowed (s : State) : Bool :=
  (s.nec.ring.isEmpty && s.deferredCount == 0) || decide (s.jobUnits < s.get Reg.NEC_CTRL.JOB_UNITS)

/-- Unit `u` takes the next descriptor when `want` accepts it; one that cannot be read is taken as empty and ends with HBM. -/
def State.takeJob (s : State) (u : Nat) (want : List Byte → Bool) : State :=
  if s.unitFree u && s.jobWaiting && s.jobAllowed then
    let i := s.nec.jqTaken
    let s := s.hbmTouch 3 (s.jobAddr i % hbmSize) 64
    let go := fun (s : State) d =>
      ({ s with nec := { s.nec with jqTaken := (i + 1) % s.get Reg.NEC_JQ_SIZE.ENTRIES } }).setNecU u { s.necU u with work := .seg i d }
    match s.hbmRead (s.jobAddr i % hbmSize) 64 with
    | none => go s []
    | some d =>
      if want d && !(s.ctxBusy (jobCtx d)) then go (s.ctxFetch (jobCtx d)) d else s
  else s

/-- What a job segment leaves: result, consumed, produced, rows and the state. -/
structure JobEnd where
  code : Nat
  cons : Nat
  prod : Nat
  rows : Nat
  st   : State

/-- May a job write `n` bytes at `a` (12 R301)? -/
def State.jobMayWrite (s : State) (a n : Nat) : Bool :=
  decide (a + n ≤ hbmSize) && !(s.inReserved a n)

/-- Rows that fit into a DECODE's output space (R156). -/
def fitRows (pitch rowb len : Nat) : Nat → Nat → Nat
  | 0, _ => 0
  | n + 1, r => if r * pitch + rowb ≤ len then fitRows pitch rowb len n (r + 1) + 1 else 0

/-- What a segment ends with before its first row: it has read the header at most (log 120). -/
def jobFail (s : State) (code cons row : Nat) : JobEnd := ⟨code, cons, 0, row, s⟩

/-- A segment whose payload ends early or late, or runs beyond a row: the rows before are written. What it has read of the payload is not
stated (a free value, log 120). -/
def jobSyntax (s : State) (prod rows : Nat) : JobEnd := ⟨nrSyntax, (s.fresh 32).1, prod, rows, (s.fresh 32).2⟩

/-- A DECODE segment (R155, R156). The pixel side and the history have the pitch that the descriptor gives, in linear mode too
(log 123). -/
def State.runDecode (s : State) (d : List Byte) (r : CtxRec) : JobEnd :=
  let code := leAt d 8 8
  let pitch := leAt d 0x14 4
  let pix := leAt d 0x18 8
  let resume := jobResume d
  let hd := if resume then necHdr r.resHdr else necHdr (memRead s.hbm (code % hbmSize) 24)
  let r0 := if resume then r.resRow else 0
  let left := hd.len + 24 - if resume then r.resIn else 0
  let n := min (leAt d 0x10 4) left
  let s := s.hbmTouch 3 (code % hbmSize) n
  match s.hbmRead (code % hbmSize) n with
  | none => jobFail s nrHbm 0 r0
  | some input =>
    let payload := if resume then input else input.drop 24
    let head := if resume then 0 else min 24 input.length
    if hd.okFor (2 ^ 32) = false ∨ (resume = false ∧ input.length < 24) then jobFail s nrHeader head r0
    else if (hd.mode = 1 ∨ hd.mode = 2) ∧ jobHist d = false then jobFail s nrNoHistory head r0
    else if resume = false ∧ fillBad hd payload = true then jobSyntax s 0 0
    else
      let rowb := rowLen hd.fmt hd.w
      let fit := fitRows pitch rowb (leAt d 0x20 4) (hd.h - r0) 0
      if fit = 0 then jobFail s nrSpace 0 r0
      else if s.jobMayWrite pix ((fit - 1) * pitch + rowb) = false then jobFail s nrRange head r0
      else
        let hist : HistSrc := ⟨leAt d 0x28 8, pitch⟩
        let sts := if resume then r.states else r.startStates hd.fmt hd.reset
        let last := if resume then s.nec.resRow.get (fun _ => []) (jobCtx d) else []
        if (hd.mode = 1 ∨ hd.mode = 2) ∧ s.rowsOk (hist.addr + r0 * pitch) pitch rowb fit = false then jobFail s nrHbm head r0
        else
          let x := decodeRows hd hist pix pitch r0 fit ⟨s, r0, sts, bytesToBits payload, last, if resume then r.resCrc else 0⟩
          let e := x.2
          if x.1 = false then jobSyntax e.st ((e.y - r0) * rowb) e.y
          else
            let used := payload.length - e.bits.length / 8
            let cons := (if resume then used else used + 24)
            let prod := fit * rowb
            if r0 + fit < hd.h then
              let used := if hd.mode = 3 then 0 else used
              let cons := if hd.mode = 3 then (if resume then 0 else 24) else cons
              let s' := e.st.ctxSave (jobCtx d) { r with
                resume := true, dir := false, fmt := hd.fmt, layer := 0xFF, resHdr := hd.bytes, resRow := r0 + fit,
                resIn := (if resume then r.resIn else 24) + used, resOut := (if resume then r.resOut else 0) + prod,
                resCrc := e.crc, states := e.sts, fresh := false }
              let s' : State := { s' with nec := { s'.nec with resRow := s'.nec.resRow.set (fun _ => []) (jobCtx d) e.last } }
              ⟨nrExhausted, cons, prod, r0 + fit, s'⟩
            else if hd.mode < 2 ∧ used + (if resume then 0 else 24) ≠ left then jobSyntax e.st prod hd.h
            else
              let cons := if hd.mode = 3 then cons + e.bits.length / 8 else cons
              if e.crc ≠ hd.crc then ⟨nrCrc, cons, prod, hd.h, e.st⟩
              else
              let s' := e.st.ctxSave (jobCtx d) { r with
                histValid := true, resume := false, dir := false, layer := 0xFF, fmt := hd.fmt, lastFsn := hd.fsn,
                histAddr := pix, histPitch := pitch, states := e.sts, blocks := (r.blocks + 1) % 2 ^ 32, fresh := false }
              ⟨nrOk, cons, prod, hd.h, s'⟩

/-- The rows of the source of an ENCODE, from cell row `y0` on. -/
def State.srcRows (s : State) (pix pitch fmt w n : Nat) : List PixRow :=
  (List.range n).map fun y => rowOf fmt w (memRead s.hbm (pix + y * pitch) (rowLen fmt w))

/-- The mode that the encoder chooses (R158). -/
def State.chooseMode (s : State) (d : List Byte) (hs : HistSrc) (fmt w : Nat) (rows : List PixRow) : Nat :=
  let first := (rows.getD 0 []).getD 0 []
  if rows.all (fun r => r.all fun p => p == first) then 3
  else if jobHist d && (rows.zip (List.range rows.length)).all (fun e => e.1 == s.histRow hs fmt w e.2) then 2
  else if jobHist d && !(bit (leAt d 0 4) 20) then 1
  else 0

/-- The progress of an encode. -/
structure EncRun where
  y    : Nat
  out  : List Byte
  sts  : List GrState
  last : PixRow
  crc  : Nat

/-- Rows coded while they fit into `space` bytes (R156). -/
def State.encodeRows (s : State) (hd : NecHdr) (hs : HistSrc) (space : Nat) : List PixRow → EncRun → EncRun
  | [], e => e
  | row :: rest, e =>
    let inter := hd.mode == 1
    let c : RowCtx := ⟨hd.fmt, inter, e.y == 0, e.last, if inter then s.histRow hs hd.fmt hd.w e.y else [],
      if inter && decide (0 < e.y) then s.histRow hs hd.fmt hd.w (e.y - 1) else []⟩
    let o := if hd.mode < 2 then encodeRow c hd.run e.sts row else ([], e.sts)
    if space < e.out.length + o.1.length then e
    else s.encodeRows hd hs space rest ⟨e.y + 1, e.out ++ o.1, o.2, row, crcMore e.crc (rowBytes hd.fmt row)⟩

/-- An ENCODE segment (R156, R158). -/
def State.runEncode (s : State) (d : List Byte) (r : CtxRec) : JobEnd :=
  let op := leAt d 0 4
  let code := leAt d 8 8
  let space := leAt d 0x10 4
  let pitch := leAt d 0x14 4
  let pix := leAt d 0x18 8
  let hs : HistSrc := ⟨leAt d 0x28 8, pitch⟩
  let resume := jobResume d
  let fmt := if resume then (necHdr r.resHdr).fmt else bits op 16 4
  let w := if resume then (necHdr r.resHdr).w else leAt d 0x24 2
  let h := if resume then (necHdr r.resHdr).h else leAt d 0x26 2
  let r0 := if resume then r.resRow else 0
  let fail := fun c => jobFail s c 0 r0
  let rows := s.srcRows pix pitch fmt w (h - r0)
  let mode := if resume then (necHdr r.resHdr).mode else s.chooseMode d hs fmt w rows
  let hd : NecHdr := if resume then necHdr r.resHdr
    else ⟨1, mode, fmt, ofBool (bit op 11) + 2 * ofBool (bit op 10), jobCtx d, 0, w, h, 0, 0⟩
  if hd.ok = false then fail nrRange
  else if s.rowsOk pix pitch (rowLen fmt w) (h - r0) = false ∨ (jobHist d = true ∧ s.rowsOk hs.addr pitch (rowLen fmt w) h = false) then
    fail nrHbm
  else
    let s := s.touchRows pix pitch (rowLen fmt w) (h - r0)
    let s := if jobHist d then s.touchRows hs.addr pitch (rowLen fmt w) h else s
    let head := if resume then 0 else 24
    let fill := if mode = 3 ∧ resume = false then leBytes (fillLen fmt) (pixelOf fmt ((rows.getD 0 []).getD 0 [])) else []
    if space < head + fill.length then fail nrSpace
    else
      let sts := if resume then r.states else r.startStates fmt hd.reset
      let last := if resume then s.nec.resRow.get (fun _ => []) (jobCtx d) else []
      let e := s.encodeRows hd hs (space - head - fill.length) rows ⟨r0, [], sts, last, if resume then r.resCrc else 0⟩
      if e.y = r0 then fail nrSpace
      else if s.jobMayWrite code (head + fill.length + e.out.length) = false then fail nrRange
      else
        let hdrAddr := if resume then r.resHdrAddr else code
        let total := (if resume then r.resOut else 0) + fill.length + e.out.length
        let s := s.hbmStore 3 (code + head) (fill ++ e.out)
        let prod := head + fill.length + e.out.length
        let cons := (e.y - r0) * rowLen fmt w
        if e.y < h then
          let s := if resume then s else s.hbmStore 3 hdrAddr hd.bytes
          let s := s.ctxSave (jobCtx d) { r with
            resume := true, dir := true, layer := 0xFF, fmt := fmt, resHdr := hd.bytes, resRow := e.y,
            resIn := (if resume then r.resIn else 0) + cons, resOut := total, resCrc := e.crc, resHdrAddr := hdrAddr,
            states := e.sts, fresh := false }
          let s : State := { s with nec := { s.nec with resRow := s.nec.resRow.set (fun _ => []) (jobCtx d) e.last } }
          ⟨nrExhausted, cons, prod, e.y, s⟩
        else
          let s := s.hbmStore 3 hdrAddr { hd with len := total, crc := e.crc }.bytes
          let s := s.ctxSave (jobCtx d) { r with
            histValid := true, resume := false, dir := true, layer := 0xFF, fmt := fmt, lastFsn := 0, histAddr := pix,
            histPitch := pitch, states := e.sts, blocks := (r.blocks + 1) % 2 ^ 32, fresh := false }
          ⟨nrOk, cons, prod, h, s⟩

/-- A job segment (R154 to R158): KIND and context are checked, and a pending resume is continued or discarded. -/
def State.runJob (s : State) (d : List Byte) : JobEnd :=
  let kind := jobKind d
  let fail := fun c (s : State) => (⟨c, 0, 0, 0, s⟩ : JobEnd)
  if d.isEmpty then fail nrHbm s
  else if (kind ≠ 1 ∧ kind ≠ 2) ∨ (s.layerOfCtx (jobCtx d)).isSome = true then fail nrRange s
  else match s.ctxLoad (jobCtx d) with
    | none => fail nrHbm s
    | some (r, s) =>
      if jobResume d = true ∧ (r.resume = false ∨ r.dir ≠ (kind == 2)) then fail nrResume s
      else
        let r := if jobResume d then r else { r with resume := false }
        let r := if bit (leAt d 0 4) 11 && !(jobResume d) then { r with states := statesInit r.fmt } else r
        if kind = 1 then s.runDecode d r else s.runEncode d r

/-- NEC_JOB_END: the segment of a unit ends; the status words are written and HEAD advances (R154 to R156). Any error but SPACE, which
changes nothing, raises ERRORS of the record (R149). -/
def State.necJobEnd (s : State) (u : Nat) : State :=
  match (s.necU u).work with
  | .seg i d =>
    if s.deck.dev = .safeHalt then s
    else
      let e := s.runJob d
      let s := if e.code = nrOk ∨ e.code = nrExhausted ∨ e.code = nrSpace ∨ d.isEmpty = true then e.st else e.st.ctxError (jobCtx d)
      let s := s.hbmStore 3 (s.jobAddr i + 0x30)
        (leBytes 4 (2 ^ 31 + e.code) ++ leBytes 4 e.cons ++ leBytes 4 e.prod ++ leBytes 4 e.rows)
      let s := s.countEnd e.code
      let n := s.get Reg.NEC_JQ_SIZE.ENTRIES
      let s := s.set Reg.NEC_JQ_HEAD.HEAD ((s.get Reg.NEC_JQ_HEAD.HEAD + 1) % (max 1 n))
      let s := if bit (leAt d 0 4) 7 then
          s.post 0x0603 sevInfo (p1 (bits (leAt d 0 4) 24 8) ++ p4 (jobCtx d) ++ p1 e.code ++ p4 e.rows) else s
      s.unitDone u
  | _ => s

/-! The clip feeder (R161, R162). -/

/-- A clip header as it lies in HBM; none when it breaks R161. -/
def State.clipHeader (s : State) (clip : Nat) : Option (List Byte) :=
  match s.hbmRead (clip * 256 % hbmSize) 64 with
  | none => none
  | some h =>
    if leAt h 0 4 = 0x4E434C50 ∧ leAt h 4 2 = 1 ∧ 0 < leAt h 8 4 ∧ leAt h 8 4 < 2 ^ 24 ∧ 0 < leAt h 0x10 4
        ∧ leAt h 0x10 4 < 256 ∧ leAt h 0x3C 4 = crc32c (h.take 0x3C) then some h else none

/-- The blocks of a clip frame that lies at `a`, each on an 8-byte boundary (R161). -/
def splitBlocks : Nat → (a : Nat) → List Byte → List NecBlock
  | 0, _, _ => []
  | fuel + 1, a, bs =>
    if bs.length < 24 then []
    else
      let n := 24 + leAt bs 16 4
      let next := (n + 7) / 8 * 8
      ⟨bs.take 24, min n bs.length, [(a, min n bs.length)], true⟩ :: splitBlocks fuel (a + next) (bs.drop next)

/-- Where the entry of frame `f` of a clip stands. -/
def clipEntry (clip : Nat) (h : List Byte) (f : Nat) : Nat := (clip * 256 + leAt h 0x14 4 + 8 * f) % hbmSize

/-- The blocks of frame `f` of a clip. -/
def State.clipFrame (s : State) (clip : Nat) (h : List Byte) (f : Nat) : Option (List NecBlock) :=
  match s.hbmRead (clipEntry clip h f) 8 with
  | none => none
  | some e =>
    let a := (clip * 256 + leAt e 0 4) % hbmSize
    (s.hbmRead a (leAt e 4 4)).map fun b => splitBlocks (b.length / 24 + 1) a b

/-- The feeder reads the header of a clip, and the entry and the blocks of a frame. -/
def State.clipTouch (s : State) (clip f : Nat) : State :=
  let s := s.hbmTouch 4 (clip * 256 % hbmSize) 64
  match s.hbmRead (clip * 256 % hbmSize) 64 with
  | none => s
  | some h =>
    let s := s.hbmTouch 4 (clipEntry clip h f) 8
    match s.hbmRead (clipEntry clip h f) 8 with
    | none => s
    | some e => s.hbmTouch 4 ((clip * 256 + leAt e 0 4) % hbmSize) (leAt e 4 4)

/-- The contexts that the layers of a mask have. -/
def State.clipCtxs (s : State) (mask : Nat) : List Nat :=
  (bitsSet 32 mask).flatMap fun n =>
    (List.range (s.ac (Reg.LAYER_STREAM.COUNT n))).map fun i => s.ac (Reg.LAYER_STREAM.BASE n) + i

/-- Does a frame keep the rules of R161: RESET on every block, exactly one block for every context of LAYERS, and INTRA
or FILL in frame 0? -/
def State.clipFrameOk (s : State) (mask : Nat) (first : Bool) (bs : List NecBlock) : Bool :=
  let hs := bs.map fun b => necHdr b.hdr
  hs.all (fun h => h.reset && (!first || h.mode == 0 || h.mode == 3))
    && (s.clipCtxs mask).all (fun c => (hs.filter fun h => h.ctx == c).length == 1)
    && hs.length == (s.clipCtxs mask).length

/-- The feeder stands at frame 0 of the clip that NEC_PLAY_CLIP names. -/
def State.playPoint (s : State) : State :=
  { s with nec := { s.nec with playClip := s.get Reg.NEC_PLAY_CLIP.ADDR } }.set Reg.NEC_PLAY_STATUS.FRAME 0

/-- The clip cannot be played. -/
def State.playFail (s : State) : State := (s.set Reg.NEC_PLAY_STATUS.STATE 2).postPlay sevWarn nrClip

/-- The clip with header `h` plays from its first frame. -/
def State.playBegin (s : State) (h : List Byte) : State :=
  let s : State := { s with nec := { s.nec with playNext := 0, playHold := 1, playStop := false, playMask := leAt h 12 4 } }
  (s.set Reg.NEC_PLAY_STATUS.STATE 1).postPlay sevInfo 0

/-- The header of the clip that the feeder stands at, when its first frame is well formed. -/
def State.playable (s : State) : Option (List Byte) :=
  match s.clipHeader s.nec.playClip with
  | none => none
  | some h => match s.clipFrame s.nec.playClip h 0 with
    | none => none
    | some bs => if s.clipFrameOk (leAt h 12 4) true bs then some h else none

/-- The clip is checked and the feeder starts, or the start ends with CLIP (R162). -/
def State.playCheck (s : State) : State :=
  let s := s.playPoint
  let s := s.clipTouch s.nec.playClip 0
  match s.playable with
  | none => s.playFail
  | some h => s.playBegin h

/-- PLAY_START: a start before the wipe of HBM waits for it (12 R317). -/
def State.playStart (s : State) : State :=
  if s.hbmHolds then { s with nec := { s.nec with playReq := true } } else s.playCheck

/-- A start that waited for the wipe. -/
def State.playServe (s : State) : State :=
  if s.nec.playReq then { s with nec := { s.nec with playReq := false } }.playStart else s

/-- Deck frames per clip frame (R161, R165). -/
def State.playHoldOf (s : State) (h : List Byte) : Nat :=
  if s.get Reg.NEC_PLAY_CTRL.HOLD = 0 then leAt h 0x10 4 else s.get Reg.NEC_PLAY_CTRL.HOLD

/-- The block with its FSN replaced by the layer's last opened FSN + 1 (R162). -/
def State.renumber (s : State) (b : NecBlock) : NecBlock :=
  let f := match s.layerOfCtx (necHdr b.hdr).ctx with
    | some n => ((s.necL n).fsn + 1) % 2 ^ 32
    | none => 1
  { b with hdr := b.hdr.take 8 ++ leBytes 4 f ++ b.hdr.drop 12 }

/-- The blocks of the next frame of the clip with header `h`, when it is well formed. -/
def State.nextClipFrame (s : State) (h : List Byte) : Option (List NecBlock) :=
  match s.clipFrame s.nec.playClip h s.nec.playNext with
  | none => none
  | some bs => if s.clipFrameOk s.nec.playMask (s.nec.playNext == 0) bs then some bs else none

/-- The blocks of a clip frame enter the ring. -/
def State.feedFrame (s : State) (h : List Byte) (bs : List NecBlock) : State :=
  let f := s.nec.playNext
  let s : State := { s with nec := { s.nec with
    ring := s.nec.ring ++ bs.map s.renumber
    playNext := f + 1, playHold := s.playHoldOf h } }
  (s.set Reg.NEC_PLAY_STATUS.FRAME f).showQueues

/-- The feeder takes the clip that NEC_PLAY_NEXT names. -/
def State.takeNextClip (s : State) : State :=
  let s : State := { s with nec := { s.nec with playClip := s.get Reg.NEC_PLAY_NEXT.ADDR, playNext := 0 } }
  s.set Reg.NEC_PLAY_NEXT.ADDR 0

/-- The clip taken from NEC_PLAY_NEXT begins. -/
def State.beginNextClip (s : State) : State :=
  match s.clipHeader s.nec.playClip with
  | none => s.playError
  | some h => ({ s with nec := { s.nec with playMask := leAt h 12 4 } }).postPlay sevInfo 2

/-- The clip ends: it starts anew, the next clip is taken, or the feeder stops. -/
def State.clipOver (s : State) : State :=
  if s.flag Reg.NEC_PLAY_CTRL.LOOP then ({ s with nec := { s.nec with playNext := 0 } }).postPlay sevInfo 1
  else if s.get Reg.NEC_PLAY_NEXT.ADDR ≠ 0 then s.takeNextClip.beginNextClip
  else (s.set Reg.NEC_PLAY_STATUS.STATE 0).postPlay sevInfo 3

/-- The feeder queues the next frame of the clip with header `h`, or ends with CLIP when it is not well formed. -/
def State.feedNext (s : State) (h : List Byte) : State :=
  match s.nextClipFrame h with
  | none => s.playError
  | some bs => s.feedFrame h bs

/-- The feeder goes on, without a gap, with the clip it stands at after one has ended. -/
def State.playOn (s : State) : State :=
  if s.get Reg.NEC_PLAY_STATUS.STATE ≠ 1 then s
  else match s.clipHeader s.nec.playClip with
    | none => s.playError
    | some h => s.feedNext h

/-- The feeder queues the next frame of the clip with header `h`; after the last one the clip ends. -/
def State.clipStep (s : State) (h : List Byte) : State :=
  if s.nec.playNext < leAt h 8 4 then s.feedNext h else s.clipOver.playOn

/-- CLIP_FRAME_QUEUE: the next clip frame is queued once the hold count has run out (R162). -/
def State.clipQueue (s : State) : State :=
  if s.get Reg.NEC_PLAY_STATUS.STATE ≠ 1 ∨ s.nec.playHold ≠ 0 ∨ s.deck.phase ≠ .blank then s
  else
    let s := s.clipTouch s.nec.playClip s.nec.playNext
    match s.clipHeader s.nec.playClip with
    | none => s.playError
    | some h => s.clipStep h

/-- What the codec does at a latch point: the summary of unreported errors (R160), a STOP, and the hold count (R162). -/
def State.latchNectar (s : State) : State :=
  let n := s.nec.frameErrs
  let s := if 64 < n then s.post 0x0601 sevWarn (p4 0xFFFFFFFF ++ c4 (n - 64) ++ p1 0xFF) else s
  let s := if s.nec.playStop ∧ s.get Reg.NEC_PLAY_STATUS.STATE = 1 then
      (s.set Reg.NEC_PLAY_STATUS.STATE 0).postPlay sevInfo 3 else s
  { s with nec := { s.nec with playStop := false, playHold := s.nec.playHold - 1, frameErrs := 0 } }

/-- The codec's part of a reconfiguration or a disabling of a rotation layer at a latch point (R150). -/
def State.necReconfig (s : State) (n : Nat) : State :=
  let wasOpen := (s.necL n).isOpen
  let s := s.abandon n
  let e := (s.necL n).epoch
  let units := (List.range 32).foldl (fun t u => match (t.get (fun _ => necUnit0) u).work with
    | .block m _ => if m = n then t.set (fun _ => necUnit0) u necUnit0 else t
    | _ => t) s.nec.units
  let s : State := { s with nec := { s.nec with units := units } }
  (s.setNecL n { necLayer0 with epoch := if wasOpen then e else (e + 1) % 2 ^ 32 }).showQueues

end Sys2Proof.Machine
end

