-- ==== Sys2Proof/Machine/Buffers.lean ====
section
/-! DEFINITION. Layer buffers at a latch point: reconfiguration, readiness, advance, sync groups, hold and retire (02 R48 to R52,
R58; 03 R67, R68; 06 R129, R145, R150), and load shedding (02 R55, 03 R82). -/

namespace Sys2Proof.Machine

/-! Retire. -/

/-- EV_RETIRE (02 R58). -/
def State.postRetire (s : State) (n addr seq : Nat) (unshown : Bool) : State :=
  s.post 0x0203 sevInfo (p1 n ++ p4 (addr / 16) ++ p2 seq ++ pb unshown)

/-- A rotation buffer takes a new use (06 R145). -/
def State.setBufSt (s : State) (n b st : Nat) : State :=
  let l := s.necL n
  s.setNecL n (l.putBuf b { l.getBuf b with st := st })

/-- The buffer that layer `n` reads is retired (02 R51); a rotation buffer goes back to the codec. -/
def State.retireRead (s : State) (n seq : Nat) : State :=
  match s.layers.reading.get noShown n with
  | none => s
  | some b =>
    let s := s.postRetire n b.addr seq false
    let s : State := if b.src = 1 then s.setBufSt n b.buf 0 else s
    { s with layers := { s.layers with reading := s.layers.reading.set noShown n none } }

/-- Layer `n` advances to a buffer (02 R49, R51). -/
def State.advanceTo (s : State) (n : Nat) (b : Shown) (seq : Nat) : State :=
  let s := s.retireRead n seq
  { s with layers := { s.layers with reading := s.layers.reading.set noShown n (some b) } }

/-! Reconfiguration (03 R67, 06 R129, R150). -/

/-- The fields whose change is a reconfiguration. -/
def cfgKey (p : Table Word) (n : Nat) : List Nat :=
  [pf p (Reg.LAYER_CTRL.FORMAT n), pf p (Reg.LAYER_CTRL.MODE n), pf p (Reg.LAYER_SIZE.SRC_W n), pf p (Reg.LAYER_SIZE.SRC_H n),
   pf p (Reg.LAYER_PITCH.PITCH n), pf p (Reg.LAYER_STREAM.BASE n), pf p (Reg.LAYER_STREAM.COUNT n), pf p (Reg.LAYER_CELL.CW n),
   pf p (Reg.LAYER_CELL.CH n)]
    ++ (if inRotation p n then [0, 1, 2].map fun r => pf p (Reg.LAYER_BUF.ADDR n r) else [])

/-- Is layer `n` enabled in a table of active copies? -/
def enabledIn (p : Table Word) (n : Nat) : Bool := pf p (Reg.LAYER_CTRL.ENABLE n) != 0

/-- Does the change from `p` to `q` reconfigure or disable layer `n`? -/
def dropsLayer (p q : Table Word) (n : Nat) : Bool :=
  enabledIn p n && (!(enabledIn q n) || cfgKey p n != cfgKey q n)

/-- Layer `n` leaves its old configuration `p`: the buffer it reads and its ready buffers are retired. -/
def State.dropLayer (s : State) (p : Table Word) (n seq : Nat) : State :=
  if inRotation p n then
    let s := s.retireRead n 0
    ([0, 1, 2].filter fun b => ((s.necL n).getBuf b).st == 2).foldl (fun s b =>
      (s.postRetire n (pf p (Reg.LAYER_BUF.ADDR n b) * 256) 0 true).setBufSt n b 0) s
  else s.retireRead n seq

/-- The SEQ of the commit that last wrote BUF0 of each layer. -/
def State.noteBufSeq (s : State) (c : Commit) : State :=
  { s with layers := { s.layers with bufSeq := (List.range 32).foldl (fun t n =>
    if c.words.any (fun w => w.1 == Reg.LAYER_BUF n 0) then t.set (fun _ => 0) n c.seq else t) s.layers.bufSeq } }

/-- Layer `n` is dropped, and the codec forgets its rotation once per latch point. -/
def State.commitLayer (s : State) (done : List Nat) (p q : Table Word) (n seq : Nat) : State × List Nat :=
  if (inRotation p n || (enabledIn q n && inRotation q n)) && !(done.contains n) then
    ((s.dropLayer p n seq).necReconfig n, n :: done)
  else (s.dropLayer p n seq, done)

/-- One applied commit that changes the active state from `p` to `q`: layers are dropped, and the codec's rotation state of a
layer is cleared once per latch point; `done` lists those cleared. -/
def State.commitLayers (s : State) (done : List Nat) (p q : Table Word) (c : Commit) : State × List Nat :=
  ((List.range 32).filter (dropsLayer p q)).foldl (fun a n => a.1.commitLayer a.2 p q n c.seq) (s.noteBufSeq c, done)

/-- The applied commits in SEQ order, from the active state `p` before them. -/
def State.reconfigure (s : State) (p : Table Word) (done : List Nat) : List Commit → State
  | [] => s
  | c :: cs =>
    let q := applyWords p c.words
    let r := s.commitLayers done p q c
    r.1.reconfigure q r.2 cs

/-! Readiness and advance (02 R48 to R50; 03 R68). -/

/-- HBM address of BUFr of the active state. -/
def State.bufAddr (s : State) (n r : Nat) : Nat := s.ac (Reg.LAYER_BUF.ADDR n r) * 256

/-- Is the layer in rotation in the active state? -/
def State.rotating (s : State) (n : Nat) : Bool := inRotation s.act n

/-- Ready rotation buffers of layer `n`: FSN and buffer. -/
def State.readyBufs (s : State) (n : Nat) : List (Nat × Nat) :=
  ([0, 1, 2].filter fun b => ((s.necL n).getBuf b).st == 2).map fun b => (((s.necL n).getBuf b).fsn, b)

/-- The newest FSN of a list. -/
def newestFsn : List Nat → Option Nat
  | [] => none
  | f :: fs => match newestFsn fs with
    | none => some f
    | some g => if diff32 f g < 0 then some g else some f

/-- Layer `n` advances to its ready buffer with FSN `f`; older ready buffers are retired unshown (02 R49). -/
def State.takeFsn (s : State) (n f : Nat) : State :=
  let old := (s.readyBufs n).filter fun e => decide (diff32 e.1 f < 0)
  let old := match old with
    | [a, b] => if diff32 b.1 a.1 < 0 then [b, a] else [a, b]
    | l => l
  let s := old.foldl (fun s e => (s.postRetire n (s.bufAddr n e.2) 0 true).setBufSt n e.2 0) s
  match (s.readyBufs n).find? fun e => e.1 == f with
  | none => s
  | some e => (s.advanceTo n ⟨1, s.bufAddr n e.2, e.2, f⟩ 0).setBufSt n e.2 3

/-- The address that layer `n` reads. -/
def State.readAddr (s : State) (n : Nat) : Option Nat := (s.layers.reading.get noShown n).map (·.addr)

/-- Does BUF0 of an explicit layer name the buffer it reads? -/
def State.sameBuf (s : State) (n : Nat) : Bool := s.readAddr n == some (s.bufAddr n 0)

/-- Is BUF0 of an explicit layer ready (03 R68)? -/
def State.fenceReady (s : State) (n : Nat) : Bool :=
  s.flag (Reg.LAYER_FENCE.VALID n) && s.get (Reg.LAYER_FENCE.ADDR n) == s.ac (Reg.LAYER_BUF.ADDR n 0)

/-- The fence of layer `n` is cleared. -/
def State.clearFence (s : State) (n : Nat) : State := s.set (Reg.LAYER_FENCE.VALID n) 0

/-- An explicit layer advances to its ready BUF0. -/
def State.takeExplicit (s : State) (n : Nat) : State :=
  (s.clearFence n).advanceTo n ⟨2, s.bufAddr n 0, 0, 0⟩ (s.layers.bufSeq.get (fun _ => 0) n)

/-- A layer without a group advances if it can; the answer tells whether it holds (02 R49). -/
def State.stepLayer (s : State) (n : Nat) : State × Bool :=
  let held := (s.readAddr n).isSome
  if s.rotating n then
    (match newestFsn ((s.readyBufs n).map (·.1)) with
    | some f => (s.takeFsn n f, false)
    | none => (s, held))
  else if s.sameBuf n then (s, false)
  else if s.fenceReady n then (s.takeExplicit n, false)
  else (s, held)

/-- The newest FSN for which every member of a rotation group has a ready buffer. -/
def State.commonFsn (s : State) (ms : List Nat) : Option Nat :=
  match ms with
  | [] => none
  | n :: rest => newestFsn (((s.readyBufs n).map (·.1)).filter fun f =>
      rest.all fun m => (s.readyBufs m).any fun e => e.1 == f)

/-- The members of a sync group advance together or hold (02 R50); the answer lists the members that hold. -/
def State.stepGroup (s : State) (ms : List Nat) : State × List Nat :=
  let holding := ms.filter fun n => (s.readAddr n).isSome && (s.rotating n || !(s.sameBuf n))
  if ms.any (fun n => s.rotating n) then
    (match s.commonFsn ms with
    | some f => (ms.foldl (fun s n => s.takeFsn n f) s, [])
    | none => (s, holding))
  else if ms.all (fun n => s.sameBuf n || s.fenceReady n) then
    ((ms.filter fun n => !(s.sameBuf n)).foldl (fun s n => s.takeExplicit n) s, [])
  else (s, holding)

/-- Fences that have no use at this latch point (03 R68): of layers in rotation or disabled, and of layers that read the buffer
they name. -/
def State.dropFences (s : State) : State :=
  (List.range 32).foldl (fun s n =>
    if s.flag (Reg.LAYER_FENCE.VALID n)
        && (!(enabledIn s.act n) || s.rotating n || s.readAddr n == some (s.get (Reg.LAYER_FENCE.ADDR n) * 256)) then
      s.clearFence n
    else s) s

/-- The active members of sync group `g`. -/
def State.groupMembers (s : State) (g : Nat) : List Nat := s.enabledL.filter fun n => syncGroup s.act n == g

/-- DECK_SHOWNn of every layer; `held` lists the layers in layer hold. -/
def State.showBuffers (s : State) (held : List Nat) : State :=
  (List.range 32).foldl (fun s n => s.wr (Reg.DECK_SHOWN n) (match s.layers.reading.get noShown n with
    | none => 0
    | some b => word ((if held.contains n then 3 else b.src) * 2 ^ 30 + b.addr / 16 % 2 ^ 30))) s

/-- EV_LAYER_HOLD of layers and sync groups that enter layer hold (02 R58); a group `g` is coded 31 + g. -/
def State.postHolds (s : State) (single groups : List Nat) : State :=
  let s := (single.filter fun n => !(s.deck.holdL.contains n)).foldl (fun s n => s.post 0x0204 sevInfo (p1 n)) s
  (groups.filter fun g => !(s.deck.holdG.contains g)).foldl (fun s g => s.post 0x0204 sevInfo (p1 (31 + g))) s

/-- The layers in no group, with those that hold. -/
def State.stepSingles (s : State) : State × List Nat :=
  (s.enabledL.filter fun n => syncGroup s.act n == 0).foldl (fun a n =>
    ((a.1.stepLayer n).1, if (a.1.stepLayer n).2 then a.2 ++ [n] else a.2)) (s, [])

/-- The sync groups, with the layers and the groups that hold. -/
def State.stepGroups (s : State) : State × List Nat × List Nat :=
  [1, 2, 3, 4, 5, 6, 7, 8].foldl (fun b g =>
    let r := b.1.stepGroup (b.1.groupMembers g)
    (r.1, b.2.1 ++ r.2, if r.2.isEmpty then b.2.2 else b.2.2 ++ [g])) (s, [], [])

/-- The layers and groups in layer hold, as the registers and the Deck keep them. -/
def State.showHolds (s : State) (held groups : List Nat) : State :=
  let s := s.showBuffers held
  { s with deck := { s.deck with holdL := held, holdG := groups } }

/-- Every enabled layer chooses its buffer for the next frame (02 R48 to R51); the answer also lists the layers in layer hold. -/
def State.chooseBuffers (s : State) : State × List Nat :=
  let a := s.dropFences.stepSingles
  let b := a.1.stepGroups
  ((b.1.postHolds a.2 b.2.2).showHolds (a.2 ++ b.2.1) b.2.2, a.2 ++ b.2.1)

/-! Shedding (02 R55, R58; 03 R82). -/

/-- The shed layers replaced, with EV_SHED when they change. -/
def State.setShed (s : State) (l : List Nat) (cause : Nat) : State :=
  let m := maskOf l
  let s : State := { s with deck := { s.deck with shedList := l } }
  if s.get Reg.DECK_SHED_STATUS.SHED = m then s
  else (s.set Reg.DECK_SHED_STATUS.SHED m).post 0x0208 sevWarn (p4 m ++ p1 cause)

/-- The place of layer `n` in the shedding order: the greatest goes first (03 R82). -/
def State.shedKey (s : State) (n : Nat) : Nat :=
  (s.ac (Reg.LAYER_CTRL.SHED_RANK n) * 32 + s.ac (Reg.LAYER_CTRL.PRIO n)) * 32 + n

/-- The unshed enabled layer that is first in the shedding order. -/
def State.nextShed (s : State) : Option Nat :=
  (s.enabledL.filter fun n => !(s.deck.shedList.contains n)).foldl (fun a n => match a with
    | none => some n
    | some m => if s.shedKey m < s.shedKey n then some n else some m) none

/-- Every enabled layer is shed, in the shedding order; the latest stands first. -/
def State.shedAll (s : State) : Nat → State
  | 0 => s
  | k + 1 => match s.nextShed with
    | none => s
    | some n => State.shedAll { s with deck := { s.deck with shedList := n :: s.deck.shedList } } k

/-- The layers that some commit of a list disables, applied in order from the active copies `p` on. -/
def disabledBy (p : Table Word) : List Commit → List Nat
  | [] => []
  | c :: cs =>
    let q := applyWords p c.words
    ((List.range 32).filter fun n => enabledIn p n && !(enabledIn q n)) ++ disabledBy q cs

/-- A layer that an applied commit disables leaves the shed set at the latch point, also when a later one enables it (03 R82). -/
def State.unshedDisabled (s : State) (off : List Nat) : State :=
  s.setShed (s.deck.shedList.filter fun n => enabledIn s.act n && !(off.contains n)) 4

/-- Shedding and restoration at a latch point (02 R55). -/
def State.shed (s : State) : State :=
  let quiet := fun (s : State) (q : Nat) => ({ s with deck := { s.deck with shedQuiet := q } } : State)
  if s.flag Reg.DECK_SHED_CFG.FORCE_ALL then
    let s := quiet s 0
    s.setShed (s.shedAll 32).deck.shedList 2
  else
    let thr := s.get Reg.DECK_SHED_CFG.THROTTLE
    let und := s.get Reg.DECK_SHED_CFG.UNDERRUN
    let t := decide (thr ≠ 0) && decide (thr ≤ s.get Reg.THM_THROTTLE.LEVEL)
    let u := decide (und ≠ 0) && decide (und ≤ s.deck.underrun.length)
    if t || u then
      let s := quiet s 0
      s.setShed ((s.shedAll 1).deck.shedList) (if t then 0 else 1)
    else
      let s := quiet s (s.deck.shedQuiet + 1)
      if max 1 (s.get Reg.DECK_SHED_CFG.HOLDOFF) ≤ s.deck.shedQuiet then s.setShed s.deck.shedList.tail 3 else s

end Sys2Proof.Machine
end

