-- ==== Sys2Proof/Machine/Pier.lean ====
section
/-! DEFINITION. Pier links (08 R197 to R211, R453, R454): states, discovery and CONFIG, reverse windows and what a tile sends
in them, echoes and cable delay, frame echoes (07 R188; 17 R420), FLIP blocks and test patterns. -/

namespace Sys2Proof.Machine

/-! States (R206, R209). -/

/-- Is a packet DISCOVER? -/
def QPkt.isDiscover (k : QPkt) : Bool := k.ptype == 3 && k.op == 1

/-- A pier in LINKUP or MISMATCH queues a DISCOVER at the head of its CTRL queue, unless one waits there. It takes the place of an
earlier one that is not acknowledged (R206, log 20). -/
def State.sendDiscover (s : State) (p : Nat) : State :=
  let v := s.vp p
  if (v.q 2).any QPkt.isDiscover || v.tx.any (fun t => t.2.isDiscover) then s
  else
    (s.setVp p { v with unacked := v.unacked.filter fun e => !e.2.isDiscover }).enqueuePkt p 2
      (ctrlPkt 1 (leBytes 2 p ++ leBytes 1 1)) (some 0)

/-- A change of pier state with EV_PIER_LINK; in DOWN and LINKUP the grid is realigned and the discovery starts anew. -/
def State.setPier (s : State) (p st : Nat) : State :=
  if s.pierState p = st then s
  else
    let s := s.pierChange p st
    let s : State := if st = 0 ∨ st = 1 then
        (s.setPr p { s.pr p with
          win := none, missRun := 0, discEcho := 0, cfgAcked := false, flipDue := false, flipLate := false, test := none
          kpNext := [] }).gridAlign p
      else s.setPr p { s.pr p with missRun := 0 }
    (if st = 1 then s.sendDiscover p else s).pierDownSync

/-- A pier enters MISMATCH with a CAUSE (R207, R209). -/
def State.mismatch (s : State) (p cause : Nat) : State :=
  let was := s.pierState p
  let s := (s.set (Reg.PIER_STATUS.CAUSE p) cause).setPier p 4
  if was = 4 then s
  else s.post 0x0802 (s.pierSev p sevError) (p2 p ++ p1 cause ++ p4 (s.rd (Reg.PIER_DECL p)).toNat)

/-- Every pier follows PIER_CTRL.EN and PIER_p_CFG.EN (R206). A pier without a tile stays DOWN (R207). -/
def State.pierEnables (s : State) : State :=
  (List.range 512).foldl (fun s p =>
    let want := s.flag Reg.PIER_CTRL.EN && s.flag (Reg.PIER_CFG.EN p) && decide (s.geoNh p ≠ 0)
    let st := s.pierState p
    if want && st == 0 then s.setPier p 1
    else if !want && decide (st ≠ 0) && decide (st ≠ 6) then s.setPier p 0
    else s) s

/-- PIER_ENABLE_WRITE: a supervisor write of PIER_p_CFG or, for `none`, of PIER_CTRL; the host's is ignored (R212). -/
def State.pierEnableWrite (s : State) (bySup : Bool) (target : Option Nat) (v : Word) : State :=
  if bySup = false then s
  else
    let s : State := match target with
      | none => (s.set Reg.PIER_CTRL.EN (fieldOf v Reg.PIER_CTRL.EN)).set Reg.PIER_CTRL.FREE_TURN (fieldOf v Reg.PIER_CTRL.FREE_TURN)
      | some p => if 511 < p then s else
        ((s.set (Reg.PIER_CFG.EN p) (fieldOf v (Reg.PIER_CFG.EN p))).set (Reg.PIER_CFG.POST p)
          (fieldOf v (Reg.PIER_CFG.POST p))).set (Reg.PIER_CFG.PRE p) (fieldOf v (Reg.PIER_CFG.PRE p))
    if s.deck.dev = .safeHalt then s else s.pierEnables

/-! CONFIG and DISCOVER (R197, R203, R206). -/

/-- A CONFIG packet is queued: NOW = 1 while the pier is not ACTIVE (R203). -/
def State.sendConfig (s : State) (p eff : Nat) : State :=
  let now := decide (s.pierState p ≠ 3)
  let w := s.ac (Reg.PORT_PIER_CFG.WIDTH p)
  let k := ctrlPkt 2 (leBytes 1 w ++ pb now ++ leBytes 2 0 ++ leBytes 4 (s.get (Reg.PIER_FLIPLAT.LAT p))
    ++ leBytes 3 (if now then 0 else eff))
  s.offerPkts p 2 [{ k with gen := (s.pr p).gen }]

/-- MISMATCH_REDISCOVER: once per second a pier in MISMATCH sends DISCOVER again (R206). -/
def State.rediscover (s : State) (p : Nat) : State :=
  if s.pierState p = 4 ∧ (s.pr p).discoverAt + oneSecond ≤ s.nt.now8 then
    (s.setPr p { s.pr p with discoverAt := s.nt.now8 }).sendDiscover p
  else s

/-- PIER_NTF from the values written (R202); `alt` replaces the value of one pier. -/
def State.ntfOf (s : State) (alt : Option (Nat × Nat)) : Nat :=
  s.tiles.foldl (fun a p => max a (match alt with
    | some (q, l) => if q = p then l else s.get (Reg.PIER_FLIPLAT.LAT p)
    | none => s.get (Reg.PIER_FLIPLAT.LAT p))) 0 + 5000

/-- The least DECK_FLIP_OFFSET of the active state and of the pending commits (R208). -/
def State.leastFlipOffset (s : State) : Nat :=
  s.deck.commits.foldl (fun a c => match c.words.find? (fun e => e.1 == Reg.DECK_FLIP_OFFSET) with
    | some e => min a e.2.toNat
    | none => a) (s.ac Reg.DECK_FLIP_OFFSET.OFFSET)

/-- FLIPLAT_WRITE by the supervisor: taken and sent in a CONFIG with EFF, or refused with EV_PIER_CONFIG (R203, R208). -/
def State.flipLatWrite (s : State) (bySup : Bool) (p : Nat) (v : Word) : State :=
  let l := v.toNat
  let st := s.pierState p
  if bySup = false ∨ 511 < p then s
  else if (st = 2 ∨ st = 3) ∧ (l < s.get (Reg.PIER_LATMIN.LAT p) ∨ s.get (Reg.PIER_LATMAX.LAT p) < l) then
    s.post 0x0806 sevWarn (p2 p ++ p4 0 ++ p1 1)
  else if s.get Reg.PIER_NTF.NTF < s.ntfOf (some (p, l)) ∧ s.leastFlipOffset < s.ntfOf (some (p, l)) + 100 then
    s.post 0x0806 sevWarn (p2 p ++ p4 0 ++ p1 2)
  else
    let s := s.wr (Reg.PIER_FLIPLAT p) v
    let s := s.set Reg.PIER_NTF.NTF (s.ntfOf none)
    let eff := (s.deck.frameNum + 4) % 2 ^ 24
    if st = 3 then (s.setPr p { s.pr p with kpNext := (s.pr p).kpNext ++ [(s.deck.frameNum + 4, l)] }).sendConfig p eff
    else
      let s := s.setPr p { s.pr p with kp := l }
      if st = 2 then s.sendConfig p 0 else s

/-! Reverse windows (R199, R200). -/

/-- The TURN block of a pier. -/
def turnBlock (grant ackFrame : Nat) : Block := crcBlock 0x33 (leBytes 1 0 ++ leBytes 2 grant ++ leBytes 3 ackFrame)

/-- floor((W − 1,733.75 ns − 2 Cp) / 20.625 ns) for a window of `w8` in 1/8 ns (R199). -/
def PierSt.grantOf (x : PierSt) (w8 : Int) : Int :=
  divI (64 * (x.cpDen : Nat) * (w8 - 13870) - x.cpTwice) (64 * x.cpDen * blk8)

/-- How long the packet in transmission on pier `p`, if any, still delays the TURN (09 R232). -/
def State.turnDelay (s : State) (p : Nat) : Nat := if (s.vp p).tx.isSome then (s.vp p).txEnd8 - s.nt.now8 else 0

/-- The local time at which the TURN of a window that opens now starts: the next block boundary, or the end of the packet in
transmission (09 R222, R232). -/
def State.turnAt (s : State) (p : Nat) : Nat := if (s.vp p).tx.isSome then (s.vp p).txEnd8 else s.block8 p

/-- The GRANT of a window: shortened so that forward blocks resume 3 µs before the pier's next FLIP emission (R199). -/
def State.grant (s : State) (p w8 : Nat) : Int :=
  let x := s.pr p
  let g := x.grantOf w8
  match s.nextFlip p with
  | none => g
  | some t => min g (x.grantOf (s.until8 t - 24000 - (s.turnAt p - s.nt.now8 : Nat)))

/-- Is an echo due in the next window (R204)? -/
def State.echoIsDue (s : State) (p : Nat) : Bool :=
  (s.pierState p == 2 && decide ((s.pr p).discEcho < 8))
    || (s.pierState p == 3 && decide (max 1 (s.get Reg.PIER_ECHO_CFG.INTERVAL) ≤ (s.pr p).echoSince))

/-- A window or period without a valid burst; the third in succession returns an ACTIVE pier to LINKUP (R206, R454). -/
def State.missWindow (s : State) (p : Nat) : State :=
  if s.pierState p = 3 then
    let n := (s.pr p).missRun + 1
    if 3 ≤ n then s.setPier p 1 else s.setPr p { s.pr p with missRun := n }
  else s

/-- The number of the period between NT multiples of 200,000 ns that is in progress. -/
def State.periodNow (s : State) : Nat := (s.nt.sec * 1000000000 + s.nt.half / 2) / 200000

/-- PIER_IDLE_PERIOD: a period of 200,000 ns of a stopped Deck that has ended counts, if the pier used no reverse window in it (R454). -/
def State.idlePeriod (s : State) (p : Nat) : State :=
  let x := s.pr p
  if s.deckRunning ∨ s.deck.dev = .safeHalt ∨ x.period = some s.periodNow then s
  else
    let s := s.setPr p { x with period := some s.periodNow, usedWin := false }
    if x.period.isNone ∨ x.usedWin = true then s else s.missWindow p

/-- The guard before a window: four IDLE blocks, or two and an ECHO_REQ (09 R223); none after a packet that delayed the TURN. -/
def guardBlocks (echo : Option Nat) : List Block :=
  match echo with
  | none => [idleBlock, idleBlock, idleBlock, idleBlock]
  | some id => [idleBlock, idleBlock] ++ (plainPkt 6 id []).wire

/-- A window of `w8` opens on pier `p`, shortened by a packet in transmission (09 R232): the guard, TURN and the tail of two IDLE
blocks are sent, or the window is skipped (R199, R223). -/
def State.openWindow (s : State) (p w8 : Nat) : State :=
  let s := s.idlePeriod p
  let st := s.pierState p
  if st = 0 ∨ st = 6 ∨ s.geoNh p = 0 ∨ s.lineHeld p = true
      ∨ (st = 5 ∧ ((s.pr p).test.any fun t => t.running && decide (t.from8 ≤ s.nt.now8)) = false) then s
  else
    let delay := s.turnDelay p
    let g := s.grant p (w8 - delay)
    if g < 8 then s.bump (Reg.PIER_ERR.SKIPPED_WIN p)
    else
      let g := g.toNat
      let x := s.pr p
      let echo := if s.echoIsDue p && delay == 0 then some ((x.echoId + 1) % 256) else none
      let x : PierSt := match echo with
        | some id => { x with echoId := id, echoSince := 0 }
        | none => x
      let at8 := s.turnAt p
      let latest := at8 + 7830 + (divI x.cpTwice (64 * x.cpDen)).toNat + g * blk8
      let s := s.setPr p { x with usedWin := true, win := some ⟨g, echo, latest, at8 + (w8 - delay), [], false⟩ }
      (s.lineSend p ((if delay = 0 then guardBlocks echo else []) ++ [turnBlock g (s.deck.lastLatch.getD 0), idleBlock, idleBlock])).gridAlign p

/-- FREE_WINDOW: a window of 20 µs while no gate list is in force (R199): at NT multiples of 200,000 ns while the Deck is
stopped, at L(k) + 10 µs while it runs, each within the CLK_TIME cycle of its instant. A pier in TEST grants the window of its test
(R211, log 127). -/
def State.freeWindow (s : State) (p : Nat) : State :=
  let g := s.gating (groupOf p)
  let due := if s.pierState p = 5 then true
    else s.flag Reg.PIER_CTRL.FREE_TURN && (if s.deckRunning then
        decide (g = .allOpen) && decide (s.deck.phase = .blank) && decide (s.deck.latch8 + 80000 ≤ s.nt.now8)
          && decide (s.nt.now8 < s.deck.latch8 + 80020)
      else decide (s.nt.half % 400000 < 5))
  if s.deck.dev ≠ .safeHalt ∧ p < 512 ∧ g ≠ .list ∧ due = true then s.openWindow p 160000 else s

/-- A pier in LINKUP sends DISCOVER before the next window too (R206). -/
def State.discoverAgain (s : State) (p : Nat) : State := if s.pierState p = 1 then s.sendDiscover p else s

/-- Forward blocks resume after the preamble and 24 IDLE blocks (R199). -/
def State.resumeForward (s : State) (p : Nat) : State :=
  ((s.setPr p { s.pr p with fwdAt := s.nt.now8 }).emit (.preamble p)).lineSend p (List.replicate 24 idleBlock)

/-- REVERSE_WINDOW_TIMEOUT: no TURN with DIR 1 has arrived by the latest time (R200); the burst is discarded. -/
def State.windowTimeout (s : State) (p : Nat) (seen : List BlockSeen) : State :=
  match (s.pr p).win with
  | none => s
  | some w =>
    if w.turned = true ∨ s.nt.now8 < w.latest8 then s
    else
      let s := (s.setPr p { s.pr p with win := none }).resumeForward p
      (((s.bump (Reg.PIER_ERR.RX_BAD p)).set (Reg.PIER_STATUS.RX_LOCK p) (ofBool (lockAfter noLock seen))).missWindow p).discoverAgain p

/-- The end of the test of a pier: EV_PIER_TEST and LINKUP (R211). -/
def State.endPierTest (s : State) (p : Nat) (reverse : Bool) (errors bits : Nat) : State :=
  let s := s.setPr p { s.pr p with test := none }
  (s.setPier p 1).post 0x0807 sevInfo (p2 p ++ pb reverse ++ c4 errors ++ c4 bits)

/-- A packet of the tile arrives in a window: it waits for the TURN, or is discarded and counted (R194, R200). After the tile's TURN it
is lost. -/
def State.revPacket (s : State) (p ptype info : Nat) (payload : List Byte) (e : RxEnd) (k : RevPkt) : State :=
  match (s.pr p).win with
  | none => s
  | some w =>
    if w.turned then s
    else if payload.length % 8 = 0 ∧ payload.length ≤ 256
        ∧ rxWhole e payload.length (crc32c (sopBytes ptype payload.length info ++ payload)) = true then
      s.setPr p { s.pr p with win := some { w with burst := w.burst ++ [k] } }
    else s.bump (Reg.PIER_ERR.RX_BAD p)

/-- A TELEM packet of the tile (R197). -/
def State.revTelem (s : State) (p seq kind : Nat) (payload : List Byte) (e : RxEnd) (k : RevPkt) : State :=
  s.revPacket p 8 (seq % 4096 + kind % 256 * 65536) payload e k

/-- The payload of a DECLARE (R207). -/
def declareBytes (d : Declared) : List Byte :=
  leBytes 2 d.version ++ leBytes 1 d.nh ++ leBytes 1 d.nv ++ leBytes 2 d.h ++ leBytes 1 d.v ++ leBytes 1 d.widths
    ++ leBytes 4 d.latMin ++ leBytes 4 d.latMax ++ leBytes 8 d.tileId ++ leBytes 8 0

/-! What the tile acknowledges (R198). -/

/-- `a − b` of 12-bit sequence numbers, signed. -/
def diff12 (a b : Nat) : Int := signed 12 (a + 4096 - b % 4096)

/-- An acknowledged CTRL packet: a CONFIG sent since the last DECLARE, or TEST, which starts (R203, R211). -/
def State.ackedPkt (s : State) (p : Nat) (k : QPkt) : State :=
  let x := s.pr p
  if k.ptype ≠ 3 then s
  else if k.op = 2 then s.setPr p { x with cfgAcked := x.cfgAcked || k.gen == x.gen }
  else if k.op = 5 then
    (match x.test with
    | some t =>
      if t.running then s
      else if t.reverse then (s.setPr p { x with test := some { t with running := true, from8 := s.nt.now8 } }).setPier p 5
      else
        let s := (s.setPr p { x with test := some { t with
          running := true, from8 := s.nt.now8 + t.blocks * blk8 + 1280 + 24 * blk8 } }).setPier p 5
        (s.emit (.pierPattern p t.mode (66 * t.blocks))).resumeForward p
    | none => s)
  else s

/-- CTRL_ACK: every packet up to the SEQ is acknowledged. -/
def State.ctrlAck (s : State) (p a : Nat) : State :=
  let v := s.vp p
  let done := v.unacked.filter fun e => decide (0 ≤ diff12 a (e.2.seq.getD 0))
  let rest := v.unacked.filter fun e => !(decide (0 ≤ diff12 a (e.2.seq.getD 0)))
  done.foldl (fun s e => s.ackedPkt p e.2) (s.setVp p { v with unacked := rest })

/-- NAK: the packets from the SEQ expected are sent again; a packet sent 8 times returns the pier to LINKUP (R198), where the count of
transmissions starts anew (log 128). -/
def State.nakReceive (s : State) (p expected : Nat) : State :=
  let v := s.vp p
  let again := v.unacked.filter fun e => decide (0 ≤ diff12 (e.2.seq.getD 0) expected)
  match again.find? (fun e => decide (8 ≤ e.2.tries)) with
  | some e =>
    let s := (s.setVp p { v with unacked := v.unacked.map fun e => (e.1, { e.2 with tries := 0 }) }).setPr p { s.pr p with test := none }
    (s.post 0x0805 sevWarn (p2 p ++ p2 (e.2.seq.getD 0))).setPier p 1
  | none =>
    let s := s.setVp p { v with unacked := v.unacked.filter fun e => !(decide (0 ≤ diff12 (e.2.seq.getD 0) expected)) }
    let put := fun (a : State × Nat × Nat) (e : Nat × QPkt) =>
      (a.1.enqueuePkt p e.1 e.2 (some (if e.1 = 1 then a.2.1 else a.2.2)),
        if e.1 = 1 then (a.2.1 + 1, a.2.2) else (a.2.1, a.2.2 + 1))
    (again.foldl put (s, 0, 0)).1

/-! Frame echoes (07 R188; 17 R420). -/

/-- CRC_ECHO_CFG.LIMIT; 0 acts as 1. -/
def State.echoLimit (s : State) : Nat := max 1 (s.get Reg.CRC_ECHO_CFG.LIMIT)

/-- A frame of pier `p` has passed its echo. -/
def State.echoPass (s : State) (p : Nat) : State :=
  { s with port := { s.port with
      failRun := s.port.failRun.set (fun _ => 0) p 0
      keyRun := s.port.keyRun.set (fun _ => false) p false
      echoFlt := s.port.echoFlt.set (fun _ => false) p false } }

/-- A frame of pier `p` has failed its echo: `missing` or a mismatch. -/
def State.echoFail (s : State) (p : Nat) (missing : Bool) : State :=
  let s := if missing then s.bump (Reg.CRC_PIER.MISSING p) else s.bump (Reg.CRC_PIER.MISMATCH p)
  let s := s.postOncePer oneSecond (0x070B0000 + p) 0x070B sevWarn (p2 p ++ pb missing)
  let run := s.port.failRun.get (fun _ => 0) p + 1
  let key := s.port.keyRun.get (fun _ => false) p || s.port.keyFrame.get (fun _ => false) p
  let s : State := { s with port := { s.port with
    failRun := s.port.failRun.set (fun _ => 0) p run, keyRun := s.port.keyRun.set (fun _ => false) p key } }
  if run < s.echoLimit ∨ s.port.echoFlt.get (fun _ => false) p = true then s
  else
    let s : State := { s with port := { s.port with echoFlt := s.port.echoFlt.set (fun _ => false) p true } }
    let s := s.post 0x070C (if key then sevSafety else sevError) (p2 p ++ c2 run)
    if s.alarmCovered p then s.setEchoFault p true else s

/-- FRAME_ACK: CTRL_ACK counts in every one; the frame CRC is compared in the first of each frame that the pier carried while
ACTIVE (R200). On an alarm-covered pier HOGEL_ERR and FLIP_MISSED count as a mismatch (17 R420). -/
def State.frameAck (s : State) (p frame crc ack : Nat) (hogelErr flipMissed : Bool) : State :=
  let s := s.ctrlAck p ack
  match s.deck.lastLatch with
  | none => s
  | some n =>
    if s.pierState p ≠ 3 ∨ n < (s.pr p).firstF ∨ (s.pr p).ackDone = some n ∨ frame % 2 ^ 24 ≠ n % 2 ^ 24 then s
    else
      let s := s.setPr p { s.pr p with ackDone := some n }
      let bad := decide (crc ≠ s.port.crcPrev.get (fun _ => 0) p) || (s.alarmCovered p && (hogelErr || flipMissed))
      if bad then s.echoFail p false else s.echoPass p

/-- At L(k + 1) a FRAME_ACK for frame k that has not arrived is missing; then the frame that ends takes its place. -/
def State.latchEchoes (s : State) : State :=
  s.tiles.foldl (fun s p =>
    let x := s.pr p
    let carried := fun n : Nat => s.pierState p == 3 && decide (x.firstF ≤ n)
    let s : State := match s.deck.lastLatch with
      | some n => if carried n && x.ackDone != some n then s.echoFail p true else s
      | none => s
    { s with port := { s.port with
        crcPrev := s.port.crcPrev.set (fun _ => 0) p (match s.port.crcRun.get (fun _ => none) p with
          | some r => r ^^^ 0xFFFFFFFF
          | none => 0)
        crcRun := s.port.crcRun.set (fun _ => none) p none
        keyFrame := s.port.keyFrame.set (fun _ => false) p (s.port.keyNow.get (fun _ => false) p)
        keyNow := s.port.keyNow.set (fun _ => false) p false } }) s

/-! Echo and cable delay (R204). -/

/-- PIER_ECHO_CFG.AVG; 0 acts as 1. -/
def State.echoAvg (s : State) : Nat := max 1 (s.get Reg.PIER_ECHO_CFG.AVG)

/-- ECHO_REP in a window that followed the ECHO_REQ `sent`: `rtt` is RX − TX in taps, `res` the tile's RES in 1/16 UI, two taps
each. -/
def State.echoRep (s : State) (p : Nat) (sent : Option Nat) (id rtt res : Nat) : State :=
  if sent ≠ some id then s
  else
    let x := s.pr p
    let d : Int := (rtt : Int) - 2 * (res : Int)
    let cur := x.cpNext.getD (x.cpSum, x.cpN)
    let n := max 1 cur.2
    if s.echoAvg ≤ s.get (Reg.PIER_CABLE.SAMPLES p) ∧ 128000 * n < (d * (n : Int) - cur.1).natAbs * 625 then
      let s := s.bump (Reg.PIER_ERR.REJECTED p)
      if 2 ≤ x.rejRun then
        ((s.setPr p { x with samples := [], rejRun := 0 }).set (Reg.PIER_CABLE.SAMPLES p) 0).post 0x0803 sevWarn
          (p2 p ++ p4 (unsignedOf 32 (cpPs x.cpSum x.cpN)) ++ p1 0)
      else s.setPr p { x with rejRun := x.rejRun + 1 }
    else
      let l := (x.samples ++ [d]).drop ((x.samples.length + 1) - s.echoAvg)
      let s := s.setPr p { x with
        samples := l, rejRun := 0, cpNext := some (l.foldl (· + ·) 0, l.length), discEcho := x.discEcho + 1 }
      s.bump (Reg.PIER_CABLE.SAMPLES p)

/-- A new Cp takes effect at the latch point (R204). -/
def State.latchCable (s : State) (p : Nat) : State :=
  match (s.pr p).cpNext with
  | none => s
  | some (sum, n) =>
    let s := s.setPr p { s.pr p with cpSum := sum, cpN := n, cpNext := none }
    let ps := cpPs sum n
    let s := s.set (Reg.PIER_CABLE.DELAY p) (unsignedOf 24 ps)
    if ps < 0 ∨ 100000 < ps then
      (s.set (Reg.PIER_STATUS.CAL_OK p) 0).post 0x0803 sevWarn (p2 p ++ p4 (unsignedOf 32 ps) ++ p1 1)
    else s.set (Reg.PIER_STATUS.CAL_OK p) (ofBool (decide (s.echoAvg ≤ s.get (Reg.PIER_CABLE.SAMPLES p))))

/-! Discovery (R207). -/

/-- The first check of R207 that fails, 0 when all hold. -/
def State.declareCause (s : State) (p : Nat) (d : Declared) : Nat :=
  let within := fun n hi : Nat => decide (1 ≤ n) && decide (n ≤ hi)
  if d.version ≠ 1 then 1
  else if (within d.nh 64 && within d.nv 64 && within d.h 256 && within d.v 8
      && decide (d.nh * d.nv * d.h * d.v ≤ 2 ^ 20) && decide (d.h * d.v ≤ 1024)) = false then 2
  else if d.nh ≠ s.geoNh p ∨ d.nv ≠ s.geoNv p ∨ d.h ≠ s.geoH p ∨ d.v ≠ s.geoV p then 3
  else if bit d.widths (s.ac (Reg.PORT_PIER_CFG.WIDTH p)) = false then 4
  else if s.get (Reg.PIER_FLIPLAT.LAT p) < d.latMin ∨ d.latMax < s.get (Reg.PIER_FLIPLAT.LAT p) then 5
  else 0

/-- DECLARE: kept in PIER_p_DECL and its companions, and checked by a pier in LINKUP or MISMATCH. -/
def State.declare (s : State) (p : Nat) (d : Declared) : State :=
  let st := s.pierState p
  let s := (s.set (Reg.PIER_DECL.NH p) d.nh).set (Reg.PIER_DECL.NV p) d.nv
  let s := (s.set (Reg.PIER_DECL.H p) d.h).set (Reg.PIER_DECL.V p) d.v
  let s := (s.set (Reg.PIER_DECLW.WIDTHS p) d.widths).wr (Reg.PIER_LATMIN p) (word d.latMin)
  let s := s.wr (Reg.PIER_LATMAX p) (word d.latMax)
  if st ≠ 1 ∧ st ≠ 4 then s
  else match s.declareCause p d with
    | 0 =>
      let s := (s.set (Reg.PIER_STATUS.CAUSE p) 0).setPier p 2
      let s := s.setPr p { s.pr p with
        kp := s.get (Reg.PIER_FLIPLAT.LAT p), kpNext := [], discEcho := 0, cfgAcked := false, gen := (s.pr p).gen + 1
        widthSent := s.ac (Reg.PORT_PIER_CFG.WIDTH p) }
      s.sendConfig p 0
    | c => s.mismatch p c

/-- TEST_RESULT: the tile's count of a forward test ends it (R211). -/
def State.testResult (s : State) (p errors bits : Nat) : State :=
  match (s.pr p).test with
  | some t => if t.running && !t.reverse then s.endPierTest p false errors bits else s
  | none => s

/-- The burst of a reverse test ends it: the bits that differ from the pattern are counted in PIER_p_TEST_ERR (R211). -/
def State.reverseResult (s : State) (p : Nat) (rx : List Bool) : State :=
  match (s.pr p).test with
  | some t =>
    if t.running && t.reverse then
      let n := patternErrors t.mode rx
      (s.wr (Reg.PIER_TEST_ERR p) (word n)).endPierTest p true n rx.length
    else s
  | none => s

/-- PIER_TEST_START by the supervisor: CTRL TEST is sent to a pier that is not ACTIVE while the Deck runs (R211). -/
def State.pierTestStart (s : State) (bySup : Bool) (v : Word) : State :=
  if bySup = false then s
  else
    let mode := fieldOf v Reg.PIER_TEST.MODE
    let p := fieldOf v Reg.PIER_TEST.PIER
    let dir := fieldOf v Reg.PIER_TEST.DIR
    let len := fieldOf v Reg.PIER_TEST.LEN
    let s := (s.set Reg.PIER_TEST.DIR dir).set Reg.PIER_TEST.PIER p |>.set Reg.PIER_TEST.LEN len
    let s : State := if mode < 4 then s.set Reg.PIER_TEST.MODE mode else s
    let st := s.pierState p
    if bit v.toNat 31 = false ∨ mode = 0 ∨ 3 < mode ∨ st = 0 ∨ 5 ≤ st ∨ (st = 3 ∧ s.deckRunning = true) then s
    else
      let s := s.setPr p { s.pr p with test := some ⟨dir == 1, mode, len * 1024, false, 0⟩ }
      let k := ctrlPkt 5 (leBytes 1 mode ++ leBytes 1 dir ++ leBytes 2 0 ++ leBytes 4 (len * 1024))
      if st = 1 then s.enqueuePkt p 2 k (some 0) else s.offerPkts p 2 [k]

/-! The flip (R201 to R203). -/

/-- The FLIP block of a pier. -/
def flipBlock (frame fine flags : Nat) : Block := crcBlock 0x4B (leBytes 3 frame ++ leBytes 1 fine ++ leBytes 1 flags ++ leBytes 1 0)

/-- Is a CONFIG with NOW = 0 and this EFF not yet acknowledged? -/
def State.configOpen (s : State) (p eff : Nat) : Bool :=
  let v := s.vp p
  (v.unacked ++ v.offer ++ (v.q 2).map fun k => (2, k)).any fun e =>
    e.2.ptype == 3 && e.2.op == 2 && leAt e.2.payload 1 1 == 0 && leAt e.2.payload 8 3 == eff

/-- A FLIP block starts on pier `p`: between packets, or between two blocks of the packet in transmission (R194, 09 R227). -/
def State.flipOut (s : State) (p : Nat) (b : Block) : State :=
  let v := s.vp p
  let s := s.emit (.pierBlock p b)
  match v.tx with
  | none => s.lineOut p [b]
  | some _ =>
    let k := v.sending.length - ceilDiv (v.txEnd8 - s.nt.now8) blk8
    s.setVp p { v with sending := v.sending.take k ++ b :: v.sending.drop k, txEnd8 := v.txEnd8 + blk8 }

/-- FLIP_EMISSION: the pier sends the FLIP block of the frame at its computed instant, or late with FINE = 0. -/
def State.flipEmit (s : State) (p : Nat) : State :=
  let x := s.pr p
  if s.deck.dev = .safeHalt ∨ x.flipDue = false ∨ (x.win.any fun w => !w.turned) = true ∨ s.flipCome p = false then s
  else
    let s := s.setPr p { x with flipDue := false, flipLate := false, fwdAt := max x.fwdAt s.nt.now8 }
    if s.pierState p ≠ 3 then s
    else
      let f := s.deck.frameNum % 2 ^ 24
      let pos := if x.flipLate then (0, 0) else (s.flipPlace p).2
      let s : State := if s.configOpen p f then s.post 0x0806 sevWarn (p2 p ++ p4 f ++ p1 0) else s
      let flags := ofBool x.flipLate + 2 * ofBool s.deck.repeatF + 4 * ofBool (decide (s.deck.dev = .hold))
        + 8 * ofBool (decide (s.deck.dev = .keystoneOnly))
      let s := (s.set (Reg.PIER_FLIPPOS.LATE p) (ofBool x.flipLate)).set (Reg.PIER_FLIPPOS.FINE p) pos.1
      let s := s.set (Reg.PIER_FLIPPOS.TAP p) pos.2
      (s.emit (.pierTap p (s.tapSetting p pos.2))).flipOut p (flipBlock f pos.1 flags)

/-- The flips of the frame that ends are planned: a Kp whose EFF has come is used, and every ACTIVE pier that carried the
frame is to emit one (R201, R203). -/
def State.planFlips (s : State) : State :=
  (s.tiles.foldl (fun s p =>
    let x := s.pr p
    s.setPr p { x with
      kp := (x.atLatch s.deck.frameNum).kp
      kpNext := x.kpNext.filter fun e => !(decide (e.1 ≤ s.deck.frameNum))
      fwdAt := s.nt.now8
      flipDue := s.pierState p == 3 && decide (x.firstF ≤ s.deck.frameNum), flipLate := false }) s).markFlipsLate

/-- The piers at the latch point: Cp, a changed WIDTH (R208), and the entry into ACTIVE (R206). -/
def State.latchPiers (s : State) : State :=
  s.tiles.foldl (fun s p =>
    let s := s.latchCable p
    let w := s.ac (Reg.PORT_PIER_CFG.WIDTH p)
    let st := s.pierState p
    let s : State := if (st = 2 ∨ st = 3) ∧ w ≠ (s.pr p).widthSent then
        (s.setPr p { s.pr p with widthSent := w }).sendConfig p ((s.deck.frameNum + 1) % 2 ^ 24)
      else s
    if st = 2 ∧ (s.pr p).cfgAcked = true ∧ 8 ≤ (s.pr p).discEcho then
      (s.setPr p { s.pr p with firstF := s.deck.frameNum + 1, echoSince := 0 }).setPier p 3
    else s) s

/-- The TIME packet of every ACTIVE pier is queued: the frame whose flip comes next, its F, and the period (R197; 09 R215). -/
def State.sendTime (s : State) : State :=
  s.tiles.foldl (fun s p =>
    if s.pierState p = 3 then
      s.offerPkts p 3 [plainPkt 5 (s.deck.frameNum % 2 ^ 32) (leBytes 6 s.deck.flipNT ++ leBytes 2 0
        ++ leBytes 4 (s.ac Reg.DECK_PERIOD_NUM.NUM) ++ leBytes 1 (s.ac Reg.DECK_PERIOD_DEN.DEN) ++ leBytes 3 0)]
    else s) s

/-- Frame `f` ends on the piers; one without a used window counts as a miss (R454). -/
def State.endFramePiers (s : State) (f : Nat) : State :=
  s.tiles.foldl (fun s p =>
    let x := s.pr p
    let missed := s.pierState p == 3 && decide (x.firstF ≤ f) && !x.usedWin
    let s := s.setPr p { x with usedWin := false }
    if missed then s.missWindow p else s) s

/-- The piers at a frame start; `prev` when a frame ends with it (R454). -/
def State.framePiers (s : State) (prev : Bool) : State :=
  let s := if prev then s.endFramePiers (s.deck.frameNum - 1) else s
  s.tiles.foldl (fun s p =>
    let x := s.pr p
    s.setPr p { x with usedWin := false, period := none, echoSince := x.echoSince + 1 }) s

/-- The piers at the stop of the Deck: the last frame ends, and the period in progress is not a whole one (R454). -/
def State.stopPiers (s : State) : State :=
  let s := if s.deck.started then s.endFramePiers s.deck.frameNum else s
  s.tiles.foldl (fun s p => s.setPr p { s.pr p with usedWin := true, period := some s.periodNow }) s

end Sys2Proof.Machine
end

