-- ==== Sys2Proof/Machine/Gate.lean ====
section
/-! DEFINITION. Gate lists in motion (09 R221 to R223, R229 to R232, R455): cycle starts, entry boundaries, reverse windows,
GATE_EN, bank writes, swaps, and what a step of NT does to them. -/

namespace Sys2Proof.Machine

/-- The piers of a group with a tile. -/
def State.groupTiles (s : State) (g : Nat) : List Nat := s.tiles.filter fun p => p / 32 == g

/-- The entry in effect is shown, and a REV entry opens the reverse window of every pier of the group (R223). -/
def State.enterEntry (s : State) (g : Nat) : State :=
  let e := s.gateEntry g
  let s := s.set (Reg.VDT_G_STATUS.ENTRY g) e
  if s.gating g = .list ∧ bit (s.gateWord g (s.bankOf g) e) 4 = true then
    (s.groupTiles g).foldl (fun s p => s.openWindow p (s.entry8 g (s.bankOf g) e)) s
  else s

/-- Is the last entry of the active bank in effect? -/
def State.atLastEntry (s : State) (g : Nat) : Bool :=
  decide ((s.entrySeq g (s.bankOf g)).length ≤ (s.vg g).pos + 1)

/-- Entries of the cycle that were not reached. -/
def State.notReached (s : State) (g : Nat) : Nat := s.bankCount g (s.bankOf g) - 1 - s.gateEntry g

/-- An entry cut short is counted (R222). -/
def State.truncate (s : State) (g : Nat) : State :=
  if s.gating g = .list ∧ s.atLastEntry g = false then s.bump (Reg.VDT_G_COUNT.TRUNC g) else s

/-- EV_VDT_REALIGN (R231). -/
def State.postRealign (s : State) (g : Nat) (step : Int) (skipped : Nat) : State :=
  s.post 0x0905 sevInfo (p1 g ++ p8 (unsignedOf 64 step) ++ p1 skipped)

/-- An accepted swap starts the new bank, the old one having been cut, and posts EV_VDT_SWAP (R230); a group that had failed its
validation is gated again (R455), and the heads of the queues are tested against the new bank (R226). -/
def State.swapBank (s : State) (g : Nat) (late : Bool) : State :=
  let b := 1 - s.bankOf g
  let s := (s.set (Reg.VDT_G_STATUS.ACTIVE g) b).set (Reg.VDT_G_STATUS.PENDING g) 0
  let v := s.vg g
  let s := s.setVg g { v with
    swap := none, failed := false, pos := 0, begun8 := s.nt.now8, nextC := none, realign := none
    on := if v.failed then v.wantOn.getD v.on else v.on, wantOn := if v.failed then none else v.wantOn }
  let s := s.post 0x0901 sevInfo (p1 g ++ p1 b ++ p8 s.nt48 ++ pb late)
  (s.groupTiles g).foldl (fun s p => [0, 1, 2, 3].foldl (fun s c => s.settleHead p c) s) s

/-- A new cycle of group `g` begins with entry 0; a change of GATE_EN whose time has come takes effect (R222, R455). -/
def State.beginCycle (s : State) (g : Nat) : State :=
  let v := s.vg g
  let take := decide (v.wantAt8 ≤ s.nt.now8)
  let s := s.setVg g { v with
    pos := 0, begun8 := s.nt.now8, on := if take then v.wantOn.getD v.on else v.on, wantOn := if take then none else v.wantOn }
  s.enterEntry g

/-- The next C(n) of a bank with FRAME_SYNC = 0 at least `gap` ns ahead, judged from C(m). -/
def State.armCycle (s : State) (g gap : Nat) (m : Int) : State :=
  let b := s.bankOf g
  s.setVg g { s.vg g with nextC := some (s.cycleAt g b (s.firstCycle g b (s.nt48 + gap) m)) }

/-- The gate lists at a Deck frame start, which ends a cycle unless it is the `first` one after a stop; `late` when a forward step has
made it fire at once (R221, R222, R231). -/
def State.frameGates (s : State) (first late : Bool) : State :=
  let cut := s.vdt.realign.isNone && late && s.vdt.fwdStep.isSome
  let step := if cut then s.vdt.fwdStep else s.vdt.realign
  let s := (List.range 16).foldl (fun s g =>
    if s.frameSync g (s.bankOf g) && !first then
      let s' := s.truncate g
      match step with
      | some d => if s.gating g = .list then s'.postRealign g d (if s.atLastEntry g then 0 else s.notReached g) else s'
      | none => s'
    else s) s
  let s : State := { s with vdt := { s.vdt with realign := none, fwdStep := none } }
  (List.range 16).foldl (fun s g =>
    let s : State := match (s.vg g).swap with
      | some (none, late) => if s.nt.now8 < (s.vg g).swapAt8 + 8000 then s
        else ((if s.frameSync g (s.bankOf g) then s else s.truncate g).swapBank g late)
      | _ => s
    if s.frameSync g (s.bankOf g) then s.beginCycle g else s) s

/-- GATE_CYCLE_START of a bank with FRAME_SYNC = 0: C(n) has come (R221). -/
def State.cycleStart (s : State) (g : Nat) : State :=
  let v := s.vg g
  match v.nextC with
  | none => s
  | some (n, t) =>
    if s.deck.dev = .safeHalt ∨ s.frameSync g (s.bankOf g) = true ∨ s.due t = false then s
    else
      let s' := s.truncate g
      let s' : State := match v.realign with
        | some d => if s.gating g = .list then s'.postRealign g d (if s.atLastEntry g then 0 else s.notReached g) else s'
        | none => s'
      let s' := s'.setVg g { s'.vg g with
        realign := none
        nextC := some (s'.cycleAt g (s'.bankOf g) (n + 1)) }
      s'.beginCycle g

/-- GATE_ENTRY_BOUNDARY: the interval of the entry in effect has ended in CLK_TIME (R222). -/
def State.entryBoundary (s : State) (g : Nat) : State :=
  let v := s.vg g
  if s.deck.dev = .safeHalt ∨ s.gating g ≠ .list ∨ s.atLastEntry g = true
      ∨ s.nt.now8 < v.begun8 + s.entry8 g (s.bankOf g) (s.gateEntry g) then s
  else
    let t := v.begun8 + s.entry8 g (s.bankOf g) (s.gateEntry g)
    (s.setVg g { v with pos := v.pos + 1, begun8 := t }).enterEntry g

/-- A change of GATE_EN for one group (R455): validation on 0 to 1; at once for a frame-synchronous list of a stopped Deck,
else at the group's next cycle start. A cycle start of a running list less than 1,000 ns ahead is let pass: the change waits until it
is over, and cycles are at least 10,000 ns long (R229). -/
def State.gateChange (s : State) (g : Nat) (on : Bool) : State :=
  let b := s.bankOf g
  let s : State := if on then
      (match s.bankError g b with
      | some e => (s.setVg g { s.vg g with failed := true }).gateError g b e
      | none => s.setVg g { s.vg g with failed := false })
    else s
  if s.frameSync g b then
    (if s.deckRunning then s.setVg g { s.vg g with wantOn := some on, wantAt8 := s.nt.now8 }
    else s.setVg g { s.vg g with on := on, wantOn := none })
  else match (s.vg g).on, (s.vg g).nextC with
    | true, some t =>
      let d := diff48 t.2 s.nt48
      s.setVg g { s.vg g with wantOn := some on, wantAt8 := if 1000 ≤ d then s.nt.now8 else s.nt.now8 + 8 * d.toNat + 20000 }
    | _, _ => (s.setVg g { s.vg g with wantOn := some on, wantAt8 := s.nt.now8 }).armCycle g 1000 0

/-- A change of GATE_EN for every group. -/
def State.gateAll (s : State) (on : Bool) : State := (List.range 16).foldl (fun s g => s.gateChange g on) s

/-- GATE_EN_WRITE by the supervisor; the host's is ignored (R234). From the CONFIG section it acts once the whole list has been applied
(R455). -/
def State.gateEnWrite (s : State) (bySup : Bool) (v : Word) : State :=
  let on := bit v.toNat 0
  if bySup = false ∨ s.flag Reg.VDT_CTRL.GATE_EN = on then s
  else
    let s := s.set Reg.VDT_CTRL.GATE_EN (ofBool on)
    if s.boot.loading then s else s.gateAll on

/-- The group and bank whose registers hold the word at `a`, if any (R234). -/
def bankAt (a : Nat) : Option (Nat × Nat) :=
  if 0x16001000 ≤ a ∧ a < 0x16009000 then
    let o := (a - 0x16001000) % 0x800
    let g := (a - 0x16001000) / 0x800
    if 0x10 ≤ o ∧ o < 0x30 then some (g, (o - 0x10) / 0x10)
    else if 0x100 ≤ o ∧ o < 0x500 then some (g, (o - 0x100) / 0x200)
    else none
  else none

/-- The writable bits of a register that any writer may set. -/
def rwMask (a : Nat) : Nat :=
  match specOf a with
  | some r => r.rw
  | none => 0

/-- GATE_BANK_WRITE by the supervisor: ignored with ERR 7 for a bank that is active under GATE_EN = 1 or has a swap
pending (R230, R455). -/
def State.gateBankWrite (s : State) (bySup : Bool) (a : Nat) (v : Word) : State :=
  match bankAt a with
  | none => s
  | some (g, b) =>
    if bySup = false then s
    else
      let active := decide (b = s.bankOf g)
      let pending := (s.vg g).swap.isSome && !active
      if pending || (active && s.flag Reg.VDT_CTRL.GATE_EN) then s.gateError g b 7
      else s.wr a (mergeBits (s.rd a) v (rwMask a))

/-- GATE_SWAP_REQUEST by the supervisor (R229, R230). -/
def State.gateSwap (s : State) (bySup : Bool) (g : Nat) (v : Word) : State :=
  if bySup = false ∨ 15 < g ∨ bit v.toNat 0 = false then s
  else
    let b := 1 - s.bankOf g
    match (s.bankError g b).orElse (fun _ => if (s.vg g).swap.isSome then some 6 else none) with
    | some e => s.gateError g b e
    | none =>
      let s := (s.set (Reg.VDT_G_STATUS.ERR g) 0).set (Reg.VDT_G_STATUS.PENDING g) 1
      let base := s.cycleC g b 0
      let ahead := decide (1000 ≤ diff48 base s.nt48)
      let start := if s.frameSync g b then none
        else if ahead then some (0, base)
        else some (s.cycleAt g b (max 1 (s.firstCycle g b (s.nt48 + 1000) 0)))
      s.setVg g { s.vg g with swap := some (start, !(s.frameSync g b) && !ahead), swapAt8 := s.nt.now8 }

/-- GATE_SWAP_START of a bank with FRAME_SYNC = 0: its start has come (R230). -/
def State.gateSwapStart (s : State) (g : Nat) : State :=
  match (s.vg g).swap with
  | some (some (n, t), late) =>
    if s.deck.dev = .safeHalt ∨ s.due t = false then s
    else
      let s := (s.truncate g).swapBank g late
      (s.setVg g { s.vg g with nextC := some (s.cycleAt g (s.bankOf g) (n + 1)) }).beginCycle g
  | _ => s

/-- What the gate lists and the flips do at a step of NT (R231, 08 R203): banks with FRAME_SYNC = 0 end their cycle at the first C(n) at least 1,000 ns after it. -/
def State.takeStep (s : State) : State :=
  match s.nt.gateStep with
  | none => s
  | some d =>
    let s : State := { s with nt := { s.nt with gateStep := none } }
    if s.deck.dev = .safeHalt then s
    else
      let s : State := { s with vdt := { s.vdt with
        realign := if d < 0 ∧ s.deckRunning = true then some d else s.vdt.realign
        fwdStep := if 0 < d ∧ s.deckRunning = true then some d else s.vdt.fwdStep } }
      let s := (List.range 16).foldl (fun s g =>
        match (s.vg g).nextC with
        | none => s
        | some (n, _) =>
          if s.frameSync g (s.bankOf g) then s
          else
            let s := s.armCycle g 1000 n
            s.setVg g { s.vg g with realign := some d }) s
      s.markFlipsLate

/-- The frame-synchronous lists at the stop of the Deck: no cycle is left to cut or realign; a change of GATE_EN that waited
takes effect at once (R224, R455). -/
def State.stopGates (s : State) : State :=
  let s : State := { s with vdt := { s.vdt with realign := none, fwdStep := none } }
  (List.range 16).foldl (fun s g =>
    let v := s.vg g
    if s.frameSync g (s.bankOf g) then s.setVg g { v with on := v.wantOn.getD v.on, wantOn := none } else s) s

end Sys2Proof.Machine
end

