-- ==== Sys2Proof/Machine/Comb.lean ====
section
/-! DEFINITION. Combs and cells (05 R106 to R125; 02 R31, R53): service, band jobs, plane bands, deadlines, the audit,
memory errors, power gating and failure. -/

namespace Sys2Proof.Machine

/-- A comb without history. -/
def comb0 : Comb := ⟨[], 0, false, [], none, none, [], none, [], none, [], [], 0, 0, 0, 0, false, false, []⟩

/-- Comb `c`. -/
def State.cb (s : State) (c : Nat) : Comb := s.combs.get (fun _ => comb0) c

/-- Comb `c` replaced. -/
def State.setCb (s : State) (c : Nat) (x : Comb) : State := { s with combs := s.combs.set (fun _ => comb0) c x }

/-- A free cell. -/
def cell0 : Cell := ⟨.idle, 0, [], 0, false⟩

/-- Cell `k` of comb `c`. -/
def State.cell (s : State) (c k : Nat) : Cell := s.cells.get (fun _ => cell0) (c * 12 + k)

/-- Cell `k` of comb `c` replaced. -/
def State.setCell (s : State) (c k : Nat) (x : Cell) : State := { s with cells := s.cells.set (fun _ => cell0) (c * 12 + k) x }

/-! Service (R106, R124, R125). -/

/-- Has comb `c` failed? -/
def State.combFailed (s : State) (c : Nat) : Bool := s.get (Reg.COMB_STATUS.POWER c) == 3

/-- The buddy of comb `c`. -/
def buddy (c : Nat) : Nat := if c % 2 = 0 then c + 1 else c - 1

/-- The comb that serves pier `p`: its own, or the buddy of a failed one; none without a comb in service. -/
def State.combFor (s : State) (p : Nat) : Option Nat :=
  let c := p / 64
  if s.combFailed c then (if s.combFailed (buddy c) then none else some (buddy c)) else some c

/-- Is comb `c` kept off: COMB_c_CTRL.FORCE_OFF as it stood at the last latch point (R124, R126)? -/
def State.forcedOff (s : State) (c : Nat) : Bool := (s.cb c).forced

/-- The piers with a tile that comb `c` serves. -/
def State.served (s : State) (c : Nat) : List Nat := s.tiles.filter fun p => s.combFor p == some c

/-- Does a hogel need a band job: uncovered, on an ACTIVE pier, in NORMAL, with a comb to serve it (R110, R113, R169)? -/
def State.needsJob (s : State) (p v u : Nat) : Bool :=
  decide (s.deck.dev = .normal) && s.pierState p == 3 && (s.hogelKey p u v).isNone &&
    (match s.combFor p with
    | some c => !(s.forcedOff c)
    | none => false)

/-- The enabled cells of comb `c`. -/
def State.cellsOk (s : State) (c : Nat) : List Nat := bitsSet 12 (s.get (Reg.COMB_STATUS.CELLS_OK c))

/-! Bands (R114, R117). -/

/-- The layers of a frame, front to back (R81): enabled, not shed, with a buffer, and not in `off`. -/
def State.layersBut (s : State) (off : List Nat) : List Nat :=
  s.byPrio (s.enabledL.filter fun n =>
    !(s.shedL.contains n) && !(off.contains n) && (s.layers.reading.get noShown n).isSome)

/-- The layers a comb fetches: those not switched off in the frame. -/
def State.fetchLayers (s : State) : List Nat := s.layersBut s.deck.underrun

/-- The list without repeats. -/
def dedup (l : List Nat) : List Nat := l.foldl (fun a x => if a.contains x then a else a ++ [x]) []

/-- The section hogel rows of line `v` on comb `c`, each with its tile's vertical views. -/
def State.lineRows (s : State) (c v : Nat) : List (Nat × Nat) :=
  ((s.served c).filter fun p => decide (v < s.geoNv p)).map fun p => (Config.tileY p + v, s.geoV p)

/-- The scaled-plane rows that a ray of section row `y` reads in video layer `n` (04 R89). -/
def State.rowsRead (s : State) (n y vv : Nat) : List Nat :=
  (List.range vv).flatMap fun j =>
    let cy := sampleCoord (signed 32 (s.ac (Reg.LAYER_ORG_Y.ORG n))) (s.ac (Reg.LAYER_HSCALE.Y n))
      (signed 17 (s.ac (Reg.LAYER_DISP_V.DISP n))) y (viewOff j vv)
    let h : Int := s.ac (Reg.LAYER_PLANE.PLANE_H n)
    [(clampI (shrI cy 12) 0 (h - 1)).toNat, (clampI (shrI cy 12 + 1) 0 (h - 1)).toNat]

/-- Bytes of the band of layer `n` for line `v` on comb `c` (R114). -/
def State.bandBytes (s : State) (c v n : Nat) : Nat :=
  let rows := s.lineRows c v
  let f := s.ac (Reg.LAYER_CTRL.FORMAT n)
  if n < 24 then
    (dedup (rows.flatMap fun r => s.rowsRead n r.1 r.2)).length * s.ac (Reg.LAYER_PLANE.PLANE_W n) * (if f = 0 then 5 else 4)
  else
    let y0 := s.ac (Reg.LAYER_DST.DST_Y n)
    let ys := (dedup (rows.map (·.1))).filter fun y => decide (y0 ≤ y) && decide (y < y0 + s.ac (Reg.LAYER_SIZE.SRC_H n))
    ys.length * ceilDiv (s.ac (Reg.LAYER_SIZE.SRC_W n) * fmtBits f) 8

/-- The source rows that the fetch unit reads for the band of layer `n` for line `v` on comb `c`, each once (R114; 03 R74). -/
def State.bandRows (s : State) (c v n : Nat) : List Nat :=
  let rows := s.lineRows c v
  let h := s.ac (Reg.LAYER_SIZE.SRC_H n)
  if n < 24 then
    let taps := tapCount (s.ac (Reg.LAYER_SCALER.VTAPS n))
    dedup ((dedup (rows.flatMap fun r => s.rowsRead n r.1 r.2)).flatMap fun (qy : Nat) =>
      let pos := signed 32 (s.ac (Reg.LAYER_INIT_Y.INIT n)) + (qy : Int) * s.ac (Reg.LAYER_STEP_Y.STEP n)
      if taps = 1 then [(clampI (shrI (pos + 0x8000) 16) 0 ((h : Int) - 1)).toNat]
      else (List.range taps).map fun (t : Nat) => (clampI (shrI pos 16 - (taps / 2 : Nat) + 1 + t) 0 ((h : Int) - 1)).toNat)
  else
    let y0 := s.ac (Reg.LAYER_DST.DST_Y n)
    (dedup (rows.map (·.1))).filterMap fun y => if y0 ≤ y ∧ y < y0 + h then some (y - y0) else none

/-- The HBM bytes of those rows: address and length of each. -/
def State.bandSpans (s : State) (c v n : Nat) : List (Nat × Nat) :=
  let a := ((s.layers.reading.get noShown n).map (·.addr)).getD 0
  (s.bandRows c v n).map fun r => (a + r * s.ac (Reg.LAYER_PITCH.PITCH n),
    ceilDiv (s.ac (Reg.LAYER_SIZE.SRC_W n) * fmtBits (s.ac (Reg.LAYER_CTRL.FORMAT n))) 8)

/-- The total band of line `v` on comb `c`, over the layers `ls`. -/
def State.bandTotal (s : State) (c v : Nat) (ls : List Nat) : Nat := ls.foldl (fun a n => a + s.bandBytes c v n) 0

/-- The layers fetched while each still fits whole into 2 MiB (R117). -/
def State.bandFit (s : State) (c v : Nat) : List Nat → Nat → List Nat
  | [], _ => []
  | n :: ns, sum =>
    let t := sum + s.bandBytes c v n
    if 2097152 < t then [] else n :: s.bandFit c v ns t

/-! Underrun (02 R53). -/

/-- Layer `n` is switched off for the rest of the frame, once, with EV_LAYER_UNDERRUN. -/
def State.underrun (s : State) (n v : Nat) : State :=
  if s.deck.underrun.contains n then s
  else
    ({ s with deck := { s.deck with
        underrun := s.deck.underrun ++ [n], underTotal := min 0xFFFF (s.deck.underTotal + 1) } }).post 0x0205 sevWarn (p1 n ++ p1 v)

/-- BAND_FETCH_START: the fetch of the next line's band begins, overlapped with the current line or, gapped, after its jobs
have ended (R115). Layers that do not fit are switched off with EV_BAND_OVERFLOW (R117). -/
def State.bandFetchStart (s : State) (c : Nat) : State :=
  let cur := s.deck.curLine
  let next := match cur with
    | some v => v + 1
    | none => 0
  let x := s.cb c
  let jobsLeft := match cur with
    | some v => x.queue.any (fun j => j.line == v)
        || (List.range 12).any (fun k => match (s.cell c k).work with
          | .job j => j.line == v
          | .idle => false)
        || (s.served c).any (fun p => decide (v < s.geoNv p) &&
          (List.range (s.geoNh p)).any fun u => s.needsJob p v u && decide (s.port.nextU.get (fun _ => 0) p ≤ v * 64 + u))
    | none => false
  if s.deck.dev ≠ .normal ∨ 7 < c ∨ s.get (Reg.COMB_STATUS.POWER c) ≠ 2 ∨ s.deckRunning = false ∨ s.deck.phase = .waitLatch
      ∨ x.fetchLine = some next ∨ s.deck.lines ≤ next ∨ (s.flag (Reg.COMB_STATUS.GAPPED c) = true ∧ jobsLeft = true) then s
  else
    let s := s.setCb c { x with fetchLine := some next, resident := x.resident.filter fun r => some r.1 == cur }
    let all := s.fetchLayers
    let fit := s.bandFit c next all 0
    let off := all.filter fun n => !(fit.contains n)
    match off with
    | [] => s
    | n :: _ =>
      let s : State := if x.overflowed then s else
        (s.setCb c { s.cb c with overflowed := true }).post 0x0505 sevWarn (p1 c ++ p1 next ++ p4 (s.bandTotal c next all) ++ p1 n)
      off.foldl (fun s n => s.underrun n next) s

/-- The layer whose band comb `c` fetches next for line `v`: the bands come in the order of R81 (R115). -/
def State.nextBand (s : State) (c v : Nat) : Option Nat :=
  s.fetchLayers.find? fun n => !((s.cb c).resident.contains (v, n))

/-- BAND_RESIDENT: the band of layer `n`, whose turn it is, is in the cache; a layer whose rows HBM cannot return is switched off (R109,
R115, 12 R314). -/
def State.bandResident (s : State) (c n : Nat) : State :=
  match (s.cb c).fetchLine with
  | none => s
  | some v =>
    if s.nextBand c v ≠ some n then s
    else
      if (s.bandSpans c v n).all fun x => s.hbmOk x.1 x.2 then
        s.setCb c { s.cb c with resident := (s.cb c).resident ++ [(v, n)] }
      else s.underrun n v

/-- The enabled, unshed layers. -/
def State.shownLayers (s : State) : List Nat := s.enabledL.filter fun n => !(s.shedL.contains n)

/-- The time of one job on pier `p` at the recipe's cost, in 1/8 ns: a cell cycle is 5 of them (R116, R119). The fixed set-up cost of a
job is not part of it, and a fraction of a cycle is dropped (log 111). -/
def State.jobTime8 (s : State) (c p : Nat) : Nat :=
  let r := s.ac (Reg.COMB_RECIPE.SLOT c)
  s.rays p * (s.rcp r 0x0A 2 + s.rcp r 0x0C 2 * s.shownLayers.length) / 256 * 5

/-- The band deadline of line `v` on comb `c` as an offset from the frame start, which may lie before it (R116); none without piers. -/
def State.bandDeadline8 (s : State) (c v : Nat) : Option Int :=
  ((s.served c).filter fun p => decide (v < s.geoNv p)).foldl (fun a p =>
    let d : Int := (s.deadline8 p v 0 : Int) - s.jobTime8 c p
    some (match a with
      | some b => if b < d then b else d
      | none => d)) none

/-- The local time of the actual start of the frame whose jobs are issued: the frame in progress or, in blanking, the next one, as far
as it is known (R111). -/
def State.jobsStart8 (s : State) : Option Int :=
  match s.deck.phase with
  | .line _ | .waitLatch => some (s.deck.start8 : Int)
  | .blank => s.deck.nextK.map fun k => (s.nt.now8 : Int) + s.until8 (s.schedS k)
  | _ => none

/-- The lines whose band deadline can come now: the one in progress and the next, or in blanking line 0 of the next frame. -/
def State.bandLines (s : State) : List Nat :=
  match s.deck.curLine with
  | some v => if v + 1 < s.deck.lines then [v, v + 1] else [v]
  | none => if s.deck.phase = .blank then [0] else []

/-- The band deadline of line `v` on comb `c` has come: a layer whose band is not resident is switched off for the rest of the frame. -/
def State.bandDeadlineOf (s : State) (c v : Nat) : State :=
  match s.jobsStart8, s.bandDeadline8 c v with
  | some t, some d =>
    if (s.nt.now8 : Int) < t + d then s
    else ((s.fetchLayers.filter fun n => !((s.cb c).resident.contains (v, n)))).foldl (fun s n => s.underrun n v) s
  | _, _ => s

/-- BAND_DEADLINE: the band deadlines of comb `c` that have come (R116). -/
def State.bandDeadline (s : State) (c : Nat) : State :=
  if s.deck.dev ≠ .normal ∨ s.get (Reg.COMB_STATUS.POWER c) ≠ 2 then s
  else s.bandLines.foldl (fun s v => s.bandDeadlineOf c v) s

/-! Band jobs (R110 to R112). -/

/-- The queue with a job in its place: by deadline, then by pier (R111). -/
def insertJob (j : Job) : List Job → List Job
  | [] => [j]
  | k :: ks =>
    if j.line < k.line ∨ (j.line = k.line ∧ (j.deadline < k.deadline ∨ (j.deadline = k.deadline ∧ j.pier < k.pier))) then
      j :: k :: ks
    else k :: insertJob j ks

/-- The next hogel of pier `p` that has a job: line and hogel, from a place on, within one line. -/
def State.nextJob (s : State) (p from' : Nat) : Option (Nat × Nat) :=
  let v := from' / 64
  ((List.range (s.geoNh p)).find? fun u => decide (from' % 64 ≤ u) && s.needsJob p v u).map fun u => (v, u)

/-- The line that is current for the issue of jobs: the one in progress, line 0 of the next frame in blanking. -/
def State.issueLine (s : State) : Option Nat :=
  match s.deck.curLine with
  | some v => some v
  | none => if s.deck.phase = .blank ∧ s.deck.nextK.isSome = true then some 0 else none

/-- The job for a hogel is issued: a slot is taken and its uniformity fetch starts (R110, 07 R168, R179). A pier with
UNI_EN = 0 uses the neutral gain and fetches nothing (07 R178). -/
def State.issueJob (s : State) (c p v u : Nat) : State :=
  let uni := if s.ac (Reg.PORT_PIER_CFG.UNI_EN p) = 1 then none else some (some ([], 0x8000))
  let l := s.port.slots.get (fun _ => []) p ++ [⟨v, u, none, uni, false⟩]
  let s : State := { s with port := { s.port with
    slots := s.port.slots.set (fun _ => []) p l, nextU := s.port.nextU.set (fun _ => 0) p (v * 64 + u + 1) } }
  let j : Job := ⟨p, v, u, s.deadline8 p v u, false⟩
  s.setCb c { s.cb c with queue := insertJob j (s.cb c).queue }

/-- Has the instant come at which the first jobs of line `v` are issued for pier `p`: Le × Th before the first RAY window of the line opens
for its group (R110)? -/
def State.issueDue (s : State) (p v : Nat) : Bool :=
  let lp := s.ac Reg.DECK_LINE_PERIOD.PERIOD * 8
  match s.jobsStart8, s.raySegs (groupOf p) (v * lp) ((v + 1) * lp) with
  | some t, w :: _ => decide (t + w.1 - (s.effLead p * s.th8 p : Nat) ≤ (s.nt.now8 : Int))
  | _, _ => false

/-- BAND_JOB_ISSUE: the next hogel of pier `p` gets its job while a slot is free. Jobs of the next line are issued once the
current line has none left, and those of a line not before its instant (R110). -/
def State.bandJobIssue (s : State) (p : Nat) : State :=
  match s.issueLine, s.combFor p with
  | some cur, some c =>
    if s.deck.dev ≠ .normal ∨ 511 < p ∨ s.effLead p ≤ (s.port.slots.get (fun _ => []) p).length
        ∨ s.get (Reg.COMB_STATUS.POWER c) = 0 then s
    else
      let at' := max (cur * 64) (s.port.nextU.get (fun _ => 0) p)
      let ok := fun v => decide (v < s.geoNv p) && decide (v < s.ac Reg.DECK_LINES.LINES) && decide (v ≤ cur + 1)
      match (if ok (at' / 64) then s.nextJob p at' else none) with
      | some (v, u) => if s.issueDue p v then s.issueJob c p v u else s
      | none =>
        let v := at' / 64 + 1
        (match (if ok v && s.deck.phase != .blank && s.issueDue p v then s.nextJob p (v * 64) else none) with
        | some (v, u) => s.issueJob c p v u
        | none => s)
  | _, _ => s

/-- Which cells a job may run on: an audit not on the original's cell, a third not on either (R121, R122). -/
def State.jobCells (s : State) (c : Nat) (j : Job) : List Nat :=
  (s.cellsOk c).filter fun k =>
    decide ((s.cell c k).work = .idle) && !(s.cell c k).progLost && decide ((s.cell c k).freeAt ≤ s.nt.now8) &&
      (!j.audit || (match (s.cb c).audit with
        | some a => k != a.orig && a.cell != some k
        | none => false))

/-- CELL_JOB_DISPATCH: the head of the deadline queue goes to the lowest-numbered free enabled cell (R111). -/
def State.jobDispatch (s : State) (c : Nat) : State :=
  match (s.cb c).queue with
  | [] => s
  | j :: js =>
    match s.jobCells c j with
    | [] => s
    | k :: _ =>
      if s.deck.dev ≠ .normal ∨ s.get (Reg.COMB_STATUS.POWER c) ≠ 2 then s
      else
        let x := s.cb c
        let a := if j.audit then x.audit.map fun a => if a.cell.isNone then { a with cell := some k } else a else x.audit
        (s.setCb c { x with queue := js, audit := a }).setCell c k
          { s.cell c k with work := .job j, since8 := s.nt.now8, off := s.deck.underrun }

/-- A cell lets its job go; the time it has spent on it is counted (R126). A job that is dropped is followed by no throttle pause
(log 112). -/
def State.cellDrop (s : State) (c k : Nat) : State :=
  let x := s.cell c k
  match x.work with
  | .idle => s
  | .job _ => (s.setCb c { s.cb c with busyNow := (s.cb c).busyNow + (s.nt.now8 - x.since8) }).setCell c k { x with work := .idle }

/-- A cell has completed its job: its throttle pause begins (R123). -/
def State.cellDone (s : State) (c k : Nat) : State :=
  let s := s.cellDrop c k
  s.setCell c k { s.cell c k with freeAt := s.nt.now8 + s.get Reg.THM_THROTTLE.LEVEL * 2048 }

/-- A slot of pier `p` changed. -/
def State.mapSlot (s : State) (p v u : Nat) (f : Slot → Slot) : State :=
  let l := (s.port.slots.get (fun _ => []) p).map fun x => if x.line == v && x.u == u then f x else x
  { s with port := { s.port with slots := s.port.slots.set (fun _ => []) p l } }

/-- The job of a hogel is abandoned: its slot is to be sent as RAY_HOLD, and the job is counted (R112, R54). -/
def State.abandonJob (s : State) (c p v u : Nat) : State :=
  let x := s.cb c
  let s := s.setCb c { x with queue := x.queue.filter fun j => !(j.pier == p && j.line == v && j.u == u && !j.audit)
                              abandoned := min 0xFFFF (x.abandoned + 1) }
  let s := (s.cellsOk c).foldl (fun s k => match (s.cell c k).work with
    | .job j => if j.pier == p && j.line == v && j.u == u && !j.audit then s.cellDrop c k else s
    | .idle => s) s
  s.mapSlot p v u fun x => { x with hold := true }

/-! Memory errors (R109). -/

/-- Codes of the memories, in the order of R109. -/
abbrev memLocal : Nat := 0
abbrev memProgram : Nat := 1
abbrev memPlane : Nat := 2
abbrev memLine : Nat := 3
abbrev memLut : Nat := 4

/-- The cell of EV_COMB_ECC: 0xF for a memory of the comb (R127). -/
def eccCell (k mem : Nat) : Nat := if mem ≤ memProgram then k else 0xF

/-- A corrected error: counted, and posted at most once per second per comb with the count since the last event (R127). -/
def State.eccCorrected (s : State) (c k mem addr : Nat) : State :=
  let s := s.bump (Reg.COMB_ECC.CORR c)
  let n := (s.cb c).eccSince + 1
  let s' := s.postOncePer oneSecond (0x05040 + c) 0x0504 sevInfo (p1 c ++ p1 (eccCell k mem) ++ p1 mem ++ p4 addr ++ c2 n)
  if s'.evt.eseq = s.evt.eseq then s.setCb c { s.cb c with eccSince := n } else s'.setCb c { s'.cb c with eccSince := 0 }

/-- The comb fails at the next latch point, unless a cause already stands. -/
def State.failComb (s : State) (c cause : Nat) : State :=
  if s.combFailed c || (s.cb c).failNext.isSome then s else s.setCb c { s.cb c with failNext := some cause }

/-- EV_CELL_DISABLED, once for each time a cell is disabled: 0 audit, 1 program ECC, 2 supervisor (R122, R127). -/
def State.announceCell (s : State) (c k cause : Nat) : State :=
  if (s.cb c).announced.contains k then s
  else (s.setCb c { s.cb c with announced := (s.cb c).announced ++ [k] }).post 0x0502 sevError (p1 c ++ p1 k ++ p1 cause)

/-- The hardware disables a cell at the next latch point (R109, R122). -/
def State.disableCell (s : State) (c k cause : Nat) : State :=
  (s.set (Reg.COMB_CTRL.CELL_OFF c) (setBit (s.get (Reg.COMB_CTRL.CELL_OFF c)) k)).announceCell c k cause

/-- A LUT store word is copied from the next comb; a second failure of the same word, at any later time, fails the comb (log 110). -/
def State.lutStoreError (s : State) (c addr : Nat) : State :=
  if (s.cb c).lutFailed.contains addr then s.failComb c 1
  else s.setCb c { s.cb c with lutFailed := (s.cb c).lutFailed ++ [addr] }

/-- EV_CELL_AUDIT with its outcome: 0 the third agrees with one, 1 with neither or none, 2 with both (R122, log 21). -/
def State.postAudit (s : State) (c : Nat) (a : Audit) (outcome : Nat) : State :=
  s.post 0x0501 sevError (p1 c ++ p1 a.orig ++ p1 (a.cell.getD 0xF) ++ p2 a.job.pier ++ p1 a.job.u ++ p1 a.job.line ++ p1 outcome)

/-- The outcome of an arbitration without agreement: both cells are suspect, and a second one within 1 s fails the comb. -/
def State.auditNeither (s : State) (c : Nat) (a : Audit) : State :=
  let x := s.cb c
  let again := match x.suspectAt with
    | some t => decide (s.nt.now8 < t + oneSecond)
    | none => false
  let s := s.setCb c { x with
    suspects := dedup (x.suspects ++ [a.orig] ++ a.cell.toList), suspectAt := some s.nt.now8, audit := none }
  let s := s.postAudit c a 1
  if again then s.failComb c 2 else s

/-- The audit of comb `c` is skipped and counted (R121). -/
def State.auditSkip (s : State) (c : Nat) : State :=
  (s.setCb c { s.cb c with audit := none }).bump (Reg.COMB_AUDIT.SKIPPED c)

/-- The audit of comb `c` ends without a result of the cell that runs it: skipped, or with a mismatch found before no third cell
completes (R121, R122). -/
def State.auditOver (s : State) (c : Nat) : State :=
  match (s.cb c).audit with
  | none => s
  | some a => if a.result.isSome then s.auditNeither c a else s.auditSkip c

/-- The local memory of a cell that runs an audit is lost: the audit cannot complete there. -/
def State.auditLost (s : State) (c k : Nat) : State := (s.cellDrop c k).auditOver c

/-- An uncorrectable error in the local memory of a cell: its job is abandoned, an audit is lost. -/
def State.localError (s : State) (c k : Nat) : State :=
  match (s.cell c k).work with
  | .job j => if j.audit then s.auditLost c k else s.abandonJob c j.pier j.line j.u
  | .idle => s

/-- A job goes back to the queue for another cell; an audit looks for its auditing cell anew, unless that one has delivered its result
(R109, R121). -/
def State.requeueJob (s : State) (c : Nat) (j : Job) : State :=
  let x := s.cb c
  s.setCb c { x with
    queue := insertJob j x.queue
    audit := if j.audit then x.audit.map fun a => if a.result.isNone then { a with cell := none } else a else x.audit }

/-- The cell leaves service until its program is whole again, and its job returns to the queue. -/
def State.loseProgram (s : State) (c k : Nat) : State :=
  let w := (s.cell c k).work
  let s := s.cellDrop c k
  let s := s.setCell c k { s.cell c k with progLost := true }
  let x := s.cb c
  let s := (s.set (Reg.COMB_STATUS.CELLS_OK c) (clearBit (s.get (Reg.COMB_STATUS.CELLS_OK c)) k)).setCb c { x with
    progErrs := (x.progErrs ++ [(k, s.nt.now8)]).filter fun e => decide (s.nt.now8 < e.2 + oneSecond) }
  match w with
  | .job j => s.requeueJob c j
  | .idle => s

/-- An uncorrectable error in the program of a cell; the third within a second disables it. -/
def State.programError (s : State) (c k : Nat) : State :=
  let s := s.loseProgram c k
  if 3 ≤ ((s.cb c).progErrs.filter fun e => e.1 == k).length then s.disableCell c k 1 else s

/-- The line in progress, 0 in blanking. -/
def State.lineNow (s : State) : Nat := s.deck.curLine.getD 0

/-- A plane word of layer `n` is lost: no band of the layer is whole any more, and the layer is switched off (R109, 02 R53). -/
def State.bandLost (s : State) (c n : Nat) : State :=
  (s.setCb c { s.cb c with resident := (s.cb c).resident.filter fun r => decide (r.2 ≠ n) }).underrun n s.lineNow

/-- The reaction of R109 to an uncorrectable error in a memory of comb `c`; `layer` is the one whose plane word failed. -/
def State.eccUncorrectable (s : State) (c k mem addr layer : Nat) : State :=
  let s := s.bump (Reg.COMB_ECC.UNCORR c)
  let s := s.post 0x0504 sevError (p1 c ++ p1 (eccCell k mem) ++ p1 mem ++ p4 addr ++ p2 1)
  if mem = memLocal then s.localError c k
  else if mem = memProgram then s.programError c k
  else if mem = memLut then s.lutStoreError c addr
  else s.bandLost c layer

/-- CELL_PROGRAM_RELOAD: the program is whole again and the cell returns to service (R109). -/
def State.programReload (s : State) (c k : Nat) : State :=
  if 7 < c ∨ 11 < k ∨ (s.cell c k).progLost = false then s
  else
    let s := s.setCell c k { s.cell c k with progLost := false }
    if bit (s.get (Reg.COMB_CTRL.CELL_OFF c)) k then s
    else s.set (Reg.COMB_STATUS.CELLS_OK c) (setBit (s.get (Reg.COMB_STATUS.CELLS_OK c)) k)

/-- LUT_STORE_SCRUB: a word found uncorrectable in comb `c` is repaired from the next comb. -/
def State.lutScrub (s : State) (c : Nat) (bad : Option Nat) : State :=
  if 7 < c ∨ s.deck.dev = .safeHalt then s
  else match bad with
    | none => s
    | some a => s.eccUncorrectable c 0xF memLut a 0

/-! The completion of a job and the audit (R111, R121, R122). -/

/-- Has a cell that began with the layers `off` switched off every other layer of line `v`, or is it switched off by now (04 R96)? -/
def State.bandReady (s : State) (c v : Nat) (off : List Nat) : Bool :=
  (s.layersBut off).all fun n => (s.cb c).resident.contains (v, n) || s.deck.underrun.contains n

/-- The layers that a job of line `v` leaves out: those switched off before it began, and those switched off since whose band never
became resident (04 R96, log 113). -/
def State.jobOff (s : State) (c v : Nat) (off : List Nat) : List Nat :=
  off ++ (s.layersBut off).filter fun n => !((s.cb c).resident.contains (v, n))

/-- The audit job of a completed original enters the queue with the deadline of the line's last hogel. -/
def State.startAudit (s : State) (c k : Nat) (j : Job) (vals off : List Nat) : State :=
  let x := s.cb c
  if x.auditSel.contains (j.line, j.pier, j.u) && x.audit.isNone && s.get Reg.COMB_AUDIT_CFG.EN == 1 then
    let d := s.deadline8 j.pier j.line (s.geoNh j.pier - 1)
    let a : Job := { j with deadline := d, audit := true }
    s.setCb c { x with audit := some ⟨a, k, vals, off, none, none⟩, queue := insertJob a x.queue
                       auditSel := x.auditSel.filter fun e => e != (j.line, j.pier, j.u) }
  else s

/-- Has the deadline of a job of the frame in progress passed (R112)? Jobs issued in blanking wait for their frame. -/
def State.pastDeadline (s : State) (j : Job) : Bool :=
  match s.deck.phase with
  | .line _ => decide (s.deck.start8 + j.deadline < s.nt.now8)
  | _ => false

/-- CELL_JOB_COMPLETE: the cell has written the whole hogel into its slot (R111); one that completes after its deadline is abandoned
(R112). -/
def State.jobComplete (s : State) (c k : Nat) : State :=
  match (s.cell c k).work with
  | .idle => s
  | .job j =>
    if j.audit = true ∨ s.deck.dev ≠ .normal ∨ s.bandReady c j.line (s.cell c k).off = false then s
    else if s.pastDeadline j then s.abandonJob c j.pier j.line j.u
    else
      let off := s.jobOff c j.line (s.cell c k).off
      let vals := s.hogelValues (s.ac (Reg.COMB_RECIPE.SLOT c)) j.pier j.u j.line off
      let s := s.mapSlot j.pier j.line j.u fun x => if x.hold then x else { x with vals := some vals }
      (s.cellDone c k).startAudit c k j vals off

/-- AUDIT_COMPARE: the auditing cell has recomputed the hogel; `fault` replaces its values when it is at fault. An audit that ends after
its deadline is skipped. -/
def State.auditCompare (s : State) (c : Nat) (fault : Option (List Nat)) : State :=
  match (s.cb c).audit with
  | none => s
  | some a =>
    match a.cell, a.result with
    | some k, none =>
      (match (s.cell c k).work with
      | .idle => s
      | .job j =>
        if j.audit = false ∨ s.deck.dev ≠ .normal ∨ s.bandReady c j.line a.off = false then s
        else if s.pastDeadline j then (s.cellDone c k).auditSkip c
        else
          let r := fault.getD (s.hogelValues (s.ac (Reg.COMB_RECIPE.SLOT c)) j.pier j.u j.line a.off)
          let s := (s.cellDone c k).count (Reg.COMB_AUDIT.RUN c)
          if r = a.copied then s.setCb c { s.cb c with audit := none }
          else
            let s := s.bump (Reg.COMB_AUDIT.MISMATCH c)
            s.setCb c { s.cb c with audit := some { a with result := some r }, queue := insertJob a.job (s.cb c).queue })
    | _, _ => s

/-- AUDIT_ARBITRATE: the third cell has completed (with the values `fault` when it is at fault), or with `late` the deadline has passed
without one. A third cell that completes after the deadline counts as none. -/
def State.auditArbitrate (s : State) (c : Nat) (late : Bool) (fault : Option (List Nat)) : State :=
  match (s.cb c).audit with
  | none => s
  | some a =>
    match a.result with
    | none => s
    | some r =>
      let runs := (s.cellsOk c).find? fun k => match (s.cell c k).work with
        | .job j => j.audit
        | .idle => false
      if late then
        (if s.nt.now8 < s.deck.start8 + a.job.deadline then s
        else
          let s : State := match runs with
            | some k => s.cellDrop c k
            | none => s.setCb c { s.cb c with queue := (s.cb c).queue.filter fun j => !j.audit }
          s.auditNeither c a)
      else match runs with
        | none => s
        | some k =>
          let t := fault.getD (s.hogelValues (s.ac (Reg.COMB_RECIPE.SLOT c)) a.job.pier a.job.u a.job.line a.off)
          let tooLate := s.pastDeadline a.job
          let s := s.cellDone c k
          if tooLate then s.auditNeither c a
          else if t = a.copied ∧ t = r then (s.setCb c { s.cb c with audit := none }).postAudit c a 2
          else if t = a.copied then
            ((s.setCb c { s.cb c with audit := none }).postAudit c a 0).disableCell c (a.cell.getD 0) 0
          else if t = r then ((s.setCb c { s.cb c with audit := none }).postAudit c a 0).disableCell c a.orig 0
          else s.auditNeither c a

/-- The jobs of line `v` on comb `c` in the order of R111. -/
def State.lineJobs (s : State) (c v : Nat) : List Job :=
  ((s.served c).filter fun p => decide (v < s.geoNv p)).foldl (fun l p =>
    (List.range (s.geoNh p)).foldl (fun l u =>
      if s.needsJob p v u then insertJob ⟨p, v, u, s.deadline8 p v u, false⟩ l else l) l) []

/-- One step of the 32-bit LFSR x^32 + x^22 + x^2 + x + 1 (R121): a shift to the left, with bits 31, 21, 1 and 0 fed back into bit 0
(log 114). -/
def lfsrStep (x : Nat) : Nat :=
  (x * 2 + ofBool (xor (xor (bit x 31) (bit x 21)) (xor (bit x 1) (bit x 0)))) % 2 ^ 32

/-- The LFSR of comb `c` loaded with a seed (R121). -/
def lfsrSeed (seed c : Nat) : Nat := if seed ^^^ c = 0 then 1 else (seed ^^^ c) % 2 ^ 32

/-- The hogel of line `v` that comb `c` audits is selected while COMB_AUDIT_CFG.EN is 1 (R121), before the jobs of the line are issued:
when the line before it begins, and for line 0 at the latch point. -/
def State.selectAudit (s : State) (v c : Nat) : State :=
  if s.get Reg.COMB_AUDIT_CFG.EN = 0 ∨ s.get (Reg.COMB_STATUS.POWER c) = 0 ∨ s.combFailed c = true then s
  else
    let x := s.cb c
    let l := lfsrStep x.lfsr
    let js := s.lineJobs c v
    let sel := match js[l % max 1 js.length]? with
      | some j => [(j.line, j.pier, j.u)]
      | none => []
    s.setCb c { x with lfsr := l, auditSel := x.auditSel ++ sel }

/-- The audits of line `v` are selected on every comb, if the frame has the line. -/
def State.selectAudits (s : State) (v : Nat) : State :=
  if v < s.deck.lines then (List.range 8).foldl (fun s c => s.selectAudit v c) s else s

/-- The cells of comb `c` drop their jobs of line `v`. -/
def State.dropLineJobs (s : State) (c v : Nat) : State :=
  (List.range 12).foldl (fun s k => match (s.cell c k).work with
    | .job j => if j.line = v then s.cellDrop c k else s
    | .idle => s) s

/-- Does an audit of line `v` run on comb `c`? -/
def State.auditOf (s : State) (c v : Nat) : Bool :=
  match (s.cb c).audit with
  | some a => a.job.line == v
  | none => false

/-- Comb `c` drops its queue, its audit and its bands of line `v`; a selected audit that never started counts as skipped. -/
def State.dropLineQueue (s : State) (c v : Nat) : State :=
  let s : State := if s.auditOf c v then s.auditOver c else s
  let x := s.cb c
  let left := (x.auditSel.filter fun e => e.1 == v).length
  let s : State := if left = 0 then s else s.bump (Reg.COMB_AUDIT.SKIPPED c) left
  s.setCb c { x with
    queue := x.queue.filter fun j => decide (j.line ≠ v)
    auditSel := x.auditSel.filter fun e => e.1 != v
    resident := x.resident.filter fun r => decide (r.1 ≠ v) }

/-- The combs at the end of line `v`: what is left of its jobs goes, and an audit that did not complete is skipped. -/
def State.endLineCombs (s : State) (v : Nat) : State :=
  (List.range 8).foldl (fun s c => (s.dropLineJobs c v).dropLineQueue c v) s

/-- A hogel held for want of its uniformity data is counted for its pier and in PORT_COUNT (07 R180). -/
def State.countUniLate (s : State) (p : Nat) : State :=
  ({ s with port := { s.port with uniLate := s.port.uniLate.modify (fun _ => 0) p (· + 1) } }).bump Reg.PORT_COUNT.UNI_LATE

/-- JOB_DEADLINE of a hogel of the line in progress: a job that has not written it is abandoned; a hogel without its
uniformity data is held (R112, 07 R180). -/
def State.jobDeadline (s : State) (p u : Nat) : State :=
  match s.deck.curLine with
  | some v =>
    if s.deck.dev ≠ .normal ∨ s.nt.now8 < s.deck.start8 + s.deadline8 p v u then s
    else
      (match (s.port.slots.get (fun _ => []) p).find? fun x => x.line == v && x.u == u with
      | none => s
      | some x =>
        if x.hold then s
        else
          let noUni := match x.uni with
            | some (some _) => false
            | _ => true
          let s : State := if noUni then s.countUniLate p else s
          if x.vals.isNone then
            (match s.combFor p with
            | some c => s.abandonJob c p v u
            | none => s.mapSlot p v u fun x => { x with hold := true })
          else if noUni then s.mapSlot p v u fun x => { x with hold := true }
          else s)
  | none => s

/-! Power and failure at the latch point (R124, R125). -/

/-- EV_COMB_POWER: 0 gated, 1 woken. -/
def State.setPower (s : State) (c p : Nat) : State :=
  let old := s.get (Reg.COMB_STATUS.POWER c)
  if old = p then s
  else
    let s := s.set (Reg.COMB_STATUS.POWER c) p
    if p = 0 then s.post 0x0506 sevInfo (p1 c ++ p1 0)
    else if p = 1 then s.post 0x0506 sevInfo (p1 c ++ p1 1) else s

/-- The failure of comb `c` (R125), which gates it (R124). -/
def State.combFails (s : State) (c cause : Nat) : State :=
  let s := ((s.setPower c 0).set (Reg.COMB_STATUS.POWER c) 3).setCb c { comb0 with lfsr := (s.cb c).lfsr }
  let s := (List.range 12).foldl (fun s k => s.setCell c k cell0) s
  let s : State := if s.combFailed (buddy c) then s.set (Reg.COMB_STATUS.SERVES_BUDDY (buddy c)) 0
    else s.set (Reg.COMB_STATUS.SERVES_BUDDY (buddy c)) 1
  let s := if s.sup.released then (s.set Reg.DECK_SHED_CFG.THROTTLE 1).set Reg.DECK_SHED_CFG.HOLDOFF 255 else s
  (s.set (Reg.COMB_STATUS.SERVES_BUDDY c) 0).post 0x0503 sevError (p1 c ++ p1 (buddy c) ++ p1 cause)

/-- The values of COMB_c_CTRL that apply at this latch point, the cells that CELL_OFF disables, and the failures. -/
def State.latchCells (s : State) (c : Nat) : State :=
  if s.combFailed c then s
  else
    let off := s.get (Reg.COMB_CTRL.CELL_OFF c)
    let old := s.get (Reg.COMB_STATUS.CELLS_OK c)
    let s := s.setCb c { s.cb c with forced := s.flag (Reg.COMB_CTRL.FORCE_OFF c)
                                     announced := (s.cb c).announced.filter (bit off) }
    let s := (bitsSet 12 off).foldl (fun s k => s.announceCell c k 2) s
    let ok := maskOf ((List.range 12).filter fun k => !(bit off k) && !(s.cell c k).progLost)
    let s := s.set (Reg.COMB_STATUS.CELLS_OK c) ok
    let s := if old = ok then s else (List.range 12).foldl (fun s k =>
      if bit old k && !(bit ok k) then s.cellDrop c k else s) s
    let cause := match (s.cb c).failNext with
      | some n => some n
      | none =>
        if popCount 12 off > 4 then some 0
        else if s.forcedOff c && s.flag (Reg.COMB_CTRL.FAILED_ACK c) then some 3 else none
    match cause with
    | some n => s.combFails c n
    | none => s

/-- The RAY-open time of a frame on comb `c`, in 1/8 ns. -/
def State.rayTime8 (s : State) (c : Nat) : Nat :=
  (s.raySegs (2 * c) 0 (s.deck.lines * s.deck.linePeriod * 8)).foldl (fun a w => a + (w.2 - w.1)) 0

/-- The statistics of comb `c` for the frame that ends: busy share, abandoned jobs and the greatest band (R126). -/
def State.combStats (s : State) (c : Nat) : State :=
  let x := s.cb c
  let t := s.rayTime8 c * max 1 (popCount 12 (s.get (Reg.COMB_STATUS.CELLS_OK c)))
  ((s.set (Reg.COMB_UTIL.BUSY c) (min 0xFFFF (x.busyNow * 65536 / max 1 t))).set (Reg.COMB_UTIL.ABANDONED c) x.abandoned).set
    (Reg.COMB_BAND_PEAK.BYTES c) x.peak

/-- Comb `c` starts the next frame with nothing fetched, queued or audited. -/
def State.combClear (s : State) (c : Nat) : State :=
  s.setCb c { s.cb c with
    busyNow := 0, abandoned := 0, overflowed := false, fetchLine := none, resident := [], queue := [], audit := none, auditSel := []
    lfsr := if (s.cb c).reseed then lfsrSeed (s.get Reg.COMB_AUDIT_SEED.SEED) c else (s.cb c).lfsr, reseed := false }

/-- Comb `c` at a latch point. -/
def State.latchComb (s : State) (c : Nat) : State := ((s.combStats c).combClear c).latchCells c

/-- The combs at a latch point: counts of the frame that ended, cells and failures, seeds, gating and waking for the next
frame, its band mode, and the audit selection of its line 0. -/
def State.latchCombs (s : State) : State :=
  (List.range 8).foldl (fun s c => s.latchComb c) s

/-- The greatest total band of a line of the next frame on comb `c`, over every layer that the frame starts with (R115, R117). -/
def State.bandPeak (s : State) (c : Nat) : Nat :=
  (List.range (s.ac Reg.DECK_LINES.LINES)).foldl (fun a v => max a (s.bandTotal c v (s.layersBut []))) 0

/-- Gating and waking for the next frame, and its band mode (R115, R124). -/
def State.gateCombs (s : State) : State :=
  (List.range 8).foldl (fun s c =>
    if s.combFailed c then s
    else
      let work := !(s.forcedOff c) && (s.served c).any fun p =>
        (List.range (s.geoNv p)).any fun v => (List.range (s.geoNh p)).any fun u => s.needsJob p v u
      let power := s.get (Reg.COMB_STATUS.POWER c)
      let s := if work then (if power = 0 then s.setPower c 1 else s) else s.setPower c 0
      let peak := if work then s.bandPeak c else 0
      let s := s.setCb c { s.cb c with peak := peak }
      (s.set (Reg.COMB_STATUS.GAPPED c) (ofBool (decide (1048576 < peak)))).selectAudit 0 c) s

/-- COMB_WAKE_DONE: the lost memories are cleared and the comb is on (R124). -/
def State.wakeDone (s : State) (c : Nat) : State :=
  if c < 8 ∧ s.get (Reg.COMB_STATUS.POWER c) = 1 then s.set (Reg.COMB_STATUS.POWER c) 2 else s

end Sys2Proof.Machine
end

