-- ==== Sys2Proof/Machine/Port.lean ====
section
/-! DEFINITION. The port stage (07 R167 to R187; 04 R99 to R103): the uniformity fetch, lanes with the residue check and the spare,
RAY packets, post-blend sets and CRC rectangles. -/

namespace Sys2Proof.Machine

/-! The order of hogels on a pier. -/

/-- The place of the next hogel that a lane hands over on pier `p`: line × 64 + u, of the line in progress or, in blanking,
of line 0 of the next frame, or one line ahead. A place past the end of a row stands for the next line. -/
def State.turn (s : State) (p : Nat) : Option (Nat × Nat) :=
  match s.issueLine with
  | none => none
  | some cur =>
    let at' := max (cur * 64) (s.port.doneU.get (fun _ => 0) p)
    let vu := if s.geoNh p ≤ at' % 64 then (at' / 64 + 1, 0) else (at' / 64, at' % 64)
    if vu.1 < s.geoNv p ∧ vu.1 < s.ac Reg.DECK_LINES.LINES ∧ vu.1 ≤ cur + 1 then some vu else none

/-- The number of the frame that a hogel handed over now belongs to. -/
def State.hogelFrame (s : State) : Nat := if s.deck.phase = .blank then s.deck.frameNum + 1 else s.deck.frameNum

/-- Does pier `p` carry hogels of that frame (08 R206)? -/
def State.carries (s : State) (p : Nat) : Bool :=
  decide (p < 512) && s.pierState p == 3 && decide ((s.pr p).firstF ≤ s.hogelFrame)

/-- Hogel (v, u) of pier `p` has been handed over: the next one has its turn. -/
def State.handed (s : State) (p v u : Nat) : State :=
  { s with port := { s.port with doneU := s.port.doneU.set (fun _ => 0) p (v * 64 + u + 1) } }

/-! Packets (08 R195). -/

/-- The INFO word of a RAY or RAY_HOLD packet. -/
def State.rayInfo (s : State) (p v u idx : Nat) (last : Bool) : Nat :=
  s.hogelFrame % 256 * 2 ^ 24 + s.ac (Reg.PORT_PIER_CFG.WIDTH p) * 2 ^ 18 + ofBool last * 2 ^ 17 + idx * 2 ^ 12 + v * 64 + u

/-- The bytes of a hogel from its output codes. -/
def State.hogelWire (s : State) (p : Nat) (codes : List Nat) : List Byte :=
  leBytes (s.hogelBytes p) (packBits (s.outWidth p) codes)

/-- The RAY packets of a hogel in PIDX order. -/
def State.rayPackets (s : State) (p v u : Nat) (key : Bool) (codes : List Nat) : List QPkt :=
  let bs := s.hogelWire p codes
  let n := s.hogelPackets p
  (List.range n).map fun i =>
    let last := decide (i + 1 = n)
    ⟨1, s.rayInfo p v u i last, slice bs (256 * i) 256, 0, none, 0, 0, false, v, u, last, key, 0⟩

/-- The hogel is sent as RAY_HOLD and counted (R170, 02 R54). -/
def State.sendHold (s : State) (p v u : Nat) : State :=
  let k : QPkt := ⟨2, s.rayInfo p v u 0 true, [], 0, none, 0, 0, false, v, u, true, false, 0⟩
  let s : State := { s with deck := { s.deck with rayHold := s.deck.rayHold.modify (fun _ => 0) p (· + 1) } }
  (s.handed p v u).offerPkts p 0 [k]

/-- A hogel held under R180: counted for the pier and in PORT_COUNT. -/
def State.uniHold (s : State) (p v u : Nat) : State :=
  (s.countUniLate p).sendHold p v u

/-! Lanes (R181). -/

/-- The lane that serves pier group `g`: 16 is the spare. -/
def State.laneOf (s : State) (g : Nat) : Nat := if s.get Reg.PORT_STATUS.SPARE_GROUP = g then 16 else g

/-- Has the group of pier `p` a lane? -/
def State.hasLane (s : State) (p : Nat) : Bool := !(s.port.noLane.contains (groupOf p))

/-- The lane of group `g` fails: the spare serves the group from the next latch point, unless it is taken or has failed. -/
def State.laneFails (s : State) (g : Nat) : State :=
  let lane := s.laneOf g
  let failed := s.get Reg.PORT_STATUS.LANE_FAILED
  if bit failed lane then s
  else
    let s := s.set Reg.PORT_STATUS.LANE_FAILED (setBit failed lane)
    let r : State × Nat :=
      if lane = 16 then
        ({ s with port := { s.port with spareNext := none, noLaneNext := dedup (s.port.noLaneNext ++ [g]) } }, 3)
      else if bit failed 16 then
        ({ s with port := { s.port with noLaneNext := dedup (s.port.noLaneNext ++ [g]) } }, 3)
      else if s.port.spareNext.isNone then ({ s with port := { s.port with spareNext := some g } }, 1)
      else ({ s with port := { s.port with noLaneNext := dedup (s.port.noLaneNext ++ [g]) } }, 2)
    r.1.post 0x0706 sevSafety (p1 lane ++ p1 (r.1.port.spareNext.getD 31) ++ p1 r.2)

/-- The spare and the groups without a lane at a latch point (R181, R423). -/
def State.latchLanes (s : State) : State :=
  let new := s.port.noLaneNext.filter fun g => !(s.port.noLane.contains g)
  let s : State := { s with port := { s.port with noLane := s.port.noLane ++ new } }
  let s := s.set Reg.PORT_STATUS.SPARE_GROUP (s.port.spareNext.getD 31)
  if new.isEmpty then s else s.setCause Reg.FS_CAUSE.LANE true

/-- A lane runs hogel (v, u) of pier `p`: a pass whose check fails is repeated once, and the lane fails with the retry (R181). The
answer gives the codes of the hogel, none when it is not to be sent. -/
def State.laneCheck (s : State) (p v u : Nat) (pass : LaneBad → Option (List Nat)) (f : LaneFault) : State × Option (List Nat) :=
  match pass f.first, pass f.retry with
  | some cs, _ => (s, some cs)
  | none, some cs =>
    ((s.bump Reg.PORT_COUNT.RESIDUE).post 0x0705 sevError (p1 (s.laneOf (groupOf p)) ++ p2 p ++ p1 u ++ p1 v), some cs)
  | none, none => (s.laneFails (groupOf p), none)

/-! Taps and codes (04 R99 to R102). -/


/-- Is rectangle `r` evaluated in frame `n` (R185)? -/
def Rect.active (r : Rect) (n : Nat) : Bool :=
  let per := max 1 (bits r.cfg 8 8)
  r.cfg % 4 != 0 && n % per == bits r.cfg 16 8 % per

/-- Does the window of a rectangle hold section hogel (x, y) (R184)? -/
def Rect.holds (r : Rect) (x y : Nat) : Bool :=
  decide (bits r.x 0 13 ≤ x) && decide (x ≤ bits r.x 16 13) && decide (bits r.y 0 13 ≤ y) && decide (y ≤ bits r.y 16 13)

/-- A rectangle that no write has changed. -/
def rect0 (r : Nat) : Rect :=
  ⟨0, 0, (resetWord (Reg.CRC_RECT_VIEW r)).toNat, (resetWord (Reg.CRC_RECT_CFG r)).toNat, 0, 0⟩

/-- The rectangles that the frame of the hogels handed over now evaluates. -/
def State.frameRects (s : State) : List (Nat × Rect) :=
  if s.port.rectsEn then
    ((List.range 64).map fun r => (r, s.port.rects.get rect0 r)).filter fun e => e.2.active s.hogelFrame
  else []

/-- The tap of hogel (u, v) of pier `p` is kept while a rectangle of the frame holds it; it outlasts a pier that leaves ACTIVE later in
the frame (log 109). -/
def State.keepTap (s : State) (p v u : Nat) (key : Bool) (vals : List Nat) : State :=
  let xy := sectionHogel p u v
  if s.frameRects.any fun e => e.2.holds xy.1 xy.2 then
    { s with port := { s.port with tap := s.port.tap.set noTap (tapKey xy) (some ⟨key, s.geoH p, vals⟩) } }
  else s

/-- The gain of component `i` of a hogel (R100, R178): neutral without a coefficient record. -/
def State.gainOf (s : State) (rec : List Byte) (base i : Nat) : Nat :=
  if rec.isEmpty then 32768
  else
    let b := (rec.getD (i / 2) 0).toNat
    uniGain base (if i % 2 = 0 then b % 16 else b / 16) (s.ac Reg.PORT_UNI_STEP.STEP)

/-- A pass of a lane over a composite hogel (R100 to R102). -/
def State.compositePass (s : State) (p : Nat) (vals : List Nat) (rec : List Byte) (base : Nat) (b : LaneBad) : Option (List Nat) :=
  s.lanePass (s.ac (Reg.PORT_PIER_CFG.SET p)) (s.outWidth p)
    ((vals.zip (List.range vals.length)).map fun e => (e.1, s.gainOf rec base e.2)) none b

/-- A pass of a lane over a hogel of the Keystone path with the tap `tap` of `idx`, whose gain is 32768 (R100, R182; 17 R419). -/
def State.keyPass (s : State) (p : Nat) (idx : Option (Nat × Nat)) (tap : List Nat) (b : LaneBad) : Option (List Nat) :=
  let w := s.ac (Reg.PORT_PIER_CFG.WIDTH p)
  let n := s.rays p
  s.lanePass (13 + w) (widthBits w) ((List.replicate n (tap.map fun t => (t, 32768))).flatten)
    (some (List.replicate n (s.tableCodes w idx)).flatten) b

/-! The uniformity fetch (R178 to R180). -/

/-- HBM addresses of the coefficient record and of the base gain of hogel (u, v) of pier `p`. -/
def State.uniAddr (s : State) (p v u : Nat) : Nat × Nat :=
  let i := v * s.geoNh p + u
  (s.ac Reg.PORT_UNI_COEF_BASE.ADDR * 256 + p * (s.ac Reg.PORT_UNI_STRIDE.STRIDE * 65536) + i * s.crec p,
   s.ac Reg.PORT_UNI_GAIN_BASE.ADDR * 256 + p * 8192 + i * 2)

/-- UNI_FETCH_DONE: the oldest outstanding fetch of pier `p` for hogel `u` completes; `f` is what its first read finds. -/
def State.uniFetch (s : State) (p u : Nat) (f : HbmFind) : State := s.hbmFor fun s =>
  match (s.port.slots.get (fun _ => []) p).find? fun x => x.u == u && x.uni.isNone with
  | none => s
  | some x =>
    if s.deck.dev = .safeHalt then s
    else
      let a := s.uniAddr p x.line u
      let s := (s.hbmAsk 1 a.1 (s.crec p) f).hbmTouch 1 a.2 2
      let r := match s.hbmRead a.1 (s.crec p), s.hbmRead a.2 2 with
        | some c, some g => some (c, leNat g)
        | _, _ => none
      s.mapSlot p x.line u fun y => if y.uni.isNone then { y with uni := some r } else y

/-! Processing (R167 to R170). -/

/-- Is hogel (v, u) of pier `p` supplied by the Keystone path (R169)? -/
def State.keyPath (s : State) (p v u : Nat) : Bool :=
  match s.deck.dev with
  | .keystoneOnly => true
  | .normal => (s.hogelKey p u v).isSome
  | _ => false

/-- Must an uncovered hogel be sent as RAY_HOLD without a job: in HOLD, without a lane, or without a comb to serve it (R169,
R181; 05 R125)? -/
def State.holdsWithoutJob (s : State) (p : Nat) : Bool :=
  decide (s.deck.dev = .hold) || !(s.hasLane p) ||
    (match s.combFor p with
    | some c => s.forcedOff c
    | none => true)

/-- HOGEL_PROCESS: the lane of pier `p` runs the hogel whose turn it is, once its job and fetch are complete, or sends it as
RAY_HOLD. -/
def State.hogelProcess (s : State) (p : Nat) (ecc : Option Nat) (f : LaneFault) : State :=
  match s.turn p with
  | none => s
  | some (v, u) =>
    if s.carries p = false ∨ s.deck.dev = .safeHalt ∨ s.keyPath p v u = true then s
    else if s.holdsWithoutJob p then s.sendHold p v u
    else match (s.port.slots.get (fun _ => []) p).find? fun x => x.line == v && x.u == u with
      | none => s
      | some x =>
        if x.hold then s.sendHold p v u
        else match x.vals, x.uni with
          | some _, some none => s.uniHold p v u
          | some vals, some (some (rec, base)) =>
            let s := s.laneEcc p u v ecc
            let r := s.laneCheck p v u (s.compositePass p vals rec base) f
            (match r.2 with
            | some codes =>
              ((r.1.keepTap p v u false vals).handed p v u).offerPkts p 0 (r.1.rayPackets p v u false codes)
            | none => r.1.sendHold p v u)
          | _, _ => s

/-- KEYSTONE_HOGEL_GEN: the lane of pier `p` generates the hogel whose turn it is from the Keystone store; `ecc` names a page whose word it
finds uncorrectable. The hogels of such a word have index 0: black in KEYSTONE_ONLY, and in NORMAL, where no cell has computed them,
RAY_HOLD (R169, R177, R182; log 25). -/
def State.keystoneHogel (s : State) (p : Nat) (ecc : Option Nat) (f : LaneFault) : State :=
  match s.turn p with
  | none => s
  | some (v, u) =>
    if s.carries p = false ∨ s.deck.dev = .safeHalt ∨ s.keyPath p v u = false then s
    else if s.hasLane p = false then s.sendHold p v u
    else
      let s := s.laneEcc p u v ecc
      let idx := s.laneKey p u v
      if idx.isNone ∧ s.deck.dev ≠ .keystoneOnly then s.sendHold p v u
      else
        let tap := match idx with
          | some e => s.keyColour e
          | none => [0, 0, 0]
        let r := s.laneCheck p v u (s.keyPass p idx tap) f
        match r.2 with
        | some codes =>
          ((r.1.keepTap p v u idx.isSome (List.replicate (s.rays p) tap).flatten).handed p v u).offerPkts p 0
            (r.1.rayPackets p v u true codes)
        | none => r.1.sendHold p v u

/-- PACKET_SENT: the transmission ends, and a slot it frees takes the next job (05 R110). -/
def State.packetSent (s : State) (p : Nat) : State :=
  match (s.vp p).tx with
  | none => s
  | some (_, k) =>
    if s.deck.dev = .safeHalt ∨ s.nt.now8 < (s.vp p).txEnd8 then s
    else
      let s := s.txEnd p
      if (k.ptype = 1 ∨ k.ptype = 2) ∧ k.last = true then s.bandJobIssue p else s

/-- BAND_RESIDENT: as `State.bandResident`; `f` is what the comb's first read of the rows finds. -/
def State.bandArrives (s : State) (c n : Nat) (f : HbmFind) : State := s.hbmFor fun s =>
  if 7 < c ∨ s.deck.dev = .safeHalt then s
  else match (s.cb c).fetchLine with
    | none => s
    | some v =>
      if s.nextBand c v ≠ some n then s
      else match s.bandSpans c v n with
        | [] => s.bandResident c n
        | x :: xs => (xs.foldl (fun s y => s.hbmTouch 0 y.1 y.2) (s.hbmAsk 0 x.1 x.2 f)).bandResident c n

/-! Post-blend sets (R182, R183). -/

/-- A START ends at once. -/
def State.plutEnd (s : State) (err : Nat) : State := (s.set Reg.PORT_LUT_STATUS.ERR err).set Reg.PORT_LUT_STATUS.DONE 1

/-- PLUT_LOAD_START: a supervisor write of PORT_LUT_LOAD with START. -/
def State.plutStart (s : State) (bySup : Bool) (v : Word) : State :=
  let set := fieldOf v Reg.PORT_LUT_LOAD.SET
  if bySup = false ∨ fieldOf v Reg.PORT_LUT_LOAD.START = 0 then s
  else if 12 < set then s.plutEnd 3
  else if s.port.load.isSome then s.plutEnd 2
  else { s with port := { s.port with
      load := some ⟨0, set, s.get Reg.PORT_LUT_SRC.ADDR * 256, s.get Reg.PORT_LUT_CRC.CRC⟩ } }.set Reg.PORT_LUT_STATUS.BUSY 1

/-- The bytes of a post-blend set: three tables of 1,025 values of 16 bits (R183). -/
def plutBytes : Nat := 6150

/-- No set load runs any more. -/
def State.plutIdle (s : State) : State :=
  { s with port := { s.port with load := none } }.set Reg.PORT_LUT_STATUS.BUSY 0

/-- A set load fails: EV_PLUT_LOAD_FAILED. -/
def State.plutFail (s : State) (slot err : Nat) : State := (s.plutEnd err).post 0x0709 sevWarn (p1 slot ++ p1 err)

/-- A loaded set waits for its swap. -/
def State.plutTake (s : State) (slot : Nat) (bs : List Byte) : State :=
  let s : State := { s with port := { s.port with
    plutNext := (slot, leValues 2 3075 bs) :: s.port.plutNext.filter fun e => e.1 != slot } }
  (s.set Reg.PORT_LUT_LOADED.LOADED (setBit (s.get Reg.PORT_LUT_LOADED.LOADED) slot)).plutEnd 0

/-- PLUT_LOAD_DONE: the running load ends after its CRC check; `f` is what its first read finds. -/
def State.plutDone (s : State) (f : HbmFind) : State := s.hbmFor fun s =>
  match s.port.load with
  | none => s
  | some l =>
    if s.deck.dev = .safeHalt then s
    else
      let s := (s.hbmAsk 5 l.src plutBytes f).plutIdle
      match s.hbmRead l.src plutBytes with
      | none => s.plutFail l.slot 4
      | some bs => if crc32c bs ≠ l.crc then s.plutFail l.slot 1 else s.plutTake l.slot bs

/-- The standby copies become active at a latch point, with EV_PLUT_LOADED. -/
def State.latchPlut (s : State) : State :=
  let next := s.port.plutNext
  let s : State := { s with port := { s.port with
    plut := next.foldl (fun t e => t.setMany (fun _ => 0) (e.1 * 3075) e.2) s.port.plut, plutNext := [] } }
  next.reverse.foldl (fun s e => s.post 0x0708 sevInfo (p1 e.1)) s

/-! CRC rectangles (R184 to R187). -/

/-- The words of rectangle `r` as they stand in the registers. -/
def State.rectWords (s : State) (r : Nat) : Rect :=
  ⟨(s.rd (Reg.CRC_RECT_X r)).toNat, (s.rd (Reg.CRC_RECT_Y r)).toNat, (s.rd (Reg.CRC_RECT_VIEW r)).toNat,
   (s.rd (Reg.CRC_RECT_CFG r)).toNat, (s.rd (Reg.CRC_RECT_EXP r)).toNat, (s.rd (Reg.CRC_RECT_EXP_SEQ r)).toNat⟩

/-- The reference of a rectangle is cleared, after the comparison of the frame that ended if that is still to come (R185). -/
def State.clearRef (s : State) (r : Nat) : State :=
  if s.port.prevRects.any fun e => e.1 == r then
    { s with port := { s.port with clearRefs := r :: s.port.clearRefs } }
  else { s with port := { s.port with rectRef := s.port.rectRef.set (fun _ => none) r none } }

/-- Register writes take effect: a changed configuration clears the reference. -/
def State.takeRects (s : State) : State :=
  let s := (List.range 64).foldl (fun s r =>
    let w := s.rectWords r
    if w = s.port.rects.get rect0 r then s
    else ({ s with port := { s.port with rects := s.port.rects.set rect0 r w } }).clearRef r) s
  { s with port := { s.port with rectsEn := s.flag Reg.CRC_CTRL.EN } }

/-- The section hogels of tiles in a rectangle, in ascending row and column. -/
def State.rectHogels (s : State) (r : Rect) : List (Nat × Nat) :=
  let cols := (List.range (bits r.x 16 13 + 1)).drop (bits r.x 0 13)
  let rows := (List.range (bits r.y 16 13 + 1)).drop (bits r.y 0 13)
  rows.flatMap fun y => (cols.filter fun x => s.tiles.any fun p =>
    decide (Config.tileX p ≤ x) && decide (x < Config.tileX p + s.geoNh p)
      && decide (Config.tileY p ≤ y) && decide (y < Config.tileY p + s.geoNv p)).map fun x => (x, y)

/-- The bytes of a hogel in the CRC: its rays of the view window, j outer and i inner (R103). -/
def tapBytes (r : Rect) (t : Tap) : List Byte :=
  let n := t.vals.length / 3
  (List.range n).flatMap fun k =>
    let i := k % max 1 t.h
    let j := k / max 1 t.h
    if bits r.view 0 8 ≤ i ∧ i ≤ bits r.view 8 8 ∧ bits r.view 16 3 ≤ j ∧ j ≤ bits r.view 24 3 then
      (slice' t.vals (3 * k)).flatMap (leBytes 2)
    else []
where
  /-- Three values from place `o`. -/
  slice' (l : List Nat) (o : Nat) : List Nat := (l.drop o).take 3

/-- The reason for which the evaluation of a rectangle is skipped, 0 for none (R186). -/
def State.skipReason (s : State) (r : Rect) (taps : List (Option Tap)) : Nat :=
  let mode := r.cfg % 4
  let free := taps.all (fun t => t.any (·.key)) || decide (s.port.prevState = .keystoneOnly)
  if taps.any (·.isNone) then 1
  else if mode ≠ 1 ∧ s.port.prevUnder = true ∧ free = false then 2
  else if mode = 2 ∧ s.port.prevShed = true ∧ free = false then 3
  else if mode = 2 ∧ r.seq % 65536 ≠ 0 ∧ r.seq % 65536 ≠ s.port.prevSeq then 4
  else 0

/-- CRC_RECTr_RESULT (R189). -/
def State.rectResult (s : State) (r result reason : Nat) : State :=
  s.wr (Reg.CRC_RECT_RESULT r) (word (result * 2 ^ 29 + reason * 2 ^ 24 + s.port.prevFrame % 2 ^ 24))

/-- A comparison of rectangle `r`: 1 match or 2 mismatch, with EV_CRC_MISMATCH and the cause RECT (R187). -/
def State.rectCompare (s : State) (r : Nat) (w : Rect) (value expected : Nat) : State :=
  if value = expected then
    { s with fs := { s.fs with rectBad := s.fs.rectBad.filter (· != r) } }.rectResult r 1 0
  else
    let s : State := { s with fs := { s.fs with rectBad := dedup (s.fs.rectBad ++ [r]) } }
    let s := (s.rectResult r 2 0).bump Reg.CRC_COUNT.MISMATCH
    let safety := bit w.cfg 31
    let s := s.post 0x070A (if safety then sevSafety else sevError) (p1 r ++ p4 value ++ p4 expected)
    if safety then s.setCause Reg.FS_CAUSE.RECT true else s

/-- The evaluation of rectangle `r` of the frame that ended (R185, R186). -/
def State.rectEvaluate (s : State) (r : Nat) (w : Rect) : State :=
  let taps := (s.rectHogels w).map fun e => s.port.prevTap.get noTap (tapKey e)
  let value := crc32c (taps.flatMap fun t => (t.map (tapBytes w)).getD [])
  let reason := s.skipReason w taps
  let ref := s.port.rectRef.get (fun _ => none) r
  let keep := fun (s : State) (v : Option Nat) =>
    { s with port := { s.port with rectRef := s.port.rectRef.set (fun _ => none) r (if s.port.clearRefs.contains r then none else v) } }
  let s : State := if reason = 1 then s else s.wr (Reg.CRC_RECT_VALUE r) (word value)
  if reason ≠ 0 then (keep ((s.rectResult r 4 reason).bump Reg.CRC_COUNT.SKIPPED) none)
  else match w.cfg % 4 with
    | 1 => { s with fs := { s.fs with rectBad := s.fs.rectBad.filter (· != r) } }.rectResult r 3 0
    | 2 => s.rectCompare r w value w.exp
    | _ => match ref with
      | none => keep ({ s with fs := { s.fs with rectBad := s.fs.rectBad.filter (· != r) } }.rectResult r 3 0) (some value)
      | some v => keep (s.rectCompare r w value v) (some value)

/-- CRC_RECT_EVAL: the result of rectangle `r` for the frame that ended is recorded. -/
def State.rectEval (s : State) (r : Nat) : State :=
  match s.port.prevRects.find? fun e => e.1 == r with
  | none => s
  | some e =>
    if s.deck.dev = .safeHalt then s
    else
      let s := s.rectEvaluate r e.2
      { s with port := { s.port with
          prevRects := s.port.prevRects.filter fun x => x.1 != r, clearRefs := s.port.clearRefs.filter (· != r) } }

/-- The frame that ends hands its rectangles, taps and context to the evaluation; what an earlier frame left is evaluated. -/
def State.closeRects (s : State) : State :=
  let s := s.port.prevRects.foldl (fun s e => s.rectEval e.1) s
  let n := s.deck.frameNum
  let rs := if s.port.rectsEn then
      ((List.range 64).map fun r => (r, s.port.rects.get rect0 r)).filter fun e => e.2.active n
    else []
  { s with port := { s.port with
      prevRects := rs, prevTap := s.port.tap, tap := [], clearRefs := [], prevFrame := n
      prevUnder := !s.deck.underrun.isEmpty, prevShed := s.get Reg.DECK_SHED_STATUS.SHED != 0
      prevSeq := s.get Reg.DECK_COMMIT_SEQ.ACTIVE, prevState := s.deck.dev } }

/-! The latch point. -/

/-- EV_UNI_LATE and EV_RAY_HOLD of the frame that ends (R180, 02 R54). -/
def State.postHeld (s : State) : State :=
  let s := s.port.uniLate.foldl (fun s e => s.post 0x0707 sevWarn (p2 e.1 ++ c2 e.2)) s
  let s := s.deck.rayHold.foldl (fun s e => s.post 0x0206 sevWarn (p2 e.1 ++ c2 e.2)) s
  { s with port := { s.port with uniLate := [] } }

/-- The port stage for the next frame: lanes, sets, slots, and the leads shown (R168). `applied` tells whether a commit has been
applied. -/
def State.latchPort (s : State) (applied : Bool) : State :=
  let s := s.latchLanes.latchPlut
  let s : State := if applied then (List.range 64).foldl (fun s r => s.clearRef r) s else s
  let s := s.takeRects
  let s : State := { s with port := { s.port with slots := [], nextU := [], doneU := [] } }
  s.tiles.foldl (fun s p => s.set (Reg.PORT_PIER_STATUS.SLOTS p) (s.effLead p)) s

end Sys2Proof.Machine
end

