-- ==== Sys2Proof/Machine/Thermal.lean ====
section
/-! DEFINITION. Temperature, calibration and power (14 R335 to R361): the two channels of the diode, limits and throttle level, the
trip, field runs with their judgement and store, the rails, AVS and PMBus. Temperatures are in 1/64 °C. -/

namespace Sys2Proof.Machine

/-! The thermal monitor (R335 to R344). -/

/-- The code of a sensor failure that a sample shows, 0 for none (R337). -/
def sensorCode (a b : Int) (stuckA stuckB : Bool) : Nat :=
  if 150 * 64 < a ∨ 150 * 64 < b then 1
  else if a < -60 * 64 ∨ b < -60 * 64 then 2
  else if stuckA then 3 else if stuckB then 4
  else if 192 < (a - b).natAbs then 5 else 0

/-- A limit in 1/64 °C. -/
def State.limit (s : State) (f : Field) : Int := signed 8 (s.get f) * 64

/-- A limit's state after a sample: reached, cleared below the hysteresis, or as before (R338). -/
def State.limitState (s : State) (f : Field) (old : Bool) : Bool :=
  if s.limit f ≤ s.tj then true
  else if s.tj < s.limit f - (max 1 (s.get Reg.THM_CFG.HYST) : Nat) * 64 then false else old

/-- Is Tj within 5 °C of a limit, or above one (R336)? -/
def State.nearLimit (s : State) : Bool :=
  [Reg.THM_LIMITS.WARN, Reg.THM_LIMITS.THROTTLE, Reg.THM_LIMITS.CRITICAL].any fun f => decide (s.limit f - 320 ≤ s.tj)

/-- A sensor failure is latched with its event. -/
def State.thmSensor (s : State) (a b : Int) (stuckA stuckB : Bool) : State :=
  let c := sensorCode a b stuckA stuckB
  if s.thm.sensor ≠ 0 ∨ c = 0 then s
  else
    ({ s with thm := { s.thm with sensor := c } }.set Reg.THM_STATUS.SENSOR c).post 0x0E04 sevSafety
      (p1 c ++ p2 (unsignedOf 16 a) ++ p2 (unsignedOf 16 b))

/-- The three limits, with EV_THM_WARN and EV_THM_CRITICAL. -/
def State.thmLimits (s : State) : State :=
  let w := s.limitState Reg.THM_LIMITS.WARN s.thm.warn
  let t := s.limitState Reg.THM_LIMITS.THROTTLE s.thm.throttle
  let c := s.limitState Reg.THM_LIMITS.CRITICAL s.thm.critical
  let tj := p2 (unsignedOf 16 s.tj)
  let s : State := if w = s.thm.warn then s else s.post 0x0E01 sevWarn (tj ++ pb (!w))
  let s : State := if c = s.thm.critical then s
    else s.post 0x0E03 sevSafety (tj ++ pb (!c) ++ pb (decide (s.key.active ≠ 0)))
  let s := (s.set Reg.THM_STATUS.WARN (ofBool w)).set Reg.THM_STATUS.THROTTLE (ofBool t)
  { s with thm := { s.thm with warn := w, throttle := t, critical := c } }.set Reg.THM_STATUS.CRITICAL (ofBool c)

/-- Fast sampling begins and ends (R336). -/
def State.thmFast (s : State) : State :=
  if s.nearLimit then
    { s with thm := { s.thm with calmAt := s.isl, fastN := if s.flag Reg.THM_STATUS.FAST then s.thm.fastN else 0 } }.set
      Reg.THM_STATUS.FAST 1
  else if s.thm.calmAt + 800000000 ≤ s.isl then s.set Reg.THM_STATUS.FAST 0
  else s

/-- The slope over the last five samples, in 64 × 25ths of 0.125 °C/s. -/
def slopeOf (h : List Int) : Int := h.getD 4 0 - h.getD 0 0

/-- The rate-of-rise check on samples 10 ms apart (R339). -/
def State.thmRise (s : State) : State :=
  let fast := s.flag Reg.THM_STATUS.FAST
  let s : State := { s with thm := { s.thm with fastN := s.thm.fastN + 1 } }
  if fast = true ∧ s.thm.fastN % 10 ≠ 0 then s
  else
    let h := (s.thm.hist ++ [s.tj]).drop (s.thm.hist.length + 1 - 5)
    let s : State := { s with thm := { s.thm with hist := h } }
    if h.length < 5 then s
    else
      let lim : Int := max 1 (s.get Reg.THM_CFG.RISE)
      if lim * 8 < slopeOf h * 25 then
        let n := s.thm.riseRun + 1
        let s : State := { s with thm := { s.thm with riseRun := n } }
        if n < 3 then s
        else
          let s' := s.set Reg.THM_STATUS.RISE 1
          if s.flag Reg.THM_STATUS.RISE then s'
          else s'.postOncePer oneSecond 0x0E05 0x0E05 sevWarn
            (p2 (unsignedOf 16 (Int.fdiv (slopeOf h * 25) 8)) ++ p2 (unsignedOf 16 s.tj))
      else { s with thm := { s.thm with riseRun := 0 } }.set Reg.THM_STATUS.RISE 0

/-- The thermal level (R340). -/
def State.thmLevel (s : State) : State :=
  let rise := s.flag Reg.THM_STATUS.RISE
  let t := s.thm
  let put := fun n : Nat => { s with thm := { t with lt := n, ltAt := if n = t.lt then t.ltAt else s.isl } }
  let mayRise := match t.upAt with
    | none => true
    | some u => decide (u + max 1 (s.get Reg.THM_CFG.UP) * 80000000 ≤ s.isl)
  if t.sensor ≠ 0 ∨ t.critical = true then put 7
  else if t.throttle = true ∨ (rise = true ∧ t.warn = true) then
    (if mayRise = true ∧ t.lt < 7 then
      { s with thm := { t with lt := t.lt + 1, ltAt := s.isl, upAt := some s.isl } }
    else s)
  else if rise = false ∧ t.ltAt + max 1 (s.get Reg.THM_CFG.DOWN) * 800000000 ≤ s.isl then put (t.lt - 1)
  else s

/-- The throttle level in effect, with EV_THM_THROTTLE (R340). -/
def State.thmThrottle (s : State) : State :=
  let f := s.get Reg.THM_THROTTLE.FORCE
  let old := s.get Reg.THM_THROTTLE.LEVEL
  let new := max s.thm.lt f
  let cause := if new = 0 then 0 else if s.thm.lt < f then 3
    else if s.thm.sensor ≠ 0 ∨ s.thm.critical = true then 2 else 1
  let s := (s.set Reg.THM_THROTTLE.LEVEL new).set Reg.THM_THROTTLE.CAUSE cause |>.set Reg.COMB_THROTTLE.LEVEL new
  if new = old then s else s.post 0x0E02 sevWarn (p1 old ++ p1 new ++ p1 cause)

/-- THERM_TRIP_N (R342, R343), with the cause THERMAL. When Keystone is not active, the supervisor sheds all layers and waits for a
power-down, which only an active Keystone calls off. -/
def State.thmTrip (s : State) : State :=
  let on := decide (s.thm.sensor ≠ 0) || s.thm.critical
  if on = s.fs.thermTrip then s
  else
    let alone := on && decide (s.key.active = 0)
    let s : State := { s with
      fs := { s.fs with thermTrip := on }
      deck := { s.deck with thmCause := s.deck.thmCause && on }
      thm := { s.thm with tripAt := if alone then some s.isl else s.thm.tripAt } }
    let s := if alone && s.sup.released then s.set Reg.DECK_SHED_CFG.FORCE_ALL 1 else s
    ((s.set Reg.THM_STATUS.TRIP (ofBool on)).emit (.pin "THERM_TRIP_N" (!on))).setCause Reg.FS_CAUSE.THERMAL on

/-- CAL_STATUS.STATE. -/
def State.calState (s : State) : Nat := s.get Reg.CAL_STATUS.STATE

/-- Has the time of the next sample come: 10 ms after the last, 1 ms in fast sampling (R336)? -/
def State.samplePace (s : State) : Bool :=
  match s.thm.sampleAt with
  | none => true
  | some u => decide (u + (if s.flag Reg.THM_STATUS.FAST then 8000000 else 80000000) ≤ s.isl)

/-- Has Tj moved from Tm by more than CAL_CFG.STEP (R349)? -/
def State.calWarm (s : State) : Bool :=
  decide (max 1 (min 16 (s.get Reg.CAL_CFG.STEP)) * 64 < (s.tj - (s.cal.field.map (·.tm)).getD 0).natAbs)

/-- A sample that finds Tj moved by more than CAL_CFG.STEP makes a field run due; while one is in progress the trigger is merged into
it (R349). -/
def State.calSample (s : State) : State :=
  if s.calState < 2 ∧ s.cal.lastAt.isSome = true ∧ s.cal.due = none ∧ s.calWarm = true then
    { s with cal := { s.cal with due := some 1 } }
  else s

/-- THM_SAMPLE: both channels convert (`rawA`, `rawB`); `stuckA` and `stuckB` tell that a test current was answered by more than 10 %
off. A command before the next sample is due does nothing (R336). -/
def State.thmSample (s : State) (rawA rawB : Int) (stuckA stuckB : Bool) : State :=
  if s.deck.dev = .safeHalt ∨ s.samplePace = false then s
  else
    let s : State := { s with thm := { s.thm with sampleAt := some s.isl } }
    let a := rawA - s.calValue qOffA
    let b := rawB - s.calValue qOffB
    let s := (s.set Reg.THM_TEMP.CH_A (unsignedOf 16 a)).set Reg.THM_TEMP.CH_B (unsignedOf 16 b)
    let s := (s.set Reg.THM_TJ.TJ (unsignedOf 16 (Int.fdiv (a + b) 2))).warmTriggers.calSample
    let s := (s.thmSensor a b stuckA stuckB).thmLimits.thmRise.thmFast.thmLevel.thmTrip.thmThrottle
    if s.thm.sensor = 0 ∧ 128 * 64 ≤ s.tj then s.safeHalt [] 6 7 else s

/-- THM_LIMITS_WRITE (R338). -/
def State.thmLimitsWrite (s : State) (bySup : Bool) (v : Word) : State :=
  let w := signed 8 (fieldOf v Reg.THM_LIMITS.WARN)
  let t := signed 8 (fieldOf v Reg.THM_LIMITS.THROTTLE)
  let c := signed 8 (fieldOf v Reg.THM_LIMITS.CRITICAL)
  if bySup = true ∧ w ≤ t ∧ t ≤ c ∧ c ≤ 115 then
    ((s.set Reg.THM_LIMITS.WARN (fieldOf v Reg.THM_LIMITS.WARN)).set Reg.THM_LIMITS.THROTTLE
      (fieldOf v Reg.THM_LIMITS.THROTTLE)).set Reg.THM_LIMITS.CRITICAL (fieldOf v Reg.THM_LIMITS.CRITICAL)
  else s

/-- THM_FORCE_WRITE (R340). -/
def State.thmForce (s : State) (bySup : Bool) (v : Word) : State :=
  if bySup then (s.set Reg.THM_THROTTLE.FORCE (fieldOf v Reg.THM_THROTTLE.FORCE)).thmThrottle else s

/-- After each latch point the supervisor reads the ABANDONED count of the buddy of every failed comb, and forces level 1 or 0 by it
(15 R365). -/
def State.buddyWatch (s : State) : State :=
  let failed := (List.range 8).filter fun c => s.get (Reg.COMB_STATUS.POWER c) == 3
  if failed = [] ∨ s.sup.released = false then s
  else
    let n := failed.any fun c => s.get (Reg.COMB_UTIL.ABANDONED (Nat.xor c 1)) != 0
    (s.set Reg.THM_THROTTLE.FORCE (ofBool n)).thmThrottle

/-! Calibration (R349 to R353). -/


/-- CAL_STATUS.VALID, ANCHORS_OK and the slots (R352). -/
def State.calShow (s : State) : State :=
  let a := Config.anchorSlot s.anchorMram
  let ok := a.isSome && s.cal.field.isSome && s.cal.lastOk && !s.cal.quadBad
  let s := (s.set Reg.CAL_STATUS.VALID (ofBool ok)).set Reg.CAL_STATUS.ANCHORS_OK (ofBool a.isSome)
  (s.set Reg.CAL_STATUS.FIELD_SLOT (ofBool s.cal.newer1)).set Reg.CAL_STATUS.ANCHOR_SLOT (ofBool (a.getD false))

/-- CAL_LAST and CAL_COUNT.RUNS follow the field record in force; D is taken from it (R353). -/
def State.calLoad (s : State) : State :=
  match s.cal.field with
  | none => { s with cal := { s.cal with d := [] } }.calShow
  | some r =>
    let s : State := { s with cal := { s.cal with d := r.d } }
    let s := (s.set Reg.CAL_COUNT.RUNS r.runs).wr Reg.CAL_LAST (word r.nt)
    (s.wr (Reg.CAL_LAST + 4) (word (r.nt / 2 ^ 32 % 2 ^ 16 + unsignedOf 16 r.tm * 2 ^ 16))).calShow

/-- CAL_REQ: the supervisor writes CAL_CFG; REQ makes a run due, or is merged into the one in progress (R349). -/
def State.calReq (s : State) (bySup : Bool) (v : Word) : State :=
  if bySup = false then s
  else
    let s := ((s.set Reg.CAL_CFG.PERIOD (fieldOf v Reg.CAL_CFG.PERIOD)).set Reg.CAL_CFG.MIN_INTERVAL
      (fieldOf v Reg.CAL_CFG.MIN_INTERVAL)).set Reg.CAL_CFG.STEP (fieldOf v Reg.CAL_CFG.STEP)
    if bit v.toNat 31 = true ∧ s.calState < 2 then
      { s with cal := { s.cal with due := some (s.cal.due.getD 3) } }.set Reg.CAL_STATUS.STATE
        (if s.clk.state = AdpllState.locked then 0 else 1)
    else s

/-- The trigger of a due run: 0 first lock, 1 temperature, 2 period, 3 request (R349). -/
def State.calTrigger (s : State) : Option Nat :=
  let per := s.get Reg.CAL_CFG.PERIOD
  match s.cal.lastAt with
  | none => some (s.cal.due.getD 0)
  | some t =>
    if s.cal.due.isSome then s.cal.due
    else if s.calWarm then some 1
    else if per ≠ 0 ∧ t + per * 3600 * oneSecond ≤ s.isl then some 2
    else none

/-- The piers that a pass is to measure and has not: in LINKUP, DISCOVER, ACTIVE or MISMATCH (R351). -/
def State.calOpen (s : State) : List Nat :=
  s.tiles.filter fun p => decide (1 ≤ s.pierState p) && decide (s.pierState p ≤ 4)
    && !(s.cal.done.contains p) && !(s.cal.reject.contains p)

/-- A pass is over once no pier is left: the interval follows pass 1 (R350). -/
def State.calPass (s : State) : State :=
  if s.calState = 3 ∧ s.calOpen = [] then
    { s with cal := { s.cal with gapAt := s.isl } }.set Reg.CAL_STATUS.STATE 4
  else s

/-- CAL_RUN_START: a due run starts; `ms` are the measurements of the TDC LSB, the medium step and the converter offsets of A and
B, each twice (R350). -/
def State.calStart (s : State) (ms : List (Int × Int)) : State :=
  match s.calTrigger with
  | none => s
  | some tr =>
    let early := match s.cal.lastAt with
      | some t => decide (s.isl < t + max 1 (s.get Reg.CAL_CFG.MIN_INTERVAL) * oneSecond)
      | none => false
    if 2 ≤ s.calState ∨ s.deck.dev = .safeHalt ∨ early = true then s
    else if s.clk.state ≠ .locked then s.set Reg.CAL_STATUS.STATE 1
    else
      let m := fun i => ms.getD i (0, 0)
      let put := fun (f : Int × Int → Int) => [0, 1, 2, 3].foldl (fun (t : Table (Option Int)) i =>
        t.set (fun _ => none) (qTdc + i) (some (f (m i)))) []
      let s : State := { s with cal := { s.cal with
        m1 := put Prod.fst, m2 := put Prod.snd, due := none, trigger := tr, startAt := some s.isl, lastAt := some s.isl
        runTj := s.tj, done := [], tries := [], cut := [], reject := [], store := none } }
      (s.set Reg.CAL_STATUS.STATE 3).calPass

/-- Has pier `p` just had an interval in which it may be measured: forward for 40 µs, while the Deck runs after the FLIP of the frame and
10 µs or more before the next start (R351)? -/
def State.calFree (s : State) (p : Nat) : Bool :=
  let x := s.pr p
  x.win.isNone && decide (x.fwdAt + 320000 ≤ s.nt.now8) && (!s.deckRunning ||
    (decide (s.deck.phase = .blank) && !x.flipDue && match s.deck.nextK with
      | some j => decide (80000 ≤ 8 * diff48 (s.schedS j) s.nt48)
      | none => true))

/-- CAL_PIER_MEASURE: pier `p` has been measured in an interval (its output path and 47 settings), or for `none` a reverse window has cut
its measurement, which waits for the next frame (R351). -/
def State.calPier (s : State) (p : Nat) (vals : Option (List Int)) : State :=
  let st := s.calState
  if (st ≠ 3 ∧ st ≠ 5) ∨ s.calOpen.contains p = false ∨ s.cal.cut.contains p = true ∨ s.deck.dev = .safeHalt then s
  else
    let s : State := match vals with
      | none => if s.deckRunning then { s with cal := { s.cal with cut := p :: s.cal.cut } } else s
      | some l =>
        if s.calFree p = false then s else
        let l := ((List.range 48).map fun i => some (l.getD i 0))
        { s with cal := { s.cal with
            done := s.cal.done ++ [p]
            m1 := if st = 3 then s.cal.m1.setMany (fun _ => none) (48 * p) l else s.cal.m1
            m2 := if st = 5 then s.cal.m2.setMany (fun _ => none) (48 * p) l else s.cal.m2 } }
    s.calPass

/-- A latch point in a pass: the measurements that a window has cut may start again, and a pier that 8 frames have left unmeasured is
rejected for the run (R351). -/
def State.calFrame (s : State) : State :=
  if s.calState ≠ 3 ∧ s.calState ≠ 5 then s
  else
    let n := fun p => s.cal.tries.get (fun _ => 0) p
    let late := s.calOpen.filter fun p => decide (8 ≤ n p)
    let s : State := { s with cal := { s.cal with
      cut := [], reject := s.cal.reject ++ late
      tries := s.calOpen.foldl (fun t p => t.set (fun _ => 0) p (n p + 1)) s.cal.tries } }
    s.calPass

/-- CAL_INTERVAL_END: pass 2 starts 1 s after pass 1 (R350). -/
def State.calInterval (s : State) : State :=
  if s.calState = 4 ∧ s.cal.gapAt + oneSecond ≤ s.isl ∧ s.deck.dev ≠ .safeHalt then
    { s with cal := { s.cal with done := [], tries := [], cut := [] } }.set Reg.CAL_STATUS.STATE 5
  else s

/-- The measurement of a quantity in one pass. -/
def measure (t : Table (Option Int)) (q : Nat) : Int := (t.get (fun _ => none) q).getD 0

/-- Is a quantity plausible in a pass (R352)? -/
def State.plausible (s : State) (t : Table (Option Int)) (q : Nat) : Bool :=
  let m := measure t q
  let k := q % 48
  if q < 24576 then
    (if k = 0 then decide ((m - s.calValue q).natAbs ≤ 2400)
    else decide ((10 * m - 1088 * k).natAbs ≤ 272 * k) && decide ((if k = 1 then 0 else measure t (q - 1)) < m))
  else if q = qTdc then decide (64 ≤ m) && decide (m ≤ 96)
  else if q = qMed then decide (3000 ≤ m) && decide (m ≤ 5000)
  else decide (m.natAbs ≤ 128)

/-- Do the two measurements of a quantity agree (R352)? -/
def agree (q : Nat) (a b : Int) : Bool :=
  let d := (a - b).natAbs
  if q < 24576 then decide (d ≤ if q % 48 = 0 then 160 else 16)
  else if q = qTdc then decide (d * 200 ≤ a.natAbs)
  else if q = qMed then decide (d * 50 ≤ a.natAbs)
  else decide (d * 10 ≤ 64)

/-- Is a measured quantity accepted? -/
def State.accepted (s : State) (q : Nat) : Bool :=
  s.plausible s.cal.m1 q && s.plausible s.cal.m2 q && agree q (measure s.cal.m1 q) (measure s.cal.m2 q)

/-- EV_CAL_REJECT of a quantity. -/
def State.postReject (s : State) (pier q : Nat) : State :=
  s.post 0x0E22 sevWarn (p2 pier ++ p1 (if q < 24576 then q % 48 else q - 24576)
    ++ p4 (unsignedOf 32 (measure s.cal.m1 q)) ++ p4 (unsignedOf 32 (measure s.cal.m2 q)))

/-- D of an accepted quantity: the mean of its measurements less the interpolated anchor value at the run's Tj (R347, R352). -/
def State.newD (s : State) (q : Nat) : Int :=
  Int.fdiv (measure s.cal.m1 q + measure s.cal.m2 q) 2 - s.anchorAt q (s.quantityTemp q s.cal.runTj)

/-- CAL_JUDGE: after pass 2 every quantity is accepted or rejected, and the store of the field record starts (R352, R353). -/
def State.calJudge (s : State) : State :=
  if s.calState ≠ 5 ∨ s.calOpen ≠ [] ∨ s.deck.dev = .safeHalt then s
  else
    let adpll := [qTdc, qMed, qOffA, qOffB]
    let badQ := adpll.filter fun q => !(s.accepted q)
    let meas := s.cal.done.filter fun p => !(s.cal.reject.contains p)
    let qs := fun p => (List.range 48).map (48 * p + ·)
    let badP := meas.filter fun p => (qs p).any fun q => !(s.accepted q)
    let goodQ := (adpll.filter s.accepted) ++ (meas.filter fun p => !(badP.contains p)).flatMap qs
    let d := goodQ.foldl (fun d q => d.set (fun _ => 0) q (s.newD q)) s.cal.d
    let s := badQ.foldl (fun s q => s.postReject 0xFFFF q) s
    let s := badP.foldl (fun s p => ((qs p).filter fun q => !(s.accepted q)).foldl (fun s q => s.postReject p q) s) s
    let s := s.cal.reject.foldl (fun s p => s.postReject p (48 * p)) s
    let n := badP.length + s.cal.reject.length
    let bad := decide (n ≠ 0) || !badQ.isEmpty
    let s := s.set Reg.CAL_STATUS.REJECTED n
    let s : State := if bad then s.bump Reg.CAL_COUNT.FAILED else s
    let old := s.cal.field
    let bands := (old.map (·.bands)).getD []
    let r : FieldRec := ⟨((old.map (·.seq)).getD 0 + 1) % 2 ^ 32, d, s.cal.runTj, 0, (old.map (·.runs)).getD 0 + 1,
      match s.clk.found with
      | some e => keepBands bands e
      | none => bands⟩
    let s : State := { s with cal := { s.cal with store := some r, lastOk := !bad } }
    (if bad then s.set Reg.CAL_STATUS.VALID 0 else s).set Reg.CAL_STATUS.STATE 6

/-- CAL_STORE_DONE: the slot that does not hold the newer copy is written, and the new values are in force (R353). -/
def State.calStoreDone (s : State) : State :=
  match s.cal.store with
  | none => s
  | some r =>
    if s.calState ≠ 6 ∨ s.deck.dev = .safeHalt then s
    else
      let r := { r with nt := s.nt48 }
      let slot := if s.cal.field.isSome && !s.cal.newer1 then 1 else 0
      let s : State := { s with cal := { s.cal with
        slot0 := if slot = 0 then some r else s.cal.slot0, slot1 := if slot = 1 then some r else s.cal.slot1
        store := none, startAt := none } }
      let s := (s.calLoad.set Reg.CAL_STATUS.STATE 0).post 0x0E23 sevInfo (p1 1 ++ p1 slot ++ p4 r.seq)
      s.post 0x0E21 sevInfo (p1 s.cal.trigger ++ p2 (unsignedOf 16 r.tm) ++ p2 (s.get Reg.CAL_STATUS.REJECTED) ++ p4 r.runs)

/-! Power (R354 to R359). Rails: 0 VDD_IO, 1 VDD_CORE, 2 VPP_HBM, 3 VDDC_HBM, 4 VDDQ_HBM, 5 VDD_MR, 6 to 9 VDD_PIER_Q0 to Q3
(numbering log 24). -/

/-- The stage of a rail (R355). -/
def railStage (r : Nat) : Nat := if r < 2 then 1 else if r < 5 then 2 else if r = 5 then 3 else 4

/-- The bytes that the block sends in a PMBus transaction with a device: a write with its PEC, the CRC-8 of 08 R193 over every byte, or the
part of a read before the device answers (R359). -/
def pmbusBytes (addr code : Nat) (read : Bool) (data : List Byte) : List Byte :=
  if read then [byte (2 * addr), byte code, byte (2 * addr + 1)]
  else
    let b := byte (2 * addr) :: byte code :: data
    b ++ [byte (crc8 b)]

/-- The PMBus OPERATION command of a rail's regulator: on or off. The device address is the rail number (log 24). -/
def State.railOp (s : State) (r : Nat) (on : Bool) : State :=
  s.emit (.pmbus (pmbusBytes r 1 false [if on then 0x80 else 0]))

/-- The supervisor confirms stages 0 and 1 with READ_VOUT of VDD_SAFE, VDD_IO and VDD_CORE (R355; log 24). -/
def State.confirmRails (s : State) : State :=
  [10, 0, 1].foldl (fun s r => s.emit (.pmbus (pmbusBytes r 0x8B true []))) s

/-- The next rail to be enabled: the rails of stage 2, then of stage 3, then the four of stage 4 together. -/
def State.nextRail (s : State) : Option Nat :=
  [2, 3, 4, 5, 6].find? fun r => !(s.pwr.on.contains r) && !(s.pwr.stageOff.contains (railStage r))

/-- The rails enabled with rail `r`. -/
def railGroup (r : Nat) : List Nat := if r = 6 then [6, 7, 8, 9] else [r]

/-- FS_SUPPLY.PIER_Q shows the pier supplies that are on (17 R431). -/
def State.supplyShow (s : State) : State :=
  s.set Reg.FS_SUPPLY.PIER_Q (maskOf ((List.range 4).filter fun q => s.pwr.on.contains (6 + q)))

/-- PWR_RAIL_ENABLE: the next rail is enabled with OPERATION; `good` when READ_VOUT has come within ±3 % of its target (R355). -/
def State.railEnable (s : State) (good : Bool) : State :=
  if s.sup.released = false ∨ s.pwr.down = true ∨ s.pwr.retryAt.isSome ∨ s.deck.dev = .safeHalt then s
  else
    let s : State := if s.pwr.wait.isSome then s else match s.nextRail with
      | none => s
      | some r =>
        let s := if s.pwr.on = [0, 1] ∧ s.pwr.stageOff = [] ∧ s.pwr.tries4 = 0 then s.confirmRails else s
        { (railGroup r).foldl (fun s q => s.railOp q true) s with pwr := { s.pwr with wait := some (r, s.isl) } }
    match s.pwr.wait with
    | none => s
    | some (r, _) =>
      if good then { s with pwr := { s.pwr with on := s.pwr.on ++ railGroup r, wait := none } }.supplyShow else s

/-- The rails of a list switched off in reverse order of their enabling. -/
def State.railsOff (s : State) (rs : List Nat) : State :=
  let s := rs.reverse.foldl (fun s r => s.railOp r false) s
  { s with pwr := { s.pwr with on := s.pwr.on.filter fun r => !(rs.contains r) } }.supplyShow

/-- PWR_RAIL_TIMEOUT: 20 ms have passed; `rail` names the failing one of stage 4 (R355, 16 R407). -/
def State.railTimeout (s : State) (rail vout status : Nat) : State :=
  match s.pwr.wait with
  | none => s
  | some (r, t) =>
    if s.isl < t + 160000000 ∨ s.deck.dev = .safeHalt then s
    else
      let bad := if r = 6 then max 6 (min 9 rail) else r
      let s := s.post 0x0E41 sevError (p1 bad ++ p2 vout ++ p2 status)
      let st := railStage r
      let s : State := { s with pwr := { s.pwr with wait := none } }
      if st = 4 then
        let s := s.railsOff ((s.pwr.on.filter fun q => decide (2 ≤ q)) ++ railGroup 6)
        let n := s.pwr.tries4 + 1
        { s with pwr := { s.pwr with
            tries4 := n, retryAt := if n < 3 then some (s.isl + oneSecond) else none
            stageOff := if n < 3 then s.pwr.stageOff else [2, 3, 4] } }
      else
        let s := s.railsOff ((s.pwr.on.filter fun q => railStage q == st) ++ railGroup r)
        let s : State := { s with pwr := { s.pwr with stageOff := s.pwr.stageOff ++ [st] } }
        if st = 2 then (List.range 16).foldl (fun s pc => s.pcFails pc 3 0 0xFF) s else s

/-- PWR_STAGE4_RETRY: 1 s after a stage 4 failure the sequence is retried (16 R407). -/
def State.stage4Retry (s : State) : State :=
  match s.pwr.retryAt with
  | none => s
  | some t => if s.isl < t ∨ s.deck.dev = .safeHalt then s else { s with pwr := { s.pwr with retryAt := none } }

/-- PWR_QUAD_CHECK: the four quadrant supplies as read (R354). -/
def State.quadCheck (s : State) (v0 v1 v2 v3 : Nat) : State :=
  if s.deck.dev = .safeHalt ∨ s.sup.released = false then s
  else
    let hi := max (max v0 v1) (max v2 v3)
    let lo := min (min v0 v1) (min v2 v3)
    let bad := decide (3 * lo < 100 * (hi - lo))
    let was := s.cal.quadBad
    let s := { s with cal := { s.cal with quadBad := bad } }.calShow
    if bad = true ∧ was = false then
      s.post 0x0E43 sevWarn (p2 v0 ++ p2 v1 ++ p2 v2 ++ p2 v3 ++ c2 ((hi - lo) * 1000 / max 1 lo))
    else s

/-- The AVS step in mV (R360). -/
def State.avsStep (s : State) : Nat :=
  let n := s.get Reg.PWR_AVS_CFG.STEP
  if 1 ≤ n ∧ n ≤ 10 then n else 5

/-- A write of PWR_AVS_CFG: EN = 1 starts AVS at the boot value, EN = 0 ends it (R358, R360). -/
def State.avsCfgWrite (s : State) (bySup : Bool) (v : Word) : State :=
  if bySup = false then s
  else
    let was := s.flag Reg.PWR_AVS_CFG.EN
    let s := ((s.set Reg.PWR_AVS_CFG.EN (fieldOf v Reg.PWR_AVS_CFG.EN)).set Reg.PWR_AVS_CFG.MARGIN
      (fieldOf v Reg.PWR_AVS_CFG.MARGIN)).set Reg.PWR_AVS_CFG.STEP (fieldOf v Reg.PWR_AVS_CFG.STEP)
    if s.deck.dev = .safeHalt then s
    else if s.flag Reg.PWR_AVS_CFG.EN = false then s.set Reg.PWR_AVS.STATE 0
    else if was then s else s.set Reg.PWR_AVS.STATE 1

/-- AVS_ADJUST: the worst monitor margin moves the target by at most one step per ms (R358). -/
def State.avsAdjust (s : State) (margin vout : Nat) : State :=
  if s.deck.dev = .safeHalt ∨ s.flag Reg.PWR_AVS_CFG.EN = false ∨ s.isl < s.pwr.avsAt + 8000000 then s
  else
    let s := { s with pwr := { s.pwr with avsAt := s.isl } }.set Reg.PWR_AVS.VOUT vout
    let t := s.get Reg.PWR_AVS.TARGET
    let m := s.get Reg.PWR_AVS_CFG.MARGIN
    let move := fun (n st : Nat) => ((s.set Reg.PWR_AVS.TARGET n).set Reg.PWR_AVS.STATE st).emit (.avs n)
    if margin < m then
      (if 850 < t + s.avsStep then
        (move 850 3).postOncePer (60 * oneSecond) 0x0E42 0x0E42 sevError (p1 margin ++ p2 850)
      else move (t + s.avsStep) 2)
    else if m + 2 * s.avsStep ≤ margin then move (max 700 (t - s.avsStep)) 2
    else s.set Reg.PWR_AVS.STATE 2

/-- PMB_TRANSACTION: the supervisor writes PWR_PMB_CMD; START runs one transaction, unless one runs (R359). -/
def State.pmbStart (s : State) (bySup : Bool) (v : Word) : State :=
  if bySup = false then s
  else
    let s := (s.set Reg.PWR_PMB_CMD.READ (fieldOf v Reg.PWR_PMB_CMD.READ)).set Reg.PWR_PMB_CMD.LEN (fieldOf v Reg.PWR_PMB_CMD.LEN)
    let s := (s.set Reg.PWR_PMB_CMD.ADDR (fieldOf v Reg.PWR_PMB_CMD.ADDR)).set Reg.PWR_PMB_CMD.CODE (fieldOf v Reg.PWR_PMB_CMD.CODE)
    if bit v.toNat 31 = false ∨ s.flag Reg.PWR_PMB_DATA.BUSY = true ∨ s.deck.dev = .safeHalt then s
    else
      let a := s.get Reg.PWR_PMB_CMD.ADDR
      let c := s.get Reg.PWR_PMB_CMD.CODE
      let r := s.flag Reg.PWR_PMB_CMD.READ
      let n := min 2 (s.get Reg.PWR_PMB_CMD.LEN)
      let s := { s with pwr := { s.pwr with pmb := some (a, c, r, n) } }.set Reg.PWR_PMB_DATA.BUSY 1
      s.emit (.pmbus (pmbusBytes a c r (leBytes n (s.get Reg.PWR_PMB_DATA.DATA))))

/-- PMB_DONE: the transaction completes with an error code, the alert level and the data read. -/
def State.pmbDone (s : State) (err : Nat) (alert : Bool) (data : Nat) : State :=
  match s.pwr.pmb with
  | none => s
  | some (_, _, r, n) =>
    if s.deck.dev = .safeHalt then s
    else
      let s := { s with pwr := { s.pwr with pmb := none } }.set Reg.PWR_PMB_DATA.BUSY 0
      let s := (s.set Reg.PWR_PMB_DATA.ERR err).set Reg.PWR_PMB_DATA.ALERT (ofBool alert)
      if r = true ∧ err = 0 then s.set Reg.PWR_PMB_DATA.DATA (data % 2 ^ (8 * n)) else s

end Sys2Proof.Machine
end

