-- ==== Sys2Proof/Machine/Deck.lean ====
section
/-! DEFINITION. The Deck (02 R26 to R57, R451): run control, frame starts, scan lines, the latch point, the flip instant, the
operating states, and the snapshot of the frame counters. -/

namespace Sys2Proof.Machine

/-! Run control (R30, R451; 07 R173). -/

/-- DECK_SCAN_POS. -/
def State.scanPos (s : State) (line : Option Nat) : State :=
  s.wr Reg.DECK_SCAN_POS (match line with
    | some v => word v
    | none => word 65536)

/-- The Deck stops: the piers idle and the cause NOT_READY is present (R451, 17 R423). -/
def State.deckHalted (s : State) : State :=
  let s : State := { s with deck := { s.deck with phase := .idle, nextK := none } }
  (s.scanPos none).stopGates.stopPiers.setCause Reg.FS_CAUSE.NOT_READY true

/-- Has the flip instant of the frame in blanking come? -/
def State.flipDue (s : State) : Bool :=
  match s.deck.flip8 with
  | some t => decide (t ≤ s.nt.now8)
  | none => s.due s.deck.flipNT

/-- The flip instant of the frame in blanking passes (R27, R34, R451): a start that has come before it fires late, and a Deck
whose RUN is 0 stops. -/
def State.flipPoint (s : State) : State :=
  if s.deck.phase = .blank ∧ s.deck.flipDone = false ∧ s.flipDue = true ∧ s.deck.dev ≠ .safeHalt then
    let come := match s.deck.nextK with
      | some j => s.due (s.schedS j)
      | none => false
    let s : State := { s with deck := { s.deck with flipDone := true, startLate := s.deck.startLate || come } }
    if s.deck.running then s else s.deckHalted
  else s

/-- A write of RUN = 1 arms the first frame start (R30). -/
def State.runOn (s : State) : State :=
  if s.deck.running = true ∨ s.deck.dev = .safeHalt then s
  else
    let s : State := { s with deck := { s.deck with
      running := true, startLate := false, retimed := false, nextK := some (s.firstIndex (addNs s.nt48 startGap)) } }
    s.set Reg.DECK_CTRL.RUN 1

/-- EV_KEY_PROTECT: a write that the Keystone protections ignore (07 R173, R190). -/
def State.postProtect (s : State) (a : Nat) (w : Writer) : State := s.post 0x0704 sevWarn (p4 a ++ p1 w.code)

/-- A write of RUN = 0 (R451, 07 R173). -/
def State.runOff (s : State) (w : Writer) : State :=
  if s.flag Reg.KEY_STATUS.HW_REQ then s.postProtect Reg.DECK_CTRL w
  else if s.deck.running = false ∨ s.deck.dev = .safeHalt then s
  else
    let s : State := { s with deck := { s.deck with running := false, nextK := none, startLate := false } }
    let s := s.set Reg.DECK_CTRL.RUN 0
    if s.deck.busy then s else s.deckHalted

/-! Frame start and scan lines (R26, R27, R30, R34). -/

/-- The index of the start after `k`; instants less than 40,000 ns ahead are skipped (R34). -/
def State.planNext (s : State) (k : Int) : State :=
  let j := k + 1
  if s.deck.running = false then { s with deck := { s.deck with nextK := none } }
  else if diff48 (s.schedS j) s.nt48 < startGap then
    let j' := s.firstIndex (addNs s.nt48 startGap)
    let s : State := { s with deck := { s.deck with nextK := some j' } }
    if j' = j then s
    else { s with vdt := { s.vdt with realign := some s.deck.lastStep } }.postTimeStep s.deck.lastStep 0
  else { s with deck := { s.deck with nextK := some j } }

/-- The frame of schedule index `k` begins. The first frame after reset has number 0 (log 105). -/
def State.beginFrame (s : State) (k : Int) : State :=
  let late := s.deck.startLate
  let first := !s.deckRunning
  let lines := s.ac Reg.DECK_LINES.LINES
  let lp := s.ac Reg.DECK_LINE_PERIOD.PERIOD
  let s : State := if first then s.takeRects else s
  let s : State := { s with deck := { s.deck with
    frameNum := if s.deck.started then (s.deck.frameNum + 1) % m48 else s.deck.frameNum
    started := true
    phase := .line 0
    k := k
    start8 := s.nt.now8
    lines := lines
    linePeriod := lp
    latchNT := addNs (s.schedS k) (lines * lp : Nat)
    prevLatch := if s.deck.retimed then s.deck.latchNT else addNs (s.schedS (k - 1)) (lines * lp : Nat)
    retimed := false
    flipOffset := s.ac Reg.DECK_FLIP_OFFSET.OFFSET
    lateFlip := late
    startLate := false
    timeStep := false
    repeatF := s.deck.repeatNext
    repeatNext := false
    latchLate := false
    rephased := false
    flipDone := false
    flip8 := none } }
  let s := s.set Reg.KEY_STATUS.ACTIVE s.key.active
  let s : State := if first then s.setCause Reg.FS_CAUSE.NOT_READY false else s
  let s := (((s.framePiers (!first)).frameGates first late).selectAudits 1).bltPoint (some 0)
  (s.scanPos (some 0)).planNext k

/-- FRAME_START: the NT instant S(k) has come. A start that comes while the frame before it has not flipped waits for the flip and
fires late (R34, R36). -/
def State.frameStart (s : State) : State :=
  let s := s.flipPoint
  match s.deck.nextK with
  | none => s
  | some k =>
    if s.deck.dev = .safeHalt ∨ s.due (s.schedS k) = false ∨ s.deck.busy = true then s else s.beginFrame k

/-- Has line `v` of the frame in progress run for its full DECK_LINE_PERIOD in CLK_TIME (R31)? -/
def State.lineOver (s : State) (v : Nat) : Bool := decide (s.deck.lineEnd8 v ≤ s.nt.now8)

/-- Line `v` has run for its period. It ends on the piers and the combs and the next one begins; the last one ends at the latch point
(09 R220). -/
def State.nextLine (s : State) (v : Nat) : State :=
  if v + 1 < s.deck.lines then
    let s := (s.endLine v).endLineCombs v
    let s := ({ s with deck := { s.deck with phase := .line (v + 1) } } : State).selectAudits (v + 2)
    (s.scanPos (some (v + 1))).bltPoint (some (v + 1))
  else ({ s with deck := { s.deck with phase := .waitLatch } } : State).scanPos none

/-- SCAN_LINE_START: the line in progress has run for its period, and the next one begins; after the last one the frame waits for
its latch point (R27, R36). -/
def State.lineStart (s : State) : State :=
  if s.deck.dev = .safeHalt then s
  else match s.deck.phase with
  | .line v => if s.lineOver v then s.nextLine v else s
  | _ => s

/-! The operating state at a latch point (01 R24, R25; 12 R314; 14 R342, R343). -/

/-- The most restrictive state that a present cause calls for, as its code, with the cause of EV_STATE. -/
def State.neededState (s : State) (keyOn : Bool) : Nat × Nat :=
  let h := if s.deck.hbmCause then (if keyOn then 2 else 1) else 0
  let t := if s.deck.thmCause then 2 else 0
  if h < t then (t, 3) else if h = 0 then (0, 0) else (h, 2)

/-- The operating state of a DECK_STATE.CUR code. -/
def devOf (c : Nat) : DevState := if c = 0 then .normal else if c = 1 then .hold else if c = 2 then .keystoneOnly else .safeHalt

/-- Automatic transitions only move up; a request is granted unless a cause of a more restrictive state is present; Keystone
turns HOLD into KEYSTONE_ONLY. -/
def State.latchState (s : State) : State :=
  let keyOn := s.key.active != 0
  let s : State := { s with deck := { s.deck with thmCause := s.deck.thmCause || (s.fs.thermTrip && keyOn) } }
  let need := s.neededState keyOn
  let cur := s.deck.dev.code
  let up := if cur < need.1 then (need.1, if cur = 1 ∧ need.2 = 2 then 1 else need.2) else (cur, 0)
  let req := s.deck.req.map DevState.code
  let s : State := { s with deck := { s.deck with req := none } }
  let granted := match req with
    | some r => if need.1 ≤ r ∧ r ≠ up.1 then (r, 0) else up
    | none => up
  let s : State := match req with
    | some r => if r < need.1 then s.set Reg.DECK_STATE.REFUSED 1 else s
    | none => s
  let fin := if granted.1 = 1 ∧ keyOn = true then (2, 1) else granted
  s.setDev (devOf fin.1) fin.2

/-- DECK_STATE_REQ: a supervisor write; REFUSED clears on a written 1. -/
def State.stateWrite (s : State) (bySup : Bool) (v : Word) : State :=
  let s : State := if bit v.toNat 8 then s.set Reg.DECK_STATE.REFUSED 0 else s
  if bySup = false ∨ s.deck.dev = .safeHalt then s
  else match fieldOf v Reg.DECK_STATE.REQ with
    | 1 => { s with deck := { s.deck with req := some .normal } }
    | 2 => { s with deck := { s.deck with req := some .hold } }
    | 3 => { s with deck := { s.deck with req := some .keystoneOnly } }
    | _ => s

/-! The latch point (R36, R43, R44, R57). -/

/-- The words whose change re-times the schedule (R44). -/
def timingWords (p : Table Word) : List Word :=
  [Reg.DECK_FRAME_BASE_LO, Reg.DECK_FRAME_BASE_HI, Reg.DECK_PERIOD_NUM, Reg.DECK_PERIOD_DEN, Reg.DECK_LINES,
   Reg.DECK_LINE_PERIOD, Reg.DECK_FLIP_OFFSET].map fun a => p.get resetWord a

/-- The next start after a re-timing: at least 20,000 ns after the flip and 40,000 ns after the latch point (R44). -/
def State.retime (s : State) (flipNT : Nat) : State :=
  let a := addNs flipNT 20000
  let b := addNs s.deck.latchNT startGap
  let j := s.firstIndex (if diff48 a b < 0 then b else a)
  let s : State := { s with deck := { s.deck with nextK := s.deck.nextK.map fun _ => j, startLate := false, retimed := true }
                            vdt := { s.vdt with realign := some 0 } }
  s.postTimeStep 0 2

/-- The snapshot of the frame that ends (R57). -/
def State.snapshot (s : State) (applied : Nat) (late : Bool) : State :=
  let b := s.deck.frameNum % 2
  let d := s.deck
  let s := s.wr (Reg.DECK_SNAP_GEN b) (word (2 ^ 31))
  let s := s.wr (Reg.DECK_SNAP_NT_LO b) (word d.latchNT)
  let s := s.wr (Reg.DECK_SNAP_NT_HI b) (word (ofBool d.repeatF * 2 ^ 18 + ofBool late * 2 ^ 17
    + ofBool (d.timeStep || d.rephased) * 2 ^ 16 + d.latchNT / 2 ^ 32 % 65536))
  let s := s.wr (Reg.DECK_SNAP_SEQ b) (word (applied * 65536 + s.get Reg.DECK_COMMIT_SEQ.ACTIVE))
  let s := s.wr (Reg.DECK_SNAP_UNDERRUN b) (word (maskOf d.underrun))
  let s := s.wr (Reg.DECK_SNAP_HOLD b) (word (maskOf d.holdL))
  let s := s.wr (Reg.DECK_SNAP_RAYHOLD b) (word (d.rayHold.foldl (fun a e => a + e.2) 0))
  let s := s.wr (Reg.DECK_SNAP_TOTALS b) (word (d.underTotal * 65536 + min d.lateTotal 0xFFFF))
  s.wr (Reg.DECK_SNAP_GEN b) (word (d.frameNum % 2 ^ 31))

/-- Commits and buffers at the latch point: the due commits apply, layers are reconfigured and choose their buffers, and
DECK_SNAPb_TOTALS counts the late ones. The answer tells how many applied. -/
def State.latchCommits (s : State) : State × Nat :=
  let d := s.deck
  let prev := d.prevLatch
  let old := s.act
  let r := s.applyDue d.latchNT prev
  let late := (r.2.filter fun c => c.isLate prev).length
  let s : State := { r.1 with deck := { r.1.deck with lateTotal := r.1.deck.lateTotal + late } }
  let s := (s.reconfigure old [] r.2).unshedDisabled (disabledBy old r.2)
  (s.chooseBuffers.1, r.2.length)

/-- Has the frame a start or a latch point that fired late (R34, R36)? With a step, the latch point is late when its NT instant came
before the end of the last line. -/
def State.latchIsLate (s : State) : Bool :=
  let d := s.deck
  d.lateFlip || d.latchLate
    || (d.timeStep && !d.rephased
        && decide ((s.nt.now8 : Int) - d.lineEnd8 (d.lines - 1) < 8 * diff48 s.nt48 d.latchNT))

/-- The flip of the frame that ends is planned: at L(k) + DECK_FLIP_OFFSET, or after a re-phase DECK_FLIP_OFFSET after the latch
point in CLK_TIME (R27, R36). -/
def State.planFlip (s : State) : State :=
  let d := s.deck
  let nt := if d.rephased then addNs s.nt48 d.flipOffset else addNs d.latchNT d.flipOffset
  { s with deck := { d with
    phase := .blank
    latch8 := s.nt.now8
    flipNT := nt
    flip8 := if d.rephased then some (s.nt.now8 + d.flipOffset * 8) else none } }

/-- Everything the latch point does. -/
def State.latchNow (s : State) : State :=
  let old := timingWords s.act
  let late := s.latchIsLate
  let s := (s.endLine (s.deck.lines - 1)).endLineCombs (s.deck.lines - 1)
  let s := ((s.closeRects).postHeld).latchEchoes
  let r := s.latchCommits
  let applied := r.2
  let s := (((r.1.latchNectar).latchPalettes).latchKey).latchPiers
  let s := ((((s.latchState).shed).latchCombs).planFlip).sendTime
  let s := (s.gateCombs).latchPort (decide (applied ≠ 0))
  let s : State := if timingWords s.act = old then s else s.retime s.deck.flipNT
  let late := late || decide (diff48 s.deck.flipNT s.nt48 ≤ 0)
  let s := (s.snapshot applied late).latchVdt
  let s : State := { s with deck := { s.deck with
    lastLatch := some s.deck.frameNum, lateFlip := late, underrun := [], rayHold := [], flipLateEv := false } }
  (((s.planFlips).bltPoint none).calFrame).buddyWatch

/-- LATCH_POINT: after the last line has ended, L(k) has come, or the Deck has re-phased (R36). -/
def State.latchPoint (s : State) : State :=
  if s.deck.dev = .safeHalt then s
  else
    let s := match s.deck.phase with
      | .line v => if v + 1 = s.deck.lines ∧ s.lineOver v = true then s.nextLine v else s
      | _ => s
    if s.deck.phase = .waitLatch ∧ (s.deck.rephased = true ∨ s.due s.deck.latchNT = true) then s.latchNow else s

end Sys2Proof.Machine
end

