-- ==== Sys2Proof/Machine/Supervisor.lean ====
section
/-! DEFINITION. The supervisor's own registers (15 R362 to R383): watchdog, lockstep and TCM errors, the mailbox, the
semaphores, captures of wide values, the event registers and the marks in the fault log. -/

namespace Sys2Proof.Machine

/-! The watchdog (R381). -/

/-- One millisecond in 1/8 ns. -/
def oneMs : Nat := 8000000

/-- TIMEOUT as it acts, in ms. -/
def State.wdtTimeout (s : State) : Nat := max 10 (s.get Reg.SUP_WDT_CFG.TIMEOUT)

/-- OPEN as it acts, in ms. -/
def State.wdtOpen (s : State) : Nat :=
  if s.wdtTimeout ≤ s.get Reg.SUP_WDT_CFG.OPEN then 0 else s.get Reg.SUP_WDT_CFG.OPEN

/-- The watchdog expires: cause 0 late, 1 early, 2 wrong key. -/
def State.wdtExpires (s : State) (cause : Nat) : State := s.safeHalt [(0x0F03, sevSafety, p1 cause)] 2 5

/-- The expected key. -/
def State.wdtKey (s : State) : Nat := if s.flag Reg.SUP_WDT_STATUS.NEXT then 0xC35A else 0x5AC3

/-- A write of SUP_WDT_KICK. -/
def State.wdtKick (s : State) (bySup : Bool) (v : Word) : State :=
  if bySup = false ∨ s.sup.wdtOn = false ∨ s.deck.dev = .safeHalt then s
  else if fieldOf v Reg.SUP_WDT_KICK.KEY ≠ s.wdtKey then s.wdtExpires 2
  else if s.isl < s.sup.wdtAt + s.wdtOpen * oneMs then s.wdtExpires 1
  else
    let s : State := { s with sup := { s.sup with wdtAt := s.isl, wdtWarned := false } }
    (s.count Reg.SUP_WDT_STATUS.KICKS).set Reg.SUP_WDT_STATUS.NEXT (1 - s.get Reg.SUP_WDT_STATUS.NEXT)

/-- 75 % of TIMEOUT have passed since the last kick. -/
def State.wdtWarn (s : State) : State :=
  if s.sup.wdtOn = true ∧ s.sup.wdtWarned = false ∧ s.deck.dev ≠ .safeHalt
      ∧ s.sup.wdtAt + s.wdtTimeout * 6000000 ≤ s.isl then
    { s with sup := { s.sup with wdtWarned := true } }.set Reg.SUP_WDT_STATUS.WARN 1
  else s

/-- TIMEOUT has passed since the last kick. -/
def State.wdtLate (s : State) : State :=
  if s.sup.wdtOn = true ∧ s.sup.wdtAt + s.wdtTimeout * oneMs ≤ s.isl then s.wdtExpires 0 else s

/-- The cause BOOT ends once phase 4 has released Thihoger and LOCK is set (16 R396). -/
def State.bootCause (s : State) : State :=
  if s.sup.released = true ∧ s.boot.rescue = false ∧ s.flag Reg.SUP_WDT_CFG.LOCK = true then
    s.setCause Reg.FS_CAUSE.BOOT false
  else s

/-- A write of SUP_WDT_CFG: ignored once LOCK is set. -/
def State.wdtCfgWrite (s : State) (bySup : Bool) (v : Word) : State :=
  if bySup = false ∨ s.flag Reg.SUP_WDT_CFG.LOCK = true then s
  else
    let s := (s.set Reg.SUP_WDT_CFG.TIMEOUT (fieldOf v Reg.SUP_WDT_CFG.TIMEOUT)).set Reg.SUP_WDT_CFG.OPEN
      (fieldOf v Reg.SUP_WDT_CFG.OPEN)
    if bit v.toNat 31 then (s.set Reg.SUP_WDT_CFG.LOCK 1).bootCause else s

/-! Lockstep and the TCM (R362, R363). -/

/-- The cores differ; `pc` is the program counter of the main core. -/
def State.lockstep (s : State) (pc : Nat) : State :=
  s.safeHalt [(0x0F04, sevSafety, p4 pc)] 0 5

/-- A TCM error in the word at `a`: corrected and counted, with an event at most once per second, or the entry into SAFE_HALT. -/
def State.tcmError (s : State) (a : Nat) (unc : Bool) : State :=
  if s.deck.dev = .safeHalt then s
  else if unc then s.safeHalt [(0x0F05, sevSafety, p4 a ++ p2 1)] 1 5
  else
    let s := s.bump Reg.SUP_TCM_ECC.CORR
    let n := s.sup.eccSince + 1
    let s' := s.postOncePer oneSecond 0x0F05 0x0F05 sevInfo (p4 a ++ c2 n)
    { s' with sup := { s'.sup with eccSince := if s'.evt.lastPost = s.evt.lastPost then n else 0 } }

/-! The mailbox (R382): direction 0 host to supervisor, 1 supervisor to host. -/

/-- The control register of a direction. -/
def mbxCtrl (d : Nat) : Nat := Reg.SUP_MBX_H2S_CTRL + 0x80 * d

/-- A field of the control register of a direction, given as one of H2S. -/
def mbxField (d : Nat) (f : Field) : Field := { f with addr := f.addr + 0x80 * d }

/-- Is a requester the sending side of a direction? The supervisor sends on S2H, any REG port on H2S. -/
def mbxSends (d : Nat) (r : Req) : Bool :=
  match r with
  | .sup => d == 1
  | .portA => d == 0
  | .portB => d == 0
  | .ctrl => false

/-- Is a requester the receiving side? -/
def mbxReceives (d : Nat) (r : Req) : Bool :=
  match r with
  | .sup => d == 0
  | .portA => d == 1
  | .portB => d == 1
  | .ctrl => false

/-- EV_SUP_MBOX: direction, 0 send or 1 acknowledge, MSEQ, LEN. -/
def State.postMbx (s : State) (d ack : Nat) : State :=
  s.post 0x0F02 sevInfo (p1 d ++ p1 ack ++ p1 (s.get (mbxField d Reg.SUP_MBX_H2S_CTRL.MSEQ))
    ++ p1 (max 1 (s.get (mbxField d Reg.SUP_MBX_H2S_CTRL.LEN))))

/-- The sending side writes the control word. -/
def State.mbxSend (s : State) (d : Nat) (v : Word) : State :=
  let f := mbxField d
  if s.flag (f Reg.SUP_MBX_H2S_CTRL.BUSY) then s.set (f Reg.SUP_MBX_H2S_CTRL.OVERRUN) 1
  else
    let s := if bit v.toNat 28 then s.set (f Reg.SUP_MBX_H2S_CTRL.ACKED) 0 else s
    let s := if bit v.toNat 27 then s.set (f Reg.SUP_MBX_H2S_CTRL.OVERRUN) 0 else s
    let s := (s.set (f Reg.SUP_MBX_H2S_CTRL.LEN) (bits v.toNat 8 5)).set (f Reg.SUP_MBX_H2S_CTRL.MSEQ) (bits v.toNat 0 8)
    if bit v.toNat 31 then
      let s := s.set (f Reg.SUP_MBX_H2S_CTRL.BUSY) 1
      if d = 1 then s.postMbx 1 0 else s
    else s

/-- The receiving side writes the control word. -/
def State.mbxAck (s : State) (d : Nat) (v : Word) : State :=
  let f := mbxField d
  if bit v.toNat 30 = true ∧ s.flag (f Reg.SUP_MBX_H2S_CTRL.BUSY) = true then
    let s := (s.set (f Reg.SUP_MBX_H2S_CTRL.BUSY) 0).set (f Reg.SUP_MBX_H2S_CTRL.ACKED) 1
    if d = 0 then s.postMbx 0 1 else s
  else s

/-- A write of the control word of a direction. -/
def State.mbxCtrlWrite (s : State) (r : Req) (d : Nat) (v : Word) : State :=
  if mbxSends d r then s.mbxSend d v else if mbxReceives d r then s.mbxAck d v else s

/-- A write of a data word of a direction. -/
def State.mbxDataWrite (s : State) (r : Req) (d a : Nat) (v : Word) : State :=
  if mbxSends d r then
    (if s.flag (mbxField d Reg.SUP_MBX_H2S_CTRL.BUSY) then s.set (mbxField d Reg.SUP_MBX_H2S_CTRL.OVERRUN) 1 else s.wr a v)
  else s

/-! Semaphores (R371): owner 0 free, 1 supervisor, 2 port A, 3 port B. -/

/-- The owner code of a requester; CTRL records have none. -/
def ownerCode (r : Req) : Nat :=
  match r with
  | .sup => 1
  | .portA => 2
  | .portB => 3
  | .ctrl => 0

/-- The owner of semaphore `n`. -/
def State.semOwner (s : State) (n : Nat) : Nat := s.sup.sems.get (fun _ => 0) n

/-- The owner of semaphore `n` replaced. -/
def State.setSem (s : State) (n o : Nat) : State :=
  { s with sup := { s.sup with sems := s.sup.sems.set (fun _ => 0) n o } }

/-- A read of SUP_SEMn: what it returns, and the state in which a free semaphore is the reader's. -/
def State.semRead (s : State) (r : Req) (n : Nat) : Word × State :=
  if s.semOwner n = 0 ∧ r ≠ .ctrl then (word (2 ^ 31 + ownerCode r), s.setSem n (ownerCode r))
  else (word (s.semOwner n), s)

/-- A write of SUP_SEMn: the owner releases with bit 0, the supervisor forces with FORCE. -/
def State.semWrite (s : State) (r : Req) (n : Nat) (v : Word) : State :=
  if (bit v.toNat 0 = true ∧ r ≠ .ctrl ∧ s.semOwner n = ownerCode r) ∨ (bit v.toNat 30 = true ∧ s.actsSup r = true) then
    s.setSem n 0
  else s

/-! Captures of wide values (02 R56). -/

/-- The key of a captured word: the reader and the address. -/
def capKey (r : Req) (a : Nat) : Nat := ownerCode r * 2 ^ 32 + a

/-- The words from `a` on captured for a reader. -/
def State.capture (s : State) (r : Req) (a : Nat) : List Word → State
  | [] => s
  | w :: ws => State.capture { s with caps := s.caps.set (fun _ => none) (capKey r a) (some w) } r (a + 4) ws

/-- The captured word at `a`, if the reader has captured one. -/
def State.captured? (s : State) (r : Req) (a : Nat) : Option Word := s.caps.get (fun _ => none) (capKey r a)

/-! The event registers (R375 to R380). -/

/-- The little-endian words of a list of bytes. -/
def leWords : Nat → List Byte → List Word
  | 0, _ => []
  | n + 1, bs => word (leNat (bs.take 4)) :: leWords n (bs.drop 4)

/-- Word `w` of the head record of the supervisor queue; 0 when the queue is empty (R383). -/
def State.evtRecWord (s : State) (w : Nat) : Word :=
  match s.evt.supQ with
  | [] => 0
  | e :: _ => (leWords 8 e.bytes).getD w 0

/-- A write of EVT_POST posts an event of Thihoger (R377). -/
def State.evtPost (s : State) (bySup : Bool) (v : Word) : State :=
  let code := fieldOf v Reg.EVT_POST.CODE
  if bySup = false ∨ code < 0x8000 then s
  else
    let data := (List.range 4).flatMap fun w => leBytes 4 (s.rd (Reg.EVT_POST_DATA w)).toNat
    s.post code (fieldOf v Reg.EVT_POST.SEV) (data.take (min 16 (fieldOf v Reg.EVT_POST.LEN)))

/-- An event whose entry the log receives whatever its severity: it is routed like any other and logged by `f`. -/
def State.postMark (s : State) (code sev : Nat) (payload : List Byte) (f : State → List Byte → State) : State :=
  let r := s.evRec code sev payload
  let s : State := { s with evt := { s.evt with eseq := (s.evt.eseq + 1) % 2 ^ 16 } }
  let s := s.toSupQ r
  let s := if s.toHost code sev then s.toHostQ r else s
  f s r.bytes

/-- LOG_SUMMARY_WRITE: a token is free after suppression, and the count of suppressed events is written (R379). -/
def State.logSummary (s : State) : State :=
  let s := s.refill
  if s.evt.suppressed = 0 ∨ s.evt.tokens = 0 ∨ s.deck.dev = .safeHalt then s
  else
    let n := s.evt.suppressed
    { s with evt := { s.evt with suppressed := 0 } }.postMark 0x0F06 sevWarn (c4 n) State.logEvent

/-- A write of EVT_LOG_CTRL: CLEAR in SERVICE marks the log (R380); in SERVICE the host may write RWL fields too (11 R285). -/
def State.logClear (s : State) (v : Word) : State :=
  if s.boot.lc = .service ∧ bit v.toNat 0 = true ∧ s.deck.dev ≠ .safeHalt then
    s.postMark 0x0F07 sevInfo (p4 (s.get Reg.EVT_LOG_SEQ.LOGSEQ)) State.logEvent
  else s

end Sys2Proof.Machine
end

