-- ==== Sys2Proof/Machine/Flags.lean ====
section
/-! DEFINITION. The registers whose bits are computed from the state when they are read. -/

namespace Sys2Proof.Machine

/-- SUP_IRQ_PEND: each bit follows its source (R364, R383). -/
def State.irqPend (s : State) : Word :=
  let evt := s.evt.supQ.any fun e => decide (s.get Reg.EVT_CTRL.IRQ_MIN ≤ e.sev)
  let alarm := (List.range 8).any fun n => s.flag (Reg.NT_ALARM_CTRL.FIRED n)
  word (ofBool evt + 2 * ofBool alarm + 4 * ofBool (s.rd Reg.BLT_IRQ != 0) + 8 * s.get Reg.SUP_WDT_STATUS.WARN
    + 16 * s.get Reg.SUP_MBX_H2S_CTRL.BUSY + 32 * s.get (mbxField 1 Reg.SUP_MBX_H2S_CTRL.ACKED))

/-- EVT_STATUS: the levels of both queues. -/
def State.evtStatus (s : State) : Word := word (s.evt.supQ.length * 2 ^ 16 + s.evt.hostQ.length)

end Sys2Proof.Machine
end

