-- ==== Sys2Proof/Machine/Island.lean ====
section
/-! DEFINITION. The safety island (17 R421 to R431): self-test, heartbeat, the FS_TEST pulse and the clearing of held causes.
What sets a cause stands in `Fault.lean`; the supply monitors stand with the resets. -/

namespace Sys2Proof.Machine

/-- FS_SELFTEST: the test falls due at phase 0 and then every second (R422). `bad` is the code of the first monitor that did not
trip, 0 for none. A pass starts the heartbeat unless one failed before (R426). -/
def State.selftest (s : State) (bad : Nat) : State :=
  if s.isl < s.fs.selftestAt then s
  else
    let s : State := { s with fs := { s.fs with selftestAt := s.isl + oneSecond } }
    if bad % 256 = 0 then
      let s := s.count Reg.FS_SELFTEST.PASSES
      if s.fs.hbRun = true ∨ s.flag Reg.FS_CAUSE.SELFTEST = true then s
      else { s with fs := { s.fs with hbRun := true, hbAt := s.isl } }.set Reg.FS_STATUS.HB_RUN 1
    else
      let s := s.bump Reg.FS_SELFTEST.FAILS
      let s := if s.get Reg.FS_SELFTEST.FAILED = 0 then s.set Reg.FS_SELFTEST.FAILED bad else s
      let s := { s with fs := { s.fs with hbRun := false } }.set Reg.FS_STATUS.HB_RUN 0
      (s.post 0x1102 sevSafety (p1 bad ++ p1 1)).setCause Reg.FS_CAUSE.SELFTEST true

/-- FS_HEARTBEAT_TOGGLE: 10 ms have passed since the last edge (R426). -/
def State.heartbeat (s : State) : State :=
  if s.fs.hbRun = true ∧ s.fs.hbAt + 10 * oneMs ≤ s.isl then
    ({ s with fs := { s.fs with hbLevel := !s.fs.hbLevel, hbAt := s.isl } }).emit (.pin "FS_HEARTBEAT" (!s.fs.hbLevel))
  else s

/-- FS_TEST.LEN as it acts, in ms. -/
def State.testLen (s : State) : Nat := max 10 (min 1000 (s.get Reg.FS_TEST.LEN))

/-- A write of FS_TEST: LEN is kept, and START asserts FS_FAULT_N for LEN ms unless the hardware request is registered (R431). -/
def State.fsTestWrite (s : State) (bySup : Bool) (v : Word) : State :=
  if bySup = false then s
  else
    let s := s.set Reg.FS_TEST.LEN (fieldOf v Reg.FS_TEST.LEN)
    if bit v.toNat 31 = false ∨ s.flag Reg.KEY_STATUS.HW_REQ = true then s
    else
      let s : State := { s with fs := { s.fs with testEnd := some (s.isl + s.testLen * oneMs) } }
      (s.setCause Reg.FS_CAUSE.TEST true).post 0x1105 sevInfo (p2 s.testLen)

/-- FS_TEST_END: the pulse has lasted LEN ms. -/
def State.fsTestEnd (s : State) : State :=
  match s.fs.testEnd with
  | none => s
  | some t => if s.isl < t then s else { s with fs := { s.fs with testEnd := none } }.setCause Reg.FS_CAUSE.TEST false

/-- Does the condition of the held cause RECT persist (R424)? -/
def State.rectHolds (s : State) : Bool := s.fs.rectBad.any fun r => s.flag (Reg.CRC_RECT_CFG.SAFETY r)

/-- A write of FS_CAUSE: 1 clears EXPIRED and RECT unless the condition persists (R424). -/
def State.fsCauseWrite (s : State) (bySup : Bool) (v : Word) : State :=
  if bySup = false then s
  else
    let s := if bit v.toNat 12 = true ∧ s.fs.expiredLast = false then s.setCause Reg.FS_CAUSE.EXPIRED false else s
    if bit v.toNat 13 = true ∧ s.rectHolds = false then s.setCause Reg.FS_CAUSE.RECT false else s

/-- A write of FS_PIERw: 1 clears the echo fault of a pier unless its last echoed frame failed (R424). -/
def State.fsPierWrite (s : State) (bySup : Bool) (w : Nat) (v : Word) : State :=
  if bySup = false then s
  else (bitsSet 32 v.toNat).foldl
    (fun s b => if s.port.failRun.get (fun _ => 0) (32 * w + b) = 0 then s.setEchoFault (32 * w + b) false else s) s

end Sys2Proof.Machine
end

