-- ==== Sys2Proof/Machine/Moror.lean ====
section
/-! DEFINITION. The Moror link layer (11 R264 to R281, R292, R293): states and training, power states, test loops, acceptance,
replay, acknowledgement and credits. `x` is the port: 0 A, 1 B. The streams of IDLE, TS, AM and periodic LCB blocks follow from the
state and the time and are not recorded among the outputs (log 70). -/

namespace Sys2Proof.Machine

/-! The port. -/

/-- A port without history. AUTO declares host end until port A has been out of ACTIVE for HOLD ms (R292). -/
def mr0 : MrPort :=
  ⟨0, 0, false, [], false, false, none, none, 1, 0, 0, none, [], 0, [], [], [], [], [], 0, false, false, none, [], [], none, false, [],
   false, 0, 0, 0⟩

/-- Port `x`. -/
def State.mp (s : State) (x : Nat) : MrPort := s.mr.get (fun _ => mr0) x

/-- Port `x` replaced. -/
def State.setMp (s : State) (x : Nat) (p : MrPort) : State := { s with mr := s.mr.set (fun _ => mr0) x p }

/-- Codes of the states (R270). -/
abbrev mrDisabled : Nat := 0
abbrev mrDetect : Nat := 1
abbrev mrLock : Nat := 2
abbrev mrEq : Nat := 3
abbrev mrDeskew : Nat := 4
abbrev mrConfig : Nat := 5
abbrev mrActive : Nat := 6
abbrev mrRecovery : Nat := 7
abbrev mrM2 : Nat := 8
abbrev mrLoop : Nat := 9

/-- The state of port `x`. -/
def State.mrState (s : State) (x : Nat) : Nat := s.get (Reg.MR_STATUS.STATE x)

/-- Is port `x` host end? -/
def State.mrHost (s : State) (x : Nat) : Bool := s.flag (Reg.MR_STATUS.ROLE_NOW x)

/-- Is port `x` upstream (R264)? -/
def State.upstream (s : State) (x : Nat) : Bool := s.mrState x == mrActive && !(s.mrHost x)

/-- Is AUTO the role of port B? -/
def State.roleAuto (s : State) : Bool := decide (2 ≤ s.get (Reg.MR_CTRL.ROLE 1))

/-- The role that port `x` declares in CONFIG: 0 device end, 1 host end (R264, R292). -/
def State.mrRole (s : State) (x : Nat) : Nat :=
  if x = 0 then 0 else if s.roleAuto then (s.mp 1).declare else s.get (Reg.MR_CTRL.ROLE 1)

/-- The transmitter of port `x` has something to send: it is not idle; out of M1 it drives 32 IDLE blocks on every lane (R273). -/
def State.mrWake (s : State) (x : Nat) : State :=
  let s := if s.get (Reg.MR_STATUS.PM_TX x) = 1 then s.emit (.blocks x none (List.replicate 32 idleBlock)) else s
  (s.set (Reg.MR_STATUS.PM_TX x) 0).setMp x { s.mp x with idleAt := s.isl }

/-- A block of the stream leaves port `x` on the next lane (R268). -/
def State.mrBlock (s : State) (x : Nat) (b : Block) : State :=
  let s := s.mrWake x
  let l := (s.mp x).lane
  (s.setMp x { s.mp x with lane := (l + 1) % 8 }).emit (.blocks x (some l) [b])

/-- The bytes D1 to D7 of an SOF block (R276). -/
def sofBytes (cls : Nat) (first last : Bool) (len seq : Nat) : List Byte :=
  leBytes 1 (cls + 16 * ofBool first + 32 * ofBool last) ++ leBytes 2 len ++ leBytes 2 seq ++ [0, 0]

/-- The blocks of a frame: SOF, the data blocks, EOF with the CRC-32 of R277, and the IDLE block that follows. -/
def frameBlocks (cls : Nat) (first last : Bool) (seq : Nat) (payload : List Byte) : List Block :=
  let h := sofBytes cls first last payload.length seq
  ctlBlock 0x78 h :: (dataBlocks payload ++ [ctlBlock 0x87 (leBytes 4 (crc32 (h ++ payload)) ++ [0, 0, 0]), idleBlock])

/-- Blocks of a stream on their lanes: block n on lane n mod 8, the first on lane `l` (R268). -/
def onLanes (l : Nat) (bs : List Block) : List (Nat × Block) := bs.mapIdx fun i b => ((l + i) % 8, b)

/-- The blocks of a frame leave port `x`. -/
def State.mrStream (s : State) (x cls : Nat) (bs : List Block) : State :=
  let s := s.mrWake x
  let l := (s.mp x).lane
  (s.setMp x { s.mp x with lane := (l + bs.length) % 8 }).emit (.frame x cls (onLanes l bs))

/-- A TIME frame leaves port `x`: its SOF on lane 0, behind IDLE blocks as needed, with SEQ 0xFFFF (R276, R277). -/
def State.mrTime (s : State) (x : Nat) (msg : List Byte) : State :=
  s.mrStream x 4 (List.replicate ((8 - (s.mp x).lane) % 8) idleBlock ++ frameBlocks 4 true true 0xFFFF msg)

/-- A port in a new state (R270). -/
def State.mrGo (s : State) (x st : Nat) : State :=
  let out := decide (s.mrState x = mrActive ∧ st ≠ mrActive)
  let s := s.set (Reg.MR_STATUS.STATE x) st
  let s := (s.set (Reg.MR_STATUS.PARKED x) 0).setMp x { s.mp x with
    outAt := if out then s.isl else (s.mp x).outAt
    since := s.isl, seen := 0, partner := false
    foms := if st = mrEq then [] else (s.mp x).foms
    eqDone := if st = mrEq then false else (s.mp x).eqDone
    pEqDone := if st = mrEq then false else (s.mp x).pEqDone
    pRole := if st ≤ mrLock then none else (s.mp x).pRole }
  let pm := if st = mrM2 then 2 else 0
  let s := (s.set (Reg.MR_STATUS.PM_TX x) pm).set (Reg.MR_STATUS.PM_RX x) pm
  if st ≤ mrDetect ∨ mrM2 ≤ st then s.set (Reg.MR_STATUS.LOCKED x) 0 else s

/-! Roles (R292). -/

/-- EV_MR_ROLE. -/
def State.postRole (s : State) : State :=
  s.post 0x0B05 sevInfo (p1 (s.mrRole 1) ++ p1 (s.get (Reg.MR_STATUS.PARKED 1)))

/-- Port B declares a role under AUTO. -/
def State.declareRole (s : State) (r : Nat) : State :=
  if (s.mp 1).declare = r then s
  else
    let s := s.setMp 1 { s.mp 1 with declare := r }
    if s.roleAuto then s.postRole else s

/-- While port A is ACTIVE, port B declares host end, unless its link is up as device end. -/
def State.roleFollowsA (s : State) : State :=
  if s.mrState 0 = mrActive ∧ !(decide (s.mrState 1 = mrActive ∨ s.mrState 1 = mrRecovery) && !(s.mrHost 1)) then s.declareRole 1
  else s

/-! Credits (R279, R280). -/

/-- A table entry by class. -/
def byClass (t : Table Nat) (c : Nat) : Nat := t.get (fun _ => 0) c

/-- 2^24, the modulus of the credit counts. -/
def m24 : Nat := 2 ^ 24

/-- MRx_CREDITc.AVAIL. -/
def State.showCredit (s : State) (x c : Nat) : State :=
  s.set (Reg.MR_CREDIT.AVAIL x c) (byClass (s.mp x).limit c + m24 - byClass (s.mp x).used c % m24)

/-- An LCB leaves port `x`: the ACK, NAK, and the limit of class `c` (R279). -/
def State.sendLcb (s : State) (x c : Nat) (nak : Bool) : State :=
  let p := s.mp x
  let ack := (p.rxSeq + 4095) % 4096
  s.mrBlock x (crcBlock 0x2D (leBytes 2 (ack + ofBool nak * 4096) ++ leBytes 1 c
    ++ leBytes 3 (byClass p.announced c)))

/-- The free space of the input ring in credits, at most 4,096 ahead. -/
def State.ringCredits (s : State) : Nat :=
  min 4096 ((s.get Reg.NEC_RING_SIZE.MIB * 2 ^ 20 - s.get Reg.NEC_RING_FILL.KIB * 1024) / 64)

/-- The receive space that port `x` announces for class `c` ahead of what has arrived (R280). -/
def State.classSpace (s : State) (x c : Nat) : Nat :=
  if s.mrHost x then (if c = 3 then 256 else if c = 5 then 1024 else if c = 6 then 4096 else 0)
  else if c = 1 then s.ringCredits
  else if c = 2 then 1024 else if c = 3 then 256 else if c = 6 then 4096 else 0

/-- The credits of frames of class `c` that have arrived on port `x` and not yet been used: the open SCENE block, REG requests that
wait, frames that wait to be forwarded to the other port (R280, R289). -/
def State.creditsHeld (s : State) (x c : Nat) : Nat :=
  let p := s.mp x
  if s.mrHost x then
    (s.mp 0).wait.foldl (fun a f =>
      if f.cls = 6 ∧ (f.payload.getD 0 0).toNat % 16 = c then a + ceilDiv (f.payload.length - 8) 64 else a) 0
  else if c = 1 then ceilDiv (p.scene.getD []).length 64
  else if c = 3 then p.regQ.foldl (fun a b => a + ceilDiv b.length 64) 0
  else if c = 6 ∧ x = 0 ∧ s.mrHost 1 = true then (s.mp 1).wait.foldl (fun a f => a + ceilDiv (f.payload.length + 8) 64) 0
  else 0

/-- The limit of class `c` follows the space; a raised limit is announced. -/
def State.announce (s : State) (x c : Nat) : State :=
  let p := s.mp x
  let lim := (byClass p.got c + s.classSpace x c + m24 - s.creditsHeld x c) % m24
  if s.mrState x = mrActive ∧ 0 < signed 24 (lim + m24 - byClass p.announced c) then
    (s.setMp x { p with announced := p.announced.set (fun _ => 0) c lim }).sendLcb x c false
  else s

/-- The SCENE limits follow the input ring (R145, R280). -/
def State.sceneCredits (s : State) : State := (s.announce 0 1).announce 1 1

/-! Sending (R276 to R279, R289). -/

/-- A frame leaves port `x`. -/
def State.mrEmit (s : State) (x : Nat) (f : MrFrame) : State :=
  s.mrStream x f.cls (frameBlocks f.cls f.first f.last f.seq f.payload)

/-- Bytes held in the replay buffer. -/
def MrPort.replayBytes (p : MrPort) : Nat := p.replay.foldl (fun a f => a + f.payload.length) 0

/-- May frame `f` start: credit, and room in the replay buffer (R278, R279)? -/
def MrPort.mayStart (p : MrPort) (f : MrFrame) : Bool :=
  decide (0 ≤ signed 24 (byClass p.limit f.cls + 2 * m24 - byClass p.used f.cls % m24 - ceilDiv f.payload.length 64))
    && decide (p.replay.length < 2047) && decide (p.replayBytes + f.payload.length ≤ 131072)

/-- The first waiting frame of a class. -/
def MrPort.headOf (p : MrPort) (c : Nat) : Option MrFrame := p.wait.find? fun f => f.cls == c

/-- The frame that port `x` sends next: REG responses first, then TELEM and RELAY in alternation (R289), then the rest. -/
def MrPort.nextFrame (p : MrPort) : Option MrFrame :=
  (if p.relayLast then [3, 5, 6, 1, 2] else [3, 6, 5, 1, 2]).findSome? fun c =>
    match p.headOf c with
    | some f => if p.mayStart f then some f else none
    | none => none

/-- Up to `n` waiting frames are sent. -/
def State.mrPump (s : State) (x : Nat) : Nat → State
  | 0 => s
  | n + 1 =>
    let p := s.mp x
    if s.mrState x ≠ mrActive ∨ p.m2Want = true ∨ s.get (Reg.MR_STATUS.PM_TX x) ≠ 0 then s
    else match p.nextFrame with
    | none => s
    | some f =>
      let g := { f with seq := p.txSeq, sentAt := s.isl }
      let s := s.setMp x { p with
        wait := dropFirst (fun y => y.cls == f.cls) p.wait
        replay := p.replay ++ [g], txSeq := (p.txSeq + 1) % 4096
        used := p.used.set (fun _ => 0) f.cls ((byClass p.used f.cls + ceilDiv f.payload.length 64) % m24)
        relayLast := if f.cls = 6 then true else if f.cls = 5 then false else p.relayLast }
      ((s.mrEmit x g).showCredit x f.cls).mrPump x n

/-- A frame of class `c` waits on an ACTIVE port and is sent as soon as it may be. -/
def State.mrQueue (s : State) (x c : Nat) (first last : Bool) (payload : List Byte) : State :=
  if s.mrState x = mrActive then
    let p := s.mp x
    (s.setMp x { p with wait := p.wait ++ [⟨c, first, last, 0, payload, 0⟩] }).mrPump x (p.wait.length + 1)
  else s

/-! Leaving and entering ACTIVE (R293). -/

/-- The losses of a link: replay, credits, waiting frames, the open SCENE block, pending REG requests, and semaphores held by the
port (R293, 15 R371). -/
def State.mrLose (s : State) (x : Nat) : State :=
  let s := s.setMp x { s.mp x with
    replay := [], runs := 0, wait := [], limit := [], used := [], got := [], announced := [], scene := none, regQ := []
    m2Want := false, m2Sent := false, nak := none }
  let s := [1, 2, 3, 5, 6].foldl (fun s c => s.showCredit x c) s
  { s with sup := { s.sup with sems := (List.range 16).foldl (fun t n =>
      if t.get (fun _ => 0) n = x + 2 then t.set (fun _ => 0) n 0 else t) s.sup.sems } }

/-- A frame dropped for want of the other port: counted at the port `x` it came from, and reported at most once per second with the drops
of the last second; direction 0 downstream, 1 upstream (R289, R296). -/
def State.relayDrop (s : State) (x dir : Nat) : State :=
  let s := s.bump (Reg.MR_COUNT_DROP.RELAY x)
  let ts := s.withNow (s.mp x).dropRelay
  let s := s.setMp x { s.mp x with dropRelay := ts }
  s.postOncePer oneSecond (0x0B040 + dir) 0x0B04 sevWarn (c2 ts.length ++ p1 dir)

/-- The relayed frames that wait on a port `x` which goes down are dropped and their credits returned at the port they came from:
inner frames on port B as host end, RELAY frames on port A (R280, R289). -/
def State.relayLost (s : State) (x : Nat) : State :=
  let n := if x = 1 then (if s.mrHost 1 then (s.mp 1).wait.length else 0) else ((s.mp 0).wait.filter fun f => f.cls == 6).length
  if n = 0 then s
  else
    let s := s.setMp x { s.mp x with wait := if x = 1 then [] else (s.mp x).wait.filter fun f => f.cls != 6 }
    let s := (List.range n).foldl (fun s _ => s.relayDrop (1 - x) (1 - x)) s
    if x = 1 then s.announce 0 6 else [3, 5, 6].foldl (fun s c => s.announce 1 c) s

/-- A port leaves its state for DETECT, DISABLED or LOOP; out of ACTIVE or RECOVERY with the losses and EV_MR_LINK. Causes: 0 lock
or clock lost, 1 RETRAIN, 2 EN = 0, 3 test, 4 RECOVERY without success. -/
def State.mrLeave (s : State) (x st cause : Nat) : State :=
  let old := s.mrState x
  if old = mrActive ∨ old = mrRecovery then
    let s := ((s.relayLost x).mrLose x).mrGo x st
    let s := if st = mrDetect then s.bump (Reg.MR_COUNT_LINK.DOWN x) else s
    let s := s.post 0x0B01 sevWarn (p1 x ++ p1 old ++ p1 st ++ p1 cause)
    if x = 1 then s.roleFollowsA else s
  else s.mrGo x st

/-- Entry to RECOVERY (R278, R268): replay buffers, SEQ and credits stay. -/
def State.mrRecover (s : State) (x : Nat) : State := (s.bump (Reg.MR_COUNT_LINK.RECOVERY x)).mrGo x mrRecovery

/-- Every unacknowledged frame is sent again. -/
def State.resendAll (s : State) (x : Nat) : State :=
  let p := s.mp x
  let s := s.setMp x { p with replay := p.replay.map fun f => { f with sentAt := s.isl } }
  p.replay.foldl (fun s f => s.mrEmit x f) s

/-- A replay (R278): the fourth without an advance of the ACK sends the port to RECOVERY. -/
def State.mrReplay (s : State) (x : Nat) : State :=
  if (s.mp x).replay.isEmpty then s
  else
    let n := (s.mp x).runs + 1
    let s := (s.setMp x { s.mp x with runs := n }).bump (Reg.MR_COUNT_LINK.REPLAY x)
    let s := s.resendAll x
    if 4 ≤ n then s.mrRecover x else s

/-- Entry to ACTIVE from CONFIG: SEQ and credits start at 0, and the receiver announces its space (R278, R279). -/
def State.mrUp (s : State) (x : Nat) : State :=
  let s := s.set (Reg.MR_STATUS.ROLE_NOW x) (s.mrRole x)
  let s := (s.mrLose x).mrGo x mrActive
  let s := s.setMp x { s.mp x with txSeq := 0, rxSeq := 0, idleAt := s.isl, lane := 0 }
  let s := [1, 2, 3, 5, 6].foldl (fun s c => s.announce x c) s
  if x = 0 then s.roleFollowsA else s

/-! Test loops (R275). -/

/-- The pattern of a running far-end test starts on the lanes; near-end loops leave the pins idle. -/
def State.mrPatternOut (s : State) (x : Nat) : State :=
  match (s.mp x).test with
  | some t => if t.loop = 3 ∧ t.running = true then s.emit (.mrPattern x (t.pattern + 1)) else s
  | none => s

/-- The errors of a lane: those of its pattern, or, in NEP with frames, the frames found bad, one of `rx` each (log 130). -/
def laneErrors (pattern : Nat) (rx : List Bool) : Nat :=
  if pattern = 2 then (rx.filter id).length else patternErrors (pattern + 1) rx

/-- The errors of the eight lanes at the end of a test: counted from what the checkers received, or, where a command does not carry
that, unknown (free values). -/
def State.testErrs (s : State) (pattern : Nat) : Option (List (List Bool)) → List Nat × State
  | some rx => ((List.range 8).map fun l => laneErrors pattern (rx.getD l []), s)
  | none => (List.range 8).foldl (fun (a : List Nat × State) _ => let e := a.2.fresh 16
                                                               (a.1 ++ [e.1], e.2)) ([], s)

/-- The end of a test: EV_MR_TEST with the errors of the lanes, and out of LOOP to DETECT. -/
def State.mrTestEnd (s : State) (x : Nat) (rx : Option (List (List Bool))) : State :=
  match (s.mp x).test with
  | none => s
  | some t =>
    let e := s.testErrs t.pattern rx
    let s := (List.range 8).foldl (fun s l => s.set (Reg.MR_LANE.TEST_ERR x l) (min 0xFFFF (e.1.getD l 0))) e.2
    let s := s.setMp x { s.mp x with test := none }
    let s := if s.mrState x = mrLoop then s.mrGo x mrDetect else s
    s.post 0x0B07 sevInfo (p1 x ++ p1 t.loop ++ p1 t.pattern ++ (List.range 8).flatMap fun l => c1 (e.1.getD l 0))

/-- MR_TEST_START: a supervisor write of MRx_TEST with START; NES and NEP enter LOOP at once, a far-end loop is requested in TS. -/
def State.mrTestStart (s : State) (x : Nat) : State :=
  let loop := s.get (Reg.MR_TEST.LOOP x)
  if loop = 0 ∨ s.mrState x = mrDisabled ∨ (s.mp x).test.isSome then s
  else
    let pat := s.get (Reg.MR_TEST.PATTERN x)
    let pat := if pat = 3 ∨ (pat = 2 ∧ loop ≠ 2) then 1 else pat
    let s := s.mrLeave x (if loop = 3 then mrDetect else mrLoop) 3
    let s := (List.range 8).foldl (fun s l => s.set (Reg.MR_LANE.TEST_ERR x l) 0) s
    s.setMp x { s.mp x with test := some ⟨loop, pat, decide (loop ≠ 3), s.isl⟩, granted := false }

/-- MR_TEST_DURATION_END: DURATION ms have passed since the start; 0 runs until STOP. -/
def State.mrTestOver (s : State) (x : Nat) (rx : List (List Bool)) : State :=
  match (s.mp x).test with
  | none => s
  | some t =>
    let d := s.get (Reg.MR_TEST.DURATION x)
    if d ≠ 0 ∧ t.running = true ∧ t.start + d * 8000000 ≤ s.isl then s.mrTestEnd x (some rx) else s

/-- A supervisor write of MRx_TEST: its fields, STOP and START (R295). -/
def State.mrTestWrite (s : State) (bySup : Bool) (x : Nat) (v : Word) (rx : Option (List (List Bool))) : State :=
  if bySup = false then s
  else
    let s := s.set (Reg.MR_TEST.FE_ALLOW x) (fieldOf v (Reg.MR_TEST.FE_ALLOW x))
    let s := s.set (Reg.MR_TEST.DURATION x) (fieldOf v (Reg.MR_TEST.DURATION x))
    let s := s.set (Reg.MR_TEST.LOOP x) (fieldOf v (Reg.MR_TEST.LOOP x))
    let s := s.set (Reg.MR_TEST.PATTERN x) (fieldOf v (Reg.MR_TEST.PATTERN x))
    let s := if bit v.toNat 30 then s.mrTestEnd x rx else s
    if bit v.toNat 31 then s.mrTestStart x else s

/-- MR_LOOP_EXIT: a granted far-end loop ends after 10 µs without received data. -/
def State.loopExit (s : State) (x : Nat) : State :=
  if s.mrState x = mrLoop ∧ (s.mp x).granted = true ∧ (s.mp x).since + 80000 ≤ s.isl then
    (s.setMp x { s.mp x with granted := false }).mrGo x mrDetect
  else s

/-! Training (R270 to R272). -/

/-- Is a received clock valid that has `count` cycles in 10 µs of the island oscillator: within 1 % of 7.2 GHz (R270)? -/
def clockValid (count : Nat) : Bool := decide (71280 ≤ count) && decide (count ≤ 72720)

/-- MR_CLOCK_DETECT: the received clock has been valid for 10 µs. -/
def State.clockDetect (s : State) (x count : Nat) : State :=
  if s.mrState x = mrDetect ∧ clockValid count = true then s.mrGo x mrLock else s

/-- The FOM of the lanes, with the smallest. -/
def State.setFoms (s : State) (x : Nat) (foms : List Nat) : State :=
  let s := (List.range 8).foldl (fun s l => s.set (Reg.MR_LANE.FOM x l) (foms.getD l 0)) s
  s.set (Reg.MR_EQ.RX_FOM x) ((foms.take 8).foldl min 255)

/-- MR_EQ_PRESET_DONE: the receiver has measured the FOM of its lanes for the preset it requested; after P0 to P7 it chooses the
one whose smallest FOM is highest, the lower number on a tie, stores it and sets EQ_DONE (R272). -/
def State.presetDone (s : State) (x : Nat) (foms : List Nat) : State :=
  if s.mrState x ≠ mrEq ∨ (s.mp x).eqDone = true then s
  else
    let ms := (s.mp x).foms ++ [foms]
    if ms.length < 8 then ((s.setFoms x foms).setMp x { s.mp x with foms := ms }).set (Reg.MR_EQ.RX_PRESET x) ms.length
    else
      let low := ms.map fun l => (l.take 8).foldl min 255
      let best := low.foldl max 0
      let k := ((findIdx (fun m => m == best) low).map (·.1)).getD 0
      ((s.setFoms x (ms.getD k [])).setMp x { s.mp x with foms := ms, eqDone := true, preset := some k }).set
        (Reg.MR_EQ.RX_PRESET x) k

/-- A deskew delay of `ui` UI in 2^-8 ns (R249). -/
def deskewLat (ui : Nat) : Nat := (80 * ui + 4) / 9

/-- The deskew of the lanes at a training; a changed lane 0 moves NT_LATx_RX and posts EV_MR_DESKEW (R293). -/
def State.setSkews (s : State) (x : Nat) (skews : List Nat) : State :=
  let old := s.get (Reg.MR_LANE.SKEW x 0)
  let new := skews.getD 0 0
  let s := (List.range 8).foldl (fun s l => s.set (Reg.MR_LANE.SKEW x l) (skews.getD l 0)) s
  if old = new then s
  else
    let lat := s.get (Reg.NT_LAT_RX.LAT x) + deskewLat new - deskewLat old
    (s.set (Reg.NT_LAT_RX.LAT x) lat).post 0x0B06 sevInfo (p1 x ++ p1 new ++ p4 lat)

/-- The alignment marker of lane `l` with count `n` (R267). -/
def amBlock (l n : Nat) : Block := crcBlock 0x66 (leBytes 1 l ++ leBytes 4 n ++ [0])

/-- The deskew delays that the AMs of one slot give, each with its bytes D1 to D7 and its arrival in UI: lane `l` waits for the latest.
None unless the eight lanes carry their numbers, one count and a right CRC-8 (R268, R269). -/
def amSkews (ams : List (List Byte × Nat)) : Option (List Nat) :=
  let n := leAt ((ams.map (·.1)).getD 0 []) 1 4
  if ams.length = 8 ∧ ((List.range 8).all fun l => 0x66 :: (ams.map (·.1)).getD l [] == (amBlock l n).bytes) = true then
    let last := ams.foldl (fun a e => max a e.2) 0
    some (ams.map fun e => last - e.2)
  else none

/-- Are the lanes aligned within 200 UI (R268)? -/
def aligned (skews : List Nat) : Bool := skews.length == 8 && skews.all fun u => decide (u ≤ 200)

/-- A port in CONFIG compares versions and roles (R270, R292): ACTIVE, or parked under AUTO; EV_MR_ROLE when it parks and when it leaves
that for ACTIVE. -/
def State.mrConfigure (s : State) (x : Nat) : State :=
  let parked := s.flag (Reg.MR_STATUS.PARKED 1)
  if s.mrState x ≠ mrConfig ∨ s.get (Reg.MR_STATUS.VERSION x) ≠ 1 then s
  else match (s.mp x).pRole with
  | none => s
  | some r =>
    if r + s.mrRole x = 1 then (if x = 1 ∧ parked = true then (s.mrUp x).postRole else s.mrUp x)
    else if x = 1 ∧ s.roleAuto = true ∧ parked = false then (s.set (Reg.MR_STATUS.PARKED 1) 1).postRole
    else s

/-- The exits of the training states at a TS block: LOCK and RECOVERY wait until the partner's TS has been seen on all 8 lanes. -/
def State.mrAdvance (s : State) (x : Nat) (foms skews : List Nat) : State :=
  let p := s.mp x
  let st := s.mrState x
  if (p.seen ≠ 255 ∧ (st = mrLock ∨ st = mrRecovery)) ∨ (st = mrLock ∧ p.partner = false) then s
  else if st = mrLock then
    match p.preset with
    | some k =>
      if foms.length = 8 ∧ s.get (Reg.MR_EQ.FOM_MIN x) ≤ foms.foldl min 255 then
        let s := ((s.setFoms x foms).set (Reg.MR_EQ.RX_PRESET x) k).mrGo x mrDeskew
        s.setMp x { s.mp x with eqDone := true }
      else (s.set (Reg.MR_EQ.RX_PRESET x) 0).mrGo x mrEq
    | none => (s.set (Reg.MR_EQ.RX_PRESET x) 0).mrGo x mrEq
  else if st = mrEq ∧ p.eqDone = true ∧ p.pEqDone = true then s.mrGo x mrDeskew
  else if st = mrDeskew ∧ aligned skews = true then (s.setSkews x skews).mrGo x mrConfig
  else if st = mrConfig then s.mrConfigure x
  else if st = mrRecovery ∧ aligned skews = true then
    let s := (s.setSkews x skews).mrGo x mrActive
    let s := s.setMp x { s.mp x with runs := 0 }
    let s := if (s.mp x).replay.isEmpty then s else s.bump (Reg.MR_COUNT_LINK.REPLAY x)
    (s.resendAll x).mrPump x ((s.mp x).wait.length)
  else s

/-- MR_TS_RECEIVE: a TS block, D1 to D7, with the blocks that its lane has seen before it, the FOM that the receiver measures on its
8 lanes, and the AMs it has received (R268 to R272, R275). A lane without block lock delivers no TS. A partner in a later training
state has seen the TS of this one. -/
def State.tsReceive (s : State) (x : Nat) (seen : List BlockSeen) (d : List Byte) (foms : List Nat)
    (ams : List (List Byte × Nat)) : State :=
  let st := s.mrState x
  let b := fun i => (d.getD i 0).toNat
  let training := decide (mrLock ≤ st ∧ st ≤ mrConfig) || decide (st = mrRecovery)
  let skews := (amSkews ams).getD []
  let fe := match (s.mp x).test with
    | some t => t.loop == 3
    | none => false
  if crcOk d = false ∨ lockAfter noLock seen = false ∨ training = false then s
  else if bits (b 3) 0 2 = 1 ∧ s.flag (Reg.MR_TEST.FE_ALLOW x) = true then
    let s := s.mrLeave x mrLoop 3
    s.setMp x { s.mp x with granted := true }
  else if bits (b 3) 0 2 = 2 ∧ fe = true then
    let s := s.mrLeave x mrLoop 3
    let s := s.setMp x { s.mp x with test := (s.mp x).test.map fun t => { t with running := true, start := s.isl } }
    s.mrPatternOut x
  else
    let pst := bits (b 0) 0 4
    let later := decide (st < pst) && decide (pst ≤ mrConfig)
    let s := s.set (Reg.MR_LINK_ID.PARTNER x) (b 4 + 256 * b 5)
    let s := if bit (b 1) 6 then s.set (Reg.MR_EQ.TX_PRESET x) (bits (b 1) 3 3) else s
    let p := s.mp x
    let p := if pst = st ∨ later = true then { p with
        seen := setBit p.seen (bits (b 0) 4 3)
        partner := p.partner || bit (b 0) 7 || later
        pEqDone := p.pEqDone || bit (b 1) 7 || (decide (st = mrEq) && later) } else p
    let p := if pst = mrConfig then { p with pRole := some (min 1 (bits (b 2) 0 2)) } else p
    let s := s.setMp x p
    let s := if pst = mrConfig then s.set (Reg.MR_STATUS.VERSION x) (bits (b 2) 2 6) else s
    (s.set (Reg.MR_STATUS.LOCKED x) (setBit (s.get (Reg.MR_STATUS.LOCKED x)) (bits (b 0) 4 3))).mrAdvance x foms skews

/-- MR_TRAIN_TIMEOUT: a training state has lasted longer than 2 ms (R270). A parked link stays (R292). -/
def State.trainTimeout (s : State) (x : Nat) : State :=
  let st := s.mrState x
  let p := s.mp x
  if st < mrDetect ∨ mrConfig < st ∨ s.flag (Reg.MR_STATUS.PARKED x) = true ∨ s.isl ≤ p.since + 16000000 then s
  else
    let cause := if st = mrDetect then 1 else if st = mrLock then 2 else if st = mrEq then 3 else if st = mrDeskew then 4
      else match p.pRole with
        | none => 7
        | some r => if s.get (Reg.MR_STATUS.VERSION x) ≠ 1 then 6 else if r + s.mrRole x ≠ 1 then 5 else 7
    (s.mrGo x mrDetect).post 0x0B02 sevWarn (p1 x ++ p1 st ++ p1 cause)

/-- MR_RECOVERY_TIMEOUT: RECOVERY has not succeeded within 20 µs (R270). -/
def State.recoveryTimeout (s : State) (x : Nat) : State :=
  if s.mrState x = mrRecovery ∧ (s.mp x).since + 160000 ≤ s.isl then s.mrLeave x mrDetect 4 else s

/-- The lanes, as a mask, that have held lock and lose it within the blocks of `seen` (R268). -/
def lanesLost (seen : List (List BlockSeen)) : Nat :=
  (List.range 8).foldl (fun a l => if lockLost ⟨true, 0, []⟩ (seen.getD l []) then setBit a l else a) 0

/-- MR_LINK_LOSS: a lane loses block lock over the blocks it has seen: RECOVERY, unless M1 has idled the lanes; without a valid
received clock, `count` cycles in 10 µs, DETECT (R268, R270, R273, R293). -/
def State.linkLoss (s : State) (x : Nat) (seen : List (List BlockSeen)) (count : Nat) : State :=
  let st := s.mrState x
  let lost := lanesLost seen
  if clockValid count = false then
    (if st = mrDisabled ∨ st = mrDetect ∨ mrM2 ≤ st then s else s.mrLeave x mrDetect 0)
  else if st = mrActive ∧ lost ≠ 0 ∧ s.get (Reg.MR_STATUS.PM_RX x) ≠ 1 then
    let s := s.mrRecover x
    s.set (Reg.MR_STATUS.LOCKED x) (s.get (Reg.MR_STATUS.LOCKED x) &&& (255 - lost))
  else s

/-! Control by the supervisor (R270, R274, R275, R295). -/

/-- MRx_CTRL.EN follows a write. -/
def State.mrEnable (s : State) (x : Nat) (en : Bool) : State :=
  let s := s.set (Reg.MR_CTRL.EN x) (ofBool en)
  if en then (if s.mrState x = mrDisabled then s.mrGo x mrDetect else s)
  else if s.mrState x = mrDisabled then s
  else
    let s := (s.mrTestEnd x none).mrLeave x mrDisabled 2
    s.setMp x { s.mp x with granted := false }

/-- A write of RETRAIN = 1; out of LOOP it ends the test. -/
def State.mrRetrain (s : State) (x : Nat) : State :=
  if s.mrState x = mrDisabled then s
  else
    let s := if s.mrState x = mrLoop then s.mrTestEnd x none else s
    let s := s.mrLeave x mrDetect 1
    let s := s.setMp x { s.mp x with granted := false }
    if x = 1 ∧ s.mrState 0 = mrActive then s.declareRole 1 else s

/-- Does the port refuse M2 (R274)? -/
def State.m2Refused (s : State) (x : Nat) : Bool :=
  !(s.flag (Reg.MR_PM_CFG.M2_EN x)) || (decide (x = 0) && s.clk.ref && decide (s.clk.state ≠ AdpllState.off))

/-- A write of M2_REQ = 1: no new frame is sent (R274). -/
def State.m2Req (s : State) (x : Nat) : State :=
  if s.mrState x = mrActive ∧ s.m2Refused x = false then s.setMp x { s.mp x with m2Want := true } else s

/-- A supervisor write of MRx_CTRL; the host's is ignored (R295). -/
def State.mrCtrlWrite (s : State) (bySup : Bool) (x : Nat) (v : Word) : State :=
  if bySup = false then s
  else
    let s := s.set (Reg.MR_CTRL.HOLD x) (fieldOf v (Reg.MR_CTRL.HOLD x))
    let s := if x = 1 then s.set (Reg.MR_CTRL.ROLE 1) (fieldOf v (Reg.MR_CTRL.ROLE 1)) else s
    let s := s.mrEnable x (bit v.toNat 0)
    let s := if bit v.toNat 31 then s.mrRetrain x else s
    if bit v.toNat 30 then s.m2Req x else s

/-! Power states (R273, R274). -/

/-- An EIE block. -/
def eieBlock (target : Byte) : Block := crcBlock 0xAA (target :: List.replicate 5 0)

/-- An EIE leaves port `x` on all lanes in one slot. -/
def State.mrEie (s : State) (x : Nat) (target : Byte) : State := (s.mrWake x).emit (.blocks x none [eieBlock target])

/-- MR_M1_ENTRY: no frame to send, and idle for M1_IDLE ns. ACK and credits never wait. -/
def State.m1Entry (s : State) (x : Nat) : State :=
  let p := s.mp x
  let t := s.get (Reg.MR_PM_CFG.M1_IDLE x)
  if s.mrState x = mrActive ∧ t ≠ 0 ∧ s.get (Reg.MR_STATUS.PM_TX x) = 0 ∧ p.wait.isEmpty = true ∧ p.m2Want = false
      ∧ p.idleAt + t * 8 ≤ s.isl then
    (s.mrEie x 1).set (Reg.MR_STATUS.PM_TX x) 1
  else s

/-- MR_M1_EXIT: a transmitter with something to send drives IDLE blocks and resumes the stream. -/
def State.m1Exit (s : State) (x : Nat) : State :=
  if s.mrState x = mrActive ∧ s.get (Reg.MR_STATUS.PM_TX x) = 1 ∧ (s.mp x).wait.isEmpty = false then
    (s.mrWake x).mrPump x (s.mp x).wait.length
  else s

/-- MR_M1_LOCK_REGAIN: the receiver regains lock on every lane from the partner's IDLE blocks. -/
def State.m1Regain (s : State) (x : Nat) (seen : List (List BlockSeen)) : State :=
  if s.get (Reg.MR_STATUS.PM_RX x) = 1 ∧ ((List.range 8).all fun l => lockAfter noLock (seen.getD l [])) = true then
    s.set (Reg.MR_STATUS.PM_RX x) 0
  else s

/-- MR_M2_EIE_SEND: every frame sent is acknowledged. -/
def State.m2Send (s : State) (x : Nat) : State :=
  let p := s.mp x
  if s.mrState x = mrActive ∧ p.m2Want = true ∧ p.m2Sent = false ∧ p.replay.isEmpty then
    (s.setMp x { p with m2Sent := true }).mrEie x 2
  else s

/-- A request of M2 ends without it: the port goes on sending. -/
def State.m2Drop (s : State) (x : Nat) : State :=
  (s.setMp x { s.mp x with m2Want := false, m2Sent := false }).mrPump x (s.mp x).wait.length

/-- A partner that goes on sending after the EIE of a request has refused it (R274; log 129). -/
def State.m2Answered (s : State) (x : Nat) : State := if (s.mp x).m2Sent then s.m2Drop x else s

/-- Entry to M2: the frames that wait to be forwarded are dropped, and port B may declare another role (R289, R292). -/
def State.m2Enter (s : State) (x : Nat) : State :=
  let s := (s.relayLost x).setMp x { (s.relayLost x).mp x with m2Want := false, m2Sent := false }
  let s := s.mrGo x mrM2
  if x = 1 then s.roleFollowsA else s

/-- MR_EIE_RECEIVE: an EIE block, D1 to D7. The port answers a request, and refuses it by going on. -/
def State.eieReceive (s : State) (x : Nat) (d : List Byte) : State :=
  if s.mrState x ≠ mrActive ∨ crcOk d = false then s
  else match (d.getD 0 0).toNat with
  | 1 => s.set (Reg.MR_STATUS.PM_RX x) 1
  | 2 =>
    if s.m2Refused x then s.m2Answered x
    else if (s.mp x).m2Sent then s.m2Enter x
    else (s.mrEie x 2).m2Enter x
  | _ => s

/-- MR_M2_EXIT: either end starts its clock. -/
def State.m2Exit (s : State) (x : Nat) : State := if s.mrState x = mrM2 then s.mrGo x mrDetect else s

/-! Acceptance, acknowledgement and credits (R265, R278, R279). -/

/-- A NAK for the SEQ expected, at most every 2 µs (R278). -/
def State.sendNak (s : State) (x : Nat) : State :=
  let p := s.mp x
  let again := match p.nak with
    | some (q, t) => decide (q = p.rxSeq) && decide (s.isl < t + 16000)
    | none => false
  if again then s
  else
    let s := (s.setMp x { p with nak := some (p.rxSeq, s.isl) }).bump (Reg.MR_COUNT_CRC.NAK x)
    s.sendLcb x 0 true

/-- May a frame of class `c` arrive on port `x` (R265)? A REG frame is a response when `resp`. -/
def State.classAllowed (s : State) (x c : Nat) (resp : Bool) : Bool :=
  if s.mrHost x then (c == 3 && resp) || c == 5 || c == 6 else c == 1 || c == 2 || (c == 3 && !resp) || c == 6

/-- Are the class and the length of a payload in range (R276, R277)? -/
def lenOk (c n : Nat) : Bool :=
  decide (1 ≤ c) && decide (c ≤ 6) && (if c = 6 then decide (9 ≤ n) && decide (n ≤ 536) else decide (1 ≤ n) && decide (n ≤ 512))

/-- What a received frame is: its class, SEQ, FIRST, LAST and payload, and what followed its SOF. -/
structure Received where
  cls     : Nat
  seq     : Nat
  first   : Bool
  last    : Bool
  payload : List Byte
  ends    : RxEnd
deriving DecidableEq, Repr

/-- The CRC-32 that the EOF of a frame must carry (R277). -/
def Received.crc (f : Received) : Nat := crc32 (sofBytes f.cls f.first f.last f.payload.length f.seq ++ f.payload)

/-- Does the EOF of a frame arrive, with another CRC? -/
def Received.crcBad (f : Received) : Bool := !f.ends.cut && f.ends.crc != f.crc

/-- Is a frame kept: its CRC, its block count, its length and its class are right, and nothing cuts it short (R277)? -/
def Received.whole (f : Received) : Bool := rxWhole f.ends f.payload.length f.crc && lenOk f.cls f.payload.length

/-- A frame other than TIME arrives on port `x`. The answer tells whether it goes to its consumer. -/
def State.mrAccept (s : State) (x : Nat) (f : Received) : State × Bool :=
  if s.mrState x ≠ mrActive then (s, false)
  else
    let s := s.m2Answered x
    if f.crcBad then ((s.bump (Reg.MR_COUNT_CRC.CRC x)).sendNak x, false)
    else if f.whole = false then (s, false)
    else
      let p := s.mp x
      let d := diff12 f.seq p.rxSeq
      if d < 0 then (s, false)
      else if 0 < d then (s.sendNak x, false)
      else
        let s := s.setMp x { p with
          rxSeq := (p.rxSeq + 1) % 4096, nak := none
          got := p.got.set (fun _ => 0) f.cls ((byClass p.got f.cls + ceilDiv f.payload.length 64) % m24) }
        let s := s.sendLcb x 0 false
        if s.classAllowed x f.cls (bit (leAt f.payload 0 1) 7) then (s, true) else (s.bump (Reg.MR_COUNT_DROP.OTHER x), false)

/-- MR_LCB_RECEIVE: an LCB, D1 to D7 (R279). -/
def State.lcbReceive (s : State) (x : Nat) (d : List Byte) : State :=
  if s.mrState x ≠ mrActive ∨ crcOk d = false then s
  else
    let s := s.m2Answered x
    let w := leAt d 0 2
    let ack := w % 4096
    let c := leAt d 2 1 % 16
    let p := s.mp x
    let rest := p.replay.filter fun f => decide (diff12 ack f.seq < 0)
    let s := s.setMp x { p with replay := rest, runs := if rest.length < p.replay.length then 0 else p.runs }
    let s := if c = 1 ∨ c = 2 ∨ c = 3 ∨ c = 5 ∨ c = 6 then
        (s.setMp x { s.mp x with limit := (s.mp x).limit.set (fun _ => 0) c (leAt d 3 3) }).showCredit x c else s
    let s := if bit w 12 then s.mrReplay x else s
    s.mrPump x (s.mp x).wait.length

/-- MR_REPLAY_TIMER: the oldest unacknowledged frame is older than 8 µs (R278). -/
def State.replayTimer (s : State) (x : Nat) : State :=
  match (s.mp x).replay with
  | [] => s
  | f :: _ => if s.mrState x = mrActive ∧ f.sentAt + 64000 ≤ s.isl then s.mrReplay x else s

/-- MR_ROLE_HOLD_EXPIRY: port A has been out of ACTIVE for HOLD ms under AUTO (R292). -/
def State.roleHold (s : State) : State :=
  let hold := max 1 (s.get (Reg.MR_CTRL.HOLD 1))
  if s.roleAuto = true ∧ s.mrState 0 ≠ mrActive ∧ (s.mp 0).outAt + hold * 8000000 ≤ s.isl then
    (s.declareRole 0).mrConfigure 1
  else s

end Sys2Proof.Machine
end

