-- ==== Sys2Proof/Machine/Bus.lean ====
section
/-! DEFINITION. Writes and reads of the registers by their requesters (00 R9, R10; 15 R364, R366, R369, R383 and the access rules
at the head of each register section), all blocks but SYS and LC. -/

namespace Sys2Proof.Machine

/-! Writes. -/

/-- A write under the access codes of R9; RWL fields take it in SERVICE. Reserved, RO and WO bits keep what they hold. -/
def State.plainWrite (s : State) (a : Nat) (v : Word) : State :=
  match specOf a with
  | none => s
  | some r =>
    let w := mergeBits (s.rd a) v (r.rw ||| (if s.boot.lc = .service then r.rwl else 0))
    s.wr a ((w &&& ~~~(v &&& word r.w1c)) ||| (v &&& word r.w1s))

/-- A write that the supervisor alone may make. -/
def State.supWrite (s : State) (r : Req) (a : Nat) (v : Word) : State := if s.actsSup r then s.plainWrite a v else s

/-- A write of SUP or EVT registers (15 R383). -/
def State.writeSup (s : State) (r : Req) (a : Nat) (v : Word) : State :=
  if a = Reg.SUP_WDT_CFG then s.wdtCfgWrite (s.actsSup r) v
  else if a = Reg.SUP_WDT_KICK then s.wdtKick (s.actsSup r) v
  else if Reg.SUP_SEM 0 ≤ a ∧ a ≤ Reg.SUP_SEM 15 then s.semWrite r ((a - Reg.SUP_SEM 0) / 4) v
  else if a = mbxCtrl 0 then s.mbxCtrlWrite r 0 v
  else if a = mbxCtrl 1 then s.mbxCtrlWrite r 1 v
  else if Reg.SUP_MBX_H2S_DATA 0 ≤ a ∧ a ≤ Reg.SUP_MBX_H2S_DATA 15 then s.mbxDataWrite r 0 a v
  else if Reg.SUP_MBX_S2H_DATA 0 ≤ a ∧ a ≤ Reg.SUP_MBX_S2H_DATA 15 then s.mbxDataWrite r 1 a v
  else if a = Reg.EVT_POST then s.evtPost (s.actsSup r) v
  else if a = Reg.EVT_LOG_CTRL then s.logClear v
  else s.supWrite r a v

/-- The target that DECK_COMMIT_TIME holds for a writer: the register is banked (02 R45). -/
def State.commitTime (s : State) (w : Writer) : Nat :=
  match w with
  | .supervisor => s.get Reg.DECK_COMMIT_TIME_LO.T + 2 ^ 32 * s.get Reg.DECK_COMMIT_TIME_HI.T
  | .host => s.hostT.get (fun _ => 0) Reg.DECK_COMMIT_TIME_LO + 2 ^ 32 * s.hostT.get (fun _ => 0) Reg.DECK_COMMIT_TIME_HI

/-- A write of DECK_COMMIT: GO, or CANCEL, which is ignored if GO is also 1 (02 R38, R41, R452). -/
def State.commitWrite (s : State) (w : Writer) (v : Word) : State :=
  if bit v.toNat 31 then s.commitGo w (bits v.toNat 0 8) (if bit v.toNat 30 then some (s.commitTime w) else none)
  else if bit v.toNat 29 then s.commitCancel w
  else s

/-- A write of RUN = 1; it ends phase 8 of start-up (16 R394). -/
def State.runWrite (s : State) : State :=
  let s := s.runOn
  if s.deck.running = true ∧ s.get Reg.SYS_BOOT_STATUS.PHASE = 8 then s.set Reg.SYS_BOOT_STATUS.PHASE 12 else s

/-- A write of Deck registers (02). -/
def State.writeDeck (s : State) (r : Req) (a : Nat) (v : Word) : State :=
  let w := s.writerOf r
  if a = Reg.DECK_STATE then s.stateWrite (s.actsSup r) v
  else if a = Reg.DECK_CTRL then (if bit v.toNat 0 then s.runWrite else s.runOff w)
  else if a = Reg.DECK_COMMIT then s.commitWrite w v
  else if (a = Reg.DECK_COMMIT_TIME_LO ∨ a = Reg.DECK_COMMIT_TIME_HI) ∧ w = .host then
    { s with hostT := s.hostT.set (fun _ => 0) a (if a = Reg.DECK_COMMIT_TIME_HI then v.toNat % 65536 else v.toNat) }
  else if a = Reg.DECK_SHED_CFG ∧ s.actsSup r = false then s.plainWrite a (mergeBits v (s.rd a) 0x80000000)
  else if rwsMask a ≠ 0 then s.shadowWrite w a v
  else s.plainWrite a v

/-- A write of layer registers (03). -/
def State.writeLayer (s : State) (r : Req) (a : Nat) (v : Word) : State :=
  let w := s.writerOf r
  if a < 0x12001000 ∧ a % 0x80 = 0x58 then s.fenceWrite w ((a - 0x12000000) / 0x80) v
  else if a = Reg.LAYER_LUT_LOAD then s.lutLoadWrite v
  else if rwsMask a ≠ 0 then s.shadowWrite w a v
  else s.plainWrite a v

/-- A write of comb registers (05 R126); FAILED_ACK, once set, is cleared only by reset. -/
def State.writeComb (s : State) (r : Req) (a : Nat) (v : Word) : State :=
  if rwsMask a ≠ 0 then s.shadowWrite (s.writerOf r) a v
  else if a = Reg.COMB_AUDIT_SEED ∧ s.actsSup r = true then
    (List.range 8).foldl (fun s c => s.setCb c { s.cb c with reseed := true }) (s.plainWrite a v)
  else if 0x13001000 ≤ a ∧ a % 0x100 = 4 then s.supWrite r a (v ||| (s.rd a &&& 0x40000000))
  else s.supWrite r a v

/-- A write of NEC_PLAY_CTRL by the supervisor (06 R162). -/
def State.playWrite (s : State) (v : Word) : State :=
  let s := s.plainWrite Reg.NEC_PLAY_CTRL v
  let s := if bit v.toNat 31 then s.playStart else s
  if bit v.toNat 30 = true ∧ s.get Reg.NEC_PLAY_STATUS.STATE = 1 then { s with nec := { s.nec with playStop := true } } else s

/-- A write of Nectar registers (06 R165). -/
def State.writeNec (s : State) (r : Req) (a : Nat) (v : Word) : State :=
  if s.actsSup r = false then s
  else if a = Reg.NEC_CTRL then
    let s := s.plainWrite a v
    if bit v.toNat 31 then s.set Reg.NEC_STATUS.FLUSH_BUSY 1 else s
  else if a = Reg.NEC_PLAY_CTRL then s.playWrite v
  else s.plainWrite a v

/-- A write of port-stage, Keystone or picture-check registers (07 R189). No host access writes a Keystone register, in TEST either (R173,
11 R285). -/
def State.writePort (s : State) (r : Req) (a : Nat) (v : Word) : State :=
  if rwsMask a ≠ 0 then s.shadowWrite (s.writerOf r) a v
  else if a = Reg.KEY_SUP_MASK then s.keySupMask (decide (r = .sup)) v
  else if a = Reg.PORT_LUT_LOAD then s.plutStart (s.actsSup r) v
  else s.supWrite r a v

/-- A write of Viaduct registers (09 R234). -/
def State.writeVdt (s : State) (r : Req) (a : Nat) (v : Word) : State :=
  let sup := s.actsSup r
  if a = Reg.VDT_CTRL then s.gateEnWrite sup v
  else if (bankAt a).isSome then s.gateBankWrite sup a v
  else if 0x16001000 ≤ a ∧ (a - 0x16001000) % 0x800 = 4 then s.gateSwap sup ((a - 0x16001000) / 0x800) v
  else s.supWrite r a v

/-- A write of pier registers (08 R212). -/
def State.writePier (s : State) (r : Req) (a : Nat) (v : Word) : State :=
  let sup := s.actsSup r
  if a = Reg.PIER_CTRL then s.pierEnableWrite sup none v
  else if a = Reg.PIER_TEST then s.pierTestStart sup v
  else if 0x17001000 ≤ a ∧ a % 0x40 = 0 then s.pierEnableWrite sup (some ((a - 0x17001000) / 0x40)) v
  else if 0x17001000 ≤ a ∧ a % 0x40 = 0x10 then s.flipLatWrite sup ((a - 0x17001000) / 0x40) v
  else s.supWrite r a v

/-- A write of time-unit or clocking registers (10 R262): the highest word of NT_ADJ and NT_SET applies the value. -/
def State.writeTime (s : State) (r : Req) (a : Nat) (v : Word) : State :=
  if s.actsSup r = false then s
  else if a = Reg.NT_ADJ then { s with nt := { s.nt with adjLo := v.toNat } }
  else if a = Reg.NT_ADJ + 4 then (s.ntAdjWrite v).takeStep
  else if a = Reg.NT_SET then { s with nt := { s.nt with set0 := v.toNat } }
  else if a = Reg.NT_SET + 4 then { s with nt := { s.nt with set1 := v.toNat } }
  else if a = Reg.NT_SET + 8 then (s.ntSetWrite v).takeStep
  else if a = Reg.NT_FREQ then s.ntFreqWrite v
  else if a = Reg.NT_STEP_CFG then (s.plainWrite a v).set Reg.NT_STEP_CFG.THRESH (s.plainWrite a v).stepThresh
  else if a = Reg.CLK_REF_CFG then (s.plainWrite a v).refConfigured
  else if Reg.NT_ALARM_CTRL 0 ≤ a ∧ a ≤ Reg.NT_ALARM_CTRL 7 ∧ a % 16 = 0xC then s.alarmCtrlWrite ((a - Reg.NT_ALARM_CTRL 0) / 16) v
  else s.plainWrite a v


/-- A write of the registers of Moror port `x` (11 R295). -/
def State.writeMr (s : State) (r : Req) (x a : Nat) (v : Word) : State :=
  let own := decide (r = .portA ∧ x = 0 ∨ r = .portB ∧ x = 1)
  if a = Reg.MR_HBM_WIN x then (if own then s.plainWrite a v else s)
  else if a = Reg.MR_CTRL x then s.mrCtrlWrite (s.actsSup r) x v
  else if a = Reg.MR_TEST x then s.mrTestWrite (s.actsSup r) x v none
  else s.supWrite r a v

/-- A write of HBM registers (12 R318). -/
def State.writeHbm (s : State) (r : Req) (a : Nat) (v : Word) : State :=
  if a = Reg.HBM_TRAIN_REQ then s.trainReq (s.actsSup r) v else s.supWrite r a v

/-- A write of blitter registers (13 R333). -/
def State.writeBlt (s : State) (r : Req) (a : Nat) (v : Word) : State :=
  if a = Reg.BLT_CTRL then s.bltAbort (s.actsSup r) v
  else if a = Reg.BLT_Q_TAIL then s.bltPost (s.actsSup r) v
  else s.supWrite r a v

/-- A write of thermal, calibration or power registers (14 R360). -/
def State.writeThm (s : State) (r : Req) (a : Nat) (v : Word) : State :=
  let sup := s.actsSup r
  if a = Reg.THM_LIMITS then s.thmLimitsWrite sup v
  else if a = Reg.THM_THROTTLE then s.thmForce sup v
  else if a = Reg.CAL_CFG then s.calReq sup v
  else if a = Reg.PWR_AVS_CFG then s.avsCfgWrite sup v
  else if a = Reg.PWR_PMB_CMD then s.pmbStart sup v
  else s.supWrite r a v

/-- A write of safety-island registers (17 R431). -/
def State.writeFs (s : State) (r : Req) (a : Nat) (v : Word) : State :=
  let sup := s.actsSup r
  if a = Reg.FS_CAUSE then s.fsCauseWrite sup v
  else if a = Reg.FS_TEST then s.fsTestWrite sup v
  else if Reg.FS_PIER 0 ≤ a ∧ a ≤ Reg.FS_PIER 15 then s.fsPierWrite sup ((a - Reg.FS_PIER 0) / 4) v
  else s

/-- A write of an assigned register of any block but SYS and LC (15 R366). -/
def State.blockWrite (s : State) (r : Req) (a : Nat) (v : Word) : State :=
  match a / 2 ^ 24 with
  | 0x10 => s.writeSup r a v
  | 0x11 => s.writeDeck r a v
  | 0x12 => s.writeLayer r a v
  | 0x13 => s.writeComb r a v
  | 0x14 => s.writeNec r a v
  | 0x15 => s.writePort r a v
  | 0x16 => s.writeVdt r a v
  | 0x17 => s.writePier r a v
  | 0x18 => s.writeTime r a v
  | 0x19 => s.writeTime r a v
  | 0x1A => s.writeMr r 0 a v
  | 0x1B => s.writeMr r 1 a v
  | 0x1C => s.writeHbm r a v
  | 0x1D => s.writeBlt r a v
  | 0x1E => s.writeThm r a v
  | 0x1F => s.writeFs r a v
  | _ => s

/-! Reads. -/

/-- The first address and the number of words of the value wider than 32 bits that holds the word at `a` (02 R56): the values below, the
rectangle references, the alarm targets and the BASE of a gate bank. -/
def wideAt (a : Nat) : Option (Nat × Nat) :=
  let f := fun b n : Nat => if b ≤ a ∧ a < b + 4 * n then some (b, n) else none
  if 0x15008118 ≤ a ∧ a < 0x15009000 ∧ (a % 32 = 24 ∨ a % 32 = 28) then some (a / 32 * 32 + 24, 2)
  else if Reg.NT_ALARM_LO 0 ≤ a ∧ a ≤ Reg.NT_ALARM_HI 7 ∧ a % 16 < 8 then some (a / 16 * 16, 2)
  else if Reg.VDT_G_B_BASE_LO 0 0 ≤ a ∧ a ≤ Reg.VDT_G_B_BASE_HI 15 1 ∧ 0x14 ≤ (a - 0x16001000) % 0x800
      ∧ (a - 0x16001000) % 0x800 < 0x2C ∧ 4 ≤ a % 16 ∧ a % 16 < 12 then some (a / 16 * 16 + 4, 2)
  else [(Reg.SYS_DIE_ID, 4), (Reg.LC_NONCE, 2), (Reg.EVT_REC 0, 8), (Reg.DECK_FRAME_NUM_LO, 2), (Reg.DECK_SNAP_NT_LO 0, 2), (Reg.DECK_FRAME_BASE_LO, 2), (Reg.DECK_FRAME_BASE_LO + 0x800000, 2),
    (Reg.DECK_COMMIT_TIME_LO, 2),
    (Reg.DECK_SNAP_NT_LO 1, 2), (Reg.NT_NOW, 4), (Reg.NT_NOW48, 2), (Reg.NT_TXQ 0, 4), (Reg.NT_TXQ 1, 4), (Reg.HBM_ECC_LAST, 2),
    (Reg.CAL_LAST, 2)].findSome? fun e => f e.1 e.2

/-- Is a block address one of an active view (02 R47)? -/
def isActiveView (a : Nat) : Bool := decide (0x800000 ≤ a % 2 ^ 24)

/-- Word `w` of NT_NOW (10 R262). -/
def State.ntNowWord (s : State) (w : Nat) : Word :=
  match w with
  | 0 => word (s.get Reg.NT_STATUS.EPOCH * 65536 + s.nt.half % 2 * 0x8000)
  | 1 => word (s.nt.half / 2)
  | 2 => word s.nt.sec
  | _ => word (s.nt.sec / 2 ^ 32 % 65536)

/-- What the word at `a` of an assigned register reads as at present, apart from the semaphores; the view of a host's bank of
DECK_COMMIT_TIME is its own (02 R45). -/
def State.curWord (s : State) (r : Req) (a : Nat) : Word :=
  if isActiveView a then s.actW (a - 0x800000)
  else if a = Reg.SUP_IRQ_PEND then s.irqPend
  else if a = Reg.EVT_STATUS then s.evtStatus
  else if Reg.EVT_REC 0 ≤ a ∧ a ≤ Reg.EVT_REC 7 then s.evtRecWord ((a - Reg.EVT_REC 0) / 4)
  else if a = Reg.DECK_FRAME_NUM_LO then word s.deck.frameNum
  else if a = Reg.DECK_FRAME_NUM_HI then word (s.deck.frameNum / 2 ^ 32 % 65536)
  else if (a = Reg.DECK_COMMIT_TIME_LO ∨ a = Reg.DECK_COMMIT_TIME_HI) ∧ s.writerOf r = .host then
    word (s.hostT.get (fun _ => 0) a)
  else if Reg.NT_NOW ≤ a ∧ a < Reg.NT_NOW + 16 then s.ntNowWord ((a - Reg.NT_NOW) / 4)
  else if a = Reg.NT_SLEW_LEFT then s.slewLeft
  else if a = Reg.CLK_HOLDTIME ∧ s.clk.state = .holdover then s.holdMs
  else if a = Reg.NT_NOW48 then word s.nt48
  else if a = Reg.NT_NOW48 + 4 then word (s.nt48 / 2 ^ 32)
  else if Reg.NT_TXQ 0 ≤ a ∧ a < Reg.NT_TXQ 0 + 16 then ((s.txq 0).headD []).getD ((a - Reg.NT_TXQ 0) / 4) 0
  else if Reg.NT_TXQ 1 ≤ a ∧ a < Reg.NT_TXQ 1 + 16 then ((s.txq 1).headD []).getD ((a - Reg.NT_TXQ 1) / 4) 0
  else s.rd a

/-- What a read of the low word of a value removes: the head record of the supervisor queue (15 R375), the oldest transmit
timestamp (10 R251). -/
def State.readRemoves (s : State) (a : Nat) : State :=
  if a = Reg.EVT_REC 0 then { s with evt := { s.evt with supQ := s.evt.supQ.drop 1 } }
  else if a = Reg.NT_TXQ 0 then s.setTxq 0 ((s.txq 0).drop 1)
  else if a = Reg.NT_TXQ 1 then s.setTxq 1 ((s.txq 1).drop 1)
  else s

/-- A read of the word at `a` of an assigned register: what it returns and the state after it (02 R47, R56; 15 R371). -/
def State.regRead (s : State) (r : Req) (a : Nat) : Word × State :=
  if Reg.SUP_SEM 0 ≤ a ∧ a ≤ Reg.SUP_SEM 15 then s.semRead r ((a - Reg.SUP_SEM 0) / 4)
  else match wideAt a with
    | none => (s.curWord r a, s)
    | some (b, n) =>
      if a = b then
        (s.curWord r a, (s.capture r (b + 4) ((List.range (n - 1)).map fun i => s.curWord r (b + 4 * (i + 1)))).readRemoves b)
      else ((s.captured? r a).getD (s.curWord r a), s)

end Sys2Proof.Machine
end

