-- ==== Sys2Proof/Machine/Image.lean ====
section
/-! DEFINITION. The configuration image (16 R385 to R390): header, section table, and the checks of a slot in the order of R390.
An image is read as bytes of a memory from a base on. -/

namespace Sys2Proof.Machine

/-- Result codes of R390. -/
abbrev bootOk : Nat := 0
abbrev bootNoFlash : Nat := 1
abbrev bootHeader : Nat := 2
abbrev bootPart : Nat := 3
abbrev bootKey : Nat := 4
abbrev bootSignature : Nat := 5
abbrev bootRollback : Nat := 6
abbrev bootLayout : Nat := 7
abbrev bootDigest : Nat := 8
abbrev bootRead : Nat := 9

/-- The size of a slot (R385); slot B starts at it. -/
def slotSize : Nat := 0x10000000

/-- An entry of the section table (R387). -/
structure Section where
  type   : Nat
  offset : Nat
  size   : Nat
  arg    : Nat
  digest : List Byte
deriving DecidableEq, Repr

/-- The sections that a header names. -/
def sectionsOf (hdr : List Byte) : List Section :=
  (List.range (min 64 (leAt hdr 0x0C 1))).map fun i =>
    let o := 0x100 + 64 * i
    ⟨leAt hdr o 1, leAt hdr (o + 4) 4, leAt hdr (o + 8) 4, leAt hdr (o + 12) 4, slice hdr (o + 16) 48⟩

/-- The section of a type. -/
def findSection (hdr : List Byte) (ty : Nat) : Option Section := (sectionsOf hdr).find? fun x => x.type == ty

/-- The bytes of a section of the image at `base`. -/
def Section.bytes (x : Section) (m : Table Byte) (base : Nat) : List Byte := memRead m (base + x.offset) x.size

/-- The public key `k` of a header. -/
def pubKey (hdr : List Byte) (k : Nat) : List Byte := slice hdr (if k = 0 then 0x20 else 0x81) 97

/-- KEY_IDX, ROLLBACK and BUILD of a header. -/
def hdrKey (hdr : List Byte) : Nat := leAt hdr 0x0D 1
def hdrRollback (hdr : List Byte) : Nat := leAt hdr 0x0E 1
def hdrBuild (hdr : List Byte) : Nat := leAt hdr 0x10 4

/-- Entry `n` of the reserved regions of HBMCFG, which follow the nine mapping words (R387): base in MiB, size in MiB, kind. -/
def rsvEntry (cfg : List Byte) (n : Nat) : Nat × Nat × Nat :=
  let b := leAt cfg (36 + 8 * n) 4
  let z := leAt cfg (40 + 8 * n) 4
  (b % 2 ^ 14, z % 2 ^ 15, z / 2 ^ 28)

/-- The region of a kind. -/
def rsvOfKind (cfg : List Byte) (k : Nat) : Option (Nat × Nat) :=
  ((List.range 8).map (rsvEntry cfg)).findSome? fun e => if e.2.2 = k ∧ e.2.1 ≠ 0 then some (e.1, e.2.1) else none

/-- Do two intervals (start, length) overlap? -/
def overlap (a b : Nat × Nat) : Bool := decide (a.1 < b.1 + b.2) && decide (b.1 < a.1 + a.2)

/-- Does some pair of a list of intervals overlap? -/
def anyOverlap : List (Nat × Nat) → Bool
  | [] => false
  | x :: xs => xs.any (overlap x) || anyOverlap xs

/-- Is the size of a region, in MiB, one that its kind may have (12 R301)? -/
def kindSizeOk (kind mib : Nat) : Bool :=
  match kind with
  | 1 => mib == 256
  | 2 => decide (16 ≤ mib) && decide (mib ≤ 1024)
  | 3 => decide (mib ≤ 64)
  | _ => true

/-- Does HBMCFG break 12 R301: regions that overlap, extend beyond 16 GiB, or have another size than their kind? -/
def rsvBad (cfg : List Byte) : Bool :=
  let rs := ((List.range 8).map (rsvEntry cfg)).filter fun e => e.2.2 != 0 && e.2.1 != 0
  rs.any (fun e => decide (16384 < e.1 + e.2.1) || !(kindSizeOk e.2.2 e.2.1)) || anyOverlap (rs.map fun e => (e.1, e.2.1))

/-- The registers that CONFIG may not address (R389). -/
def configForbidden (a : Nat) : Bool :=
  decide (0x10000000 ≤ a ∧ a < 0x10002000) || decide (0x15004000 ≤ a ∧ a < 0x15008000)
    || decide (0x1C000010 ≤ a ∧ a < 0x1C000080)

/-- The entries of CONFIG: address and value (R389). -/
def configEntries (bs : List Byte) : List (Nat × Word) :=
  (List.range (bs.length / 8)).map fun i => (leAt bs (8 * i) 4, word (leAt bs (8 * i + 4) 4))

/-- Number of bits set in an ARG. -/
def argCount (x : Section) (n : Nat) : Nat := popCount n x.arg

/-- Does a section exceed its destination, or break the rules of its type (R387, R388)? -/
def sectionBad (cfg : List Byte) (x : Section) : Bool :=
  let region := fun k off => match rsvOfKind cfg k with
    | none => true
    | some r => decide (r.2 * 2 ^ 20 < off + x.size)
  match x.type with
  | 1 => decide (0x100000 < x.size)
  | 2 => decide (0x1000 + 16 * 0x40000 < x.size)
  | 3 => decide (argCount x 16 * 6150 < x.size) || decide (x.arg / 2 ^ 13 % 8 ≠ 7)
  | 4 => decide (100 < x.size)
  | 6 => decide (16 * 14336 < x.size)
  | 7 => region 3 0
  | 8 => decide (argCount x 32 * 24576 + 8 * 2048 < x.size)
  | 9 => decide (x.size ≠ argCount x 16 * 1024) || decide (x.arg / 2 ^ 16 ≠ 0)
  | 10 => region 4 0
  | 11 => region 5 (x.arg * 2 ^ 20)
  | 12 => region 5 (x.arg * 2 ^ 20)
  | _ => false

/-- Does LAYOUT hold for the image of `hdr` at `base` (R388, R389)? -/
def layoutOk (m : Table Byte) (base : Nat) (hdr : List Byte) : Bool :=
  let xs := sectionsOf hdr
  let bytesOf := fun ty => ((findSection hdr ty).map fun x => x.bytes m base).getD []
  let cfg := bytesOf 4
  let supers := (xs.filter fun x => x.type == 11 || x.type == 12).map fun x => (x.arg * 2 ^ 20, x.size)
  decide (1 ≤ leAt hdr 0x0C 1 ∧ leAt hdr 0x0C 1 ≤ 64)
    && !(anyOverlap (xs.map fun x => (x.offset, x.size)))
    && xs.all (fun x => decide (x.offset + x.size ≤ leAt hdr 8 4))
    && xs.all (fun x => decide (1 ≤ x.type ∧ x.type ≤ 12))
    && (List.range 13).all (fun ty => decide ((xs.filter fun x => x.type == ty).length ≤ 1))
    && (List.range 7).all (fun i => (findSection hdr (i + 1)).isSome)
    && !(xs.any (sectionBad cfg)) && !(rsvBad cfg) && !(anyOverlap supers)
    && !((configEntries (bytesOf 5)).any fun e => configForbidden e.1)

/-- Does the SHA-384 of every section of the listed types equal its DIGEST? -/
def digestsOk (m : Table Byte) (base : Nat) (hdr : List Byte) (types : List Nat) : Bool :=
  (sectionsOf hdr).all fun x => !(types.contains x.type) || Config.sha384 (x.bytes m base) == x.digest

/-- The types that phase 4 loads, and those of phase 7 (R387, R394). -/
def onChipTypes : List Nat := [1, 2, 3, 4, 5, 6, 8, 9]
def hbmTypes : List Nat := [7, 10, 11, 12]

/-- Check 0x04: the hash of the signing key is fused and the key is not revoked; in TEST it is skipped while neither hash is
fused (R390). -/
def keyOk (lc : LcState) (f : Fuses) (hdr : List Byte) : Bool :=
  (decide (lc = .test) && f.hash0.isNone && f.hash1.isNone) ||
    (decide (hdrKey hdr ≤ 1) && !(bit f.revoked (hdrKey hdr)) &&
      decide ((if hdrKey hdr = 0 then f.hash0 else f.hash1) = some (Config.sha384 (pubKey hdr (hdrKey hdr)))))

/-- Check 0x05: SIG verifies over header bytes 0x0000 to 0x10FF. -/
def signatureOk (hdr : List Byte) : Bool :=
  Config.ecdsaVerify (pubKey hdr (hdrKey hdr)) (slice hdr 0x1100 96) (Config.sha384 (hdr.take 0x1100))

/-- The result of the checks 0x02 to 0x08 on the image at `base`, in the order of R390; `types` are the sections that are
loaded, `torn` whether the slot is only partly written (R405). -/
def checkImage (m : Table Byte) (base : Nat) (lc : LcState) (f : Fuses) (types : List Nat) (torn : Bool) : Nat :=
  let hdr := memRead m base 8192
  if leAt hdr 0 4 ≠ 0x4C525849 ∨ leAt hdr 4 2 ≠ 1 ∨ leAt hdr 8 4 < 8192 ∨ slotSize < leAt hdr 8 4 then bootHeader
  else if leAt hdr 6 2 ≠ 0x5120 then bootPart
  else if keyOk lc f hdr = false then bootKey
  else if signatureOk hdr = false then bootSignature
  else if hdrRollback hdr < f.rollback then bootRollback
  else if layoutOk m base hdr = false then bootLayout
  else if torn = true ∨ digestsOk m base hdr types = false then bootDigest
  else bootOk

/-- The result of R390 for a slot of the flash. -/
def State.checkSlot (s : State) (slot : Nat) : Nat :=
  if s.boot.env.flashOk = false then bootNoFlash
  else
    let c := checkImage s.boot.flash (slot * slotSize) s.boot.lc s.boot.fuses onChipTypes (bit s.boot.partly slot)
    if c = bootOk ∧ bit s.boot.env.timeouts slot = true then bootRead else c

end Sys2Proof.Machine
end

