-- ==== Sys2Proof/Machine/Tap.lean ====
section
/-! DEFINITION. The test access port (18 R445): its instructions, what they act as, and what their data registers capture. No command of
the table reaches it, and it reaches no memory or register (log 135). -/

namespace Sys2Proof.Machine

/-- What an instruction acts as: those that drive pins act as BYPASS unless PORST_N is low. -/
def TapInstr.effect (porstLow : Bool) : TapInstr → TapInstr
  | .extest => if porstLow then .extest else .bypass
  | .extestPulse => if porstLow then .extestPulse else .bypass
  | .extestTrain => if porstLow then .extestTrain else .bypass
  | .clamp => if porstLow then .clamp else .bypass
  | .highz => if porstLow then .highz else .bypass
  | .bypass => .bypass
  | .idcode => .idcode
  | .sample => .sample

/-- IDCODE: version 1 for stepping A1, part 0x5120, manufacturer 0x2B7, and the fixed bit 0. -/
def tapIdcode : Nat := 0x1 * 2 ^ 28 + 0x5120 * 2 ^ 12 + 0x2B7 * 2 + 1

/-- The pins whose boundary cells only observe. -/
def tapObserveOnly : List String := ["FS_FAULT_N", "FS_HEARTBEAT", "KEY_REQ_A", "KEY_REQ_B"]

/-- Does the boundary register drive a pin? -/
def TestPort.drives (t : TestPort) (pin : String) : Bool :=
  !(tapObserveOnly.contains pin) && match t.ir.effect t.porstLow with
    | .extest | .extestPulse | .extestTrain | .clamp => true
    | _ => false

/-- The data register that the instruction in force selects captures: the length and the value of IDCODE and BYPASS; the boundary
register holds the levels of pins, which are not modelled. -/
def TestPort.capture (t : TestPort) : Option (Nat × Nat) :=
  match t.ir.effect t.porstLow with
  | .idcode => some (32, tapIdcode)
  | .bypass | .clamp | .highz => some (1, 0)
  | _ => none

/-- The test access port loads an instruction: nothing else of the device changes. -/
def State.tapLoad (s : State) (i : TapInstr) : State := { s with tap := { s.tap with ir := i } }

end Sys2Proof.Machine
end

