-- ==== Sys2Proof/Machine/Reset.lean ====
section
/-! DEFINITION. The resets (16 R398) and start-up up to phase 1 (16 R393, R394, R400, R404): what a reset keeps, the pending
life-cycle operation, the resolved state and the start of the ADPLL. -/

namespace Sys2Proof.Machine

/-! What a reset keeps (R398). -/

/-- The words of a list of registers carried over. -/
def State.keepRegs (s old : State) (as : List Nat) : State := as.foldl (fun s a => s.wr a (old.rd a)) s

/-- The two bits of KEY_STATUS that follow the pins (07 R174). -/
def State.keyPins (s : State) : State :=
  (s.set Reg.KEY_STATUS.REQ_A (ofBool s.key.pinA)).set Reg.KEY_STATUS.REQ_B (ofBool s.key.pinB)

/-- The life-cycle part of start-up that every reset keeps: fuses, life-cycle record, flash (R398). -/
def keepBoot (old : Boot) : Boot :=
  { resetBoot with fuses := old.fuses, lcRec := old.lcRec, flash := old.flash, partly := old.partly }

/-- A Moror port after a reset at island time `t`: its stored preset stands in MRAM. -/
def keepPort (t : Nat) (old : MrPort) : MrPort := { mr0 with preset := old.preset, since := t, outAt := t, idleAt := t }

/-- What every reset gives: MRAM, fuses and flash kept (R398), the queue of commands, what has left the device, the counter of the
free values and the levels of the input pins untouched; everything else as after reset. -/
def State.bareReset (s : State) (t : Nat) : State :=
  let n : State := { State.reset with
    pending := s.pending
    regs := []
    free := s.free
    out := s.out
    mram := s.mram
    nt := { resetNt with isl8 := t }
    evt := { State.reset.evt with tokenAt := t }
    key := { resetKey with pinA := s.key.pinA, pinB := s.key.pinB, since := t }
    boot := keepBoot s.boot
    cal := { State.reset.cal with slot0 := s.cal.slot0, slot1 := s.cal.slot1 }
    tap := s.tap }
  let n := (n.setMp 0 (keepPort t (s.mp 0))).setMp 1 (keepPort t (s.mp 1))
  n.keepRegs s [Reg.SYS_DIE_ID, Reg.SYS_DIE_ID + 4, Reg.SYS_DIE_ID + 8]

/-- The pins that a reset moves: FS_FAULT_N is asserted, THERM_TRIP_N is cleared (R396, R398). -/
def State.resetPins (n old : State) : State :=
  let n := if old.fs.faultLow then n else n.emit (.pin "FS_FAULT_N" false)
  if old.fs.thermTrip then n.emit (.pin "THERM_TRIP_N" true) else n

/-- The state that a power-on reset gives: the island is reset too and the board has restored stage 1 (R398);
the heartbeat holds its last level (17 R426). -/
def State.coldState (s : State) : State :=
  let n := ((s.bareReset 0).keyPins).wr Reg.FS_SUPPLY 3
  let n : State := { n with fs := { n.fs with hbLevel := s.fs.hbLevel }, tap := State.reset.tap }
  n.resetPins s

/-- The state that a system reset gives: the island keeps running, trimmed and with its clock, its self-test, its heartbeat, its
sampler of the pair and a test pulse; the rails stay as they are (R398, 17 R426). -/
def State.warmState (s : State) : State :=
  let t := s.isl
  let n := s.bareReset t
  let req := s.flag Reg.KEY_STATUS.HW_REQ
  let n : State := { n with
    key := { n.key with since := s.key.since, deb := s.key.deb, reqPrev := req }
    fs := { State.reset.fs with
      assertedAt := if s.fs.faultLow then s.fs.assertedAt else t
      testEnd := s.fs.testEnd
      hbLevel := s.fs.hbLevel
      hbRun := s.fs.hbRun
      hbAt := s.fs.hbAt
      selftestAt := s.fs.selftestAt }
    pwr := { n.pwr with on := s.pwr.on } }
  let n := (n.keepRegs s [Reg.KEY_STATUS, Reg.FS_TEST, Reg.FS_SELFTEST, Reg.FS_SUPPLY]).set Reg.KEY_STATUS.ACTIVE 0
  let n := (n.set Reg.FS_STATUS.HB_RUN (ofBool s.fs.hbRun)).set Reg.SYS_BOOT_CTRL.RESCUE_NEXT (s.get Reg.SYS_BOOT_CTRL.RESCUE_NEXT)
  let n := (n.set Reg.FS_CAUSE.KEY_INPUT (ofBool (s.flag Reg.KEY_STATUS.INPUT_FAULT))).set Reg.FS_CAUSE.TEST
    (ofBool s.fs.testEnd.isSome)
  n.resetPins s

/-! The head of the fault log (15 R379). -/

/-- The slots of the ring in which something is listed. -/
def logSlots (m : Table Byte) : List Nat :=
  m.foldl (fun l e =>
    let i := (e.1 - logBase) / 64
    if logBase ≤ e.1 ∧ e.1 < logBase + 0x100000 ∧ l.head? ≠ some i then i :: l else l) []

/-- The LOGSEQ of slot `i` if its entry is valid. -/
def logValid (m : Table Byte) (i : Nat) : Option Nat :=
  let e := memRead m (logBase + 64 * i) 64
  if crc32c (e.take 60) = leAt e 60 4 then some (leAt e 32 4) else none

/-- The valid entry with the greatest LOGSEQ by signed 32-bit difference: its slot and LOGSEQ. -/
def logNewest (m : Table Byte) : Option (Nat × Nat) :=
  (logSlots m).foldl (fun b i => match logValid m i, b with
    | none, _ => b
    | some q, none => some (i, q)
    | some q, some (j, r) => if 0 < signed 32 (q + 2 ^ 32 - r) then some (i, q) else some (j, r)) none

/-- The head follows the newest valid entry. -/
def State.logFind (s : State) : State :=
  match logNewest s.mram with
  | none => s
  | some (i, q) => (s.set Reg.EVT_LOG_STATUS.HEAD ((i + 1) % 16384)).set Reg.EVT_LOG_SEQ.LOGSEQ q

/-! The life cycle at phase 0 (R400, R404). -/

/-- R400: the state that fuses and record resolve to. -/
def resolveLc (f : Fuses) (r : LcRec) : LcState :=
  if f.retired then .retired else if f.testDone = false then .test else if r.service then .service else .field

/-- LC_STATE, LC_FUSE and LC_SLOT. -/
def State.showLc (s : State) : State :=
  let f := s.boot.fuses
  let r := s.boot.lcRec
  let s := (s.set Reg.LC_STATE.STATE s.boot.lc.code).set Reg.LC_STATE.PENDING r.op
  let s := s.wr Reg.LC_FUSE (word (f.rollback % 64 + 2 ^ 8 * ofBool f.testDone + 2 ^ 9 * ofBool f.retired + 2 ^ 10 * ofBool f.hash0.isSome
    + 2 ^ 11 * ofBool f.hash1.isSome + 2 ^ 12 * (f.revoked % 4)))
  s.wr Reg.LC_SLOT (word (r.confirmed % 4 + 2 ^ 8 * (r.preferred % 2) + 2 ^ 9 * ofBool r.trial + 2 ^ 16 * (r.tries % 4)))

/-- The life-cycle record replaced. -/
def State.setLc (s : State) (r : LcRec) : State := ({ s with boot := { s.boot with lcRec := r } }).showLc

/-- Step 1 of R404: the MRAM regions that R401 wipes for an operation. -/
def State.lcWipe (s : State) (op : Nat) : State :=
  let m := if op = 1 ∨ op = 2 ∨ op = 3 ∨ op = 4 then s.mram.dropRange 0x220000 0x5E0000 else s.mram
  if op = 4 then
    let s : State := { s with
      mram := (m.dropRange 0xE0000 0x20000).dropRange 0x200000 0x10000
      cal := { s.cal with slot0 := none, slot1 := none } }
    (s.setMp 0 { s.mp 0 with preset := none }).setMp 1 { s.mp 1 with preset := none }
  else { s with mram := m }

/-- The fuses once an operation has been programmed (R401). -/
def lcFuses (r : LcRec) (f : Fuses) : Fuses :=
  match r.op with
  | 1 => { f with testDone := true }
  | 4 => { f with retired := true }
  | 5 => { f with rollback := max f.rollback (min 63 r.arg) }
  | 6 => { f with revoked := setBit f.revoked (r.arg % 2) }
  | 7 => { f with hash0 := r.hashes.head?, hash1 := (r.hashes.drop 1).head? }
  | _ => f

/-- R404: a pending operation is carried out. `fails` when the majority of a fuse bit cannot be reached; fuses already programmed are
skipped, so that an operation without a new fuse cannot fail. -/
def State.lcCarryOut (s : State) (fails : Bool) : State :=
  let r := s.boot.lcRec
  if r.op = 0 then s
  else
    let s := s.lcWipe r.op
    let f := s.boot.fuses
    let f' := lcFuses r f
    let old := resolveLc f r
    let done := decide (f' = f) || !fails
    let r' : LcRec := { r with op := 0, arg := 0, hashes := [] }
    let s : State := if done then
        { s with boot := { s.boot with
            fuses := f', lcRec := { r' with service := if r.op = 2 then true else if r.op ≤ 4 then false else r.service } } }
      else { s with boot := { s.boot with lcRec := r' } }
    let new := resolveLc s.boot.fuses s.boot.lcRec
    s.post 0x0104 sevWarn (p1 r.op ++ p1 old.code ++ p1 new.code ++ pb (!done))

/-! Start-up (R393, R394). -/

/-- The start mode in force: RESCUE_NEXT acts as 3, and 5 to 7 act as 0 (R393). -/
def startMode (strap : Nat) (byNext : Bool) : Nat := if byNext then 3 else if 5 ≤ strap % 8 then 0 else strap % 8

/-- Phase 0: the nonce of this start, the pending operation, the resolved life cycle. -/
def State.phase0 (s : State) (e : BootIn) : State :=
  let (n, s) := s.fresh 64
  let s := (s.wr Reg.LC_NONCE (word n)).wr (Reg.LC_NONCE + 4) (word (n / 2 ^ 32))
  let s := s.logFind.lcCarryOut e.fuseFails
  let s : State := { s with boot := { s.boot with lc := resolveLc s.boot.fuses s.boot.lcRec } }
  s.showLc.set Reg.SYS_BOOT_STATUS.MODE e.mode

/-- Phase 1: the ADPLL starts on REFCLK, or on the forwarded clock of port A if REFCLK is not valid; the calibration of the stored
record is in force, and a missing or invalid record is reported. -/
def State.phase1 (s : State) (e : BootIn) : State :=
  let s := s.set Reg.SYS_BOOT_STATUS.PHASE 1
  let s := (s.setRefOk false e.refclk).setRefOk true e.mra
  let ref := !e.refclk && e.mra
  let s : State := ({ s with clk := { s.clk with ref := ref } }).set Reg.CLK_STATUS.REF (ofBool ref)
  let s := (s.setClk .search 0).calLoad
  if (Config.anchorSlot s.anchorMram).isNone then s.post 0x0E23 sevError (p1 0 ++ p1 0 ++ p4 0) else s

/-- Start-up from phase 0 of a state just reset, for one cause of SYS_RESET_CAUSE. In the start mode hold the boot hardware stops
after the fuse read. -/
def State.startUp (s : State) (cause : Field) (e : BootIn) : State :=
  let s := s.set cause 1
  let byNext := s.flag Reg.SYS_BOOT_CTRL.RESCUE_NEXT
  let m := startMode e.mode byNext
  let s : State := { s with boot := { s.boot with loading := true, mode := m, byNext := byNext, startAt := s.isl, env := e } }
  let s := s.post 0x0103 sevInfo (p4 (s.rd Reg.SYS_RESET_CAUSE).toNat)
  let s := s.phase0 e
  if m = 4 then s.set Reg.SYS_BOOT_STATUS.PHASE 11 else s.phase1 e

/-- A power-on reset. -/
def State.powerOn (s : State) (e : BootIn) : State := s.coldState.startUp Reg.SYS_RESET_CAUSE.POWER_ON e

/-- A system reset for a cause. -/
def State.sysReset (s : State) (cause : Field) (e : BootIn) : State := s.warmState.startUp cause e

end Sys2Proof.Machine
end

