-- ==== Sys2Proof/Machine/Boot.lean ====
section
/-! DEFINITION. Start-up from phase 2 on and the life cycle (16): slot choice, the load of the on-chip and of the HBM sections,
RESCUE, the operations of LC_CMD, the SYS and LC registers, and the power-down of 14 R356. -/

namespace Sys2Proof.Machine

/-! The load of the on-chip sections (16 R387, R389, R394). -/

/-- The bytes of a section of the slot at `base` of the flash; none when the image has none. -/
def State.sect (s : State) (hdr : List Byte) (base ty : Nat) : Option (Nat × List Byte) :=
  (findSection hdr ty).map fun x => (x.arg, x.bytes s.boot.flash base)

/-- KEYSTONE: a page record with its data, its words without their reserved bits (00 R10); the page is present when its CRC is
correct (07 R171). -/
def State.loadPage (s : State) (bs : List Byte) (g : Nat) : State :=
  let o := 128 * g
  let n := leAt bs (o + 4) 4 % 8192
  let h := leAt bs (o + 6) 2 % 8192
  if leAt bs (o + 0x6A) 1 = 0 then s
  else
    let xy := fun i => word (leAt bs i 4) &&& 0x1FFF1FFF
    let s := (s.wr (Reg.KEY_PAGE_POS g) (xy o)).wr (Reg.KEY_PAGE_SIZE g) (xy (o + 4))
    let s := (s.wr (Reg.KEY_PAGE_CFG g) (word (leAt bs (o + 8) 4) &&& 3)).wr (Reg.KEY_PAGE_CRC g) (word (leAt bs (o + 12) 4))
    let s : State := { s with key := { s.key with
      store := memWrite s.key.store (0x40000 * g) (slice bs (0x1000 + 0x40000 * g) ((n * h + 1) / 2))
      palette := (List.range 15).foldl (fun t e =>
        t.setMany (fun _ => 0) (g * 64 + (e + 1) * 4) [leAt bs (o + 16 + 6 * e) 2, leAt bs (o + 18 + 6 * e) 2, leAt bs (o + 20 + 6 * e) 2])
        s.key.palette } }
    if s.pageCrcOk g then s.set Reg.KEY_PAGES.PRESENT (setBit (s.get Reg.KEY_PAGES.PRESENT) g) else s

/-- KEYSTONE, with the island's copy of the alarm mask (17 R417). -/
def State.loadKeystone (s : State) (bs : List Byte) : State :=
  let s := (List.range 16).foldl (fun s g => s.loadPage bs g) s
  let s := s.set Reg.KEY_ALARM_MASK.PAGES (leAt bs 0x800 4)
  { s with fs := { s.fs with alarmCopy := s.get Reg.KEY_ALARM_MASK.PAGES } }

/-- PLUT: the sets that ARG names, one after another (07 R183). -/
def State.loadPlut (s : State) (arg : Nat) (bs : List Byte) : State :=
  (s.set Reg.PORT_LUT_LOADED.LOADED arg, bs) |> fun e => ((bitsSet 16 arg).foldl (fun (a : State × List Byte) k =>
    ({ a.1 with port := { a.1.port with plut := a.1.port.plut.setMany (fun _ => 0) (k * 3075) (leValues 2 3075 a.2) } }, a.2.drop 6150)) e).1

/-- HBMCFG: the mapping words and the reserved regions (12 R299 to R301). -/
def State.loadHbmCfg (s : State) (bs : List Byte) : State :=
  let s := (List.range 4).foldl (fun s k => s.wr (Reg.HBM_MAP_PC k) (word (leAt bs (4 * k) 4 % 2 ^ 22))) s
  let s := (List.range 5).foldl (fun s k => s.wr (Reg.HBM_MAP_BK k) (word (leAt bs (16 + 4 * k) 4 % 2 ^ 15))) s
  (List.range 8).foldl (fun s n =>
    let e := rsvEntry bs n
    (s.wr (Reg.HBM_RSV_BASE n) (word e.1)).wr (Reg.HBM_RSV_SIZE n) (word (e.2.2 * 2 ^ 28 + e.2.1))) s

/-- The RO bits of the word at `a` whose reset value is the image's (R389). -/
def imageBits (a : Nat) : Nat :=
  if 0x12000000 ≤ a ∧ a < 0x12001000 ∧ a % 0x80 = 0 then 2
  else if a = Reg.LAYER_LUT_LOADED then 0xFFFFFFFF
  else if a = Reg.NEC_CTX_BASE ∨ a = Reg.NEC_RING_BASE then 0x3FFF
  else if a = Reg.NEC_RING_SIZE then 0x7FF
  else if a = Reg.PORT_LUT_LOADED then 0xFFFF
  else if Reg.PIER_GEOM 0 ≤ a ∧ a ≤ Reg.PIER_GEOM 511 ∧ (a - Reg.PIER_GEOM 0) % 0x40 = 0 then 0x7F7F1FFF
  else if a = Reg.CAL_QOFF then 0xFFFFFFFF
  else 0

/-- An entry of CONFIG: a write by the supervisor, with the differences of R389. -/
def State.configWrite (s : State) (a : Nat) (v : Word) : State :=
  if (specOf a).isNone then s
  else if imageBits a ≠ 0 then s.wr a (mergeBits (s.rd a) v (imageBits a))
  else if rwsMask a ≠ 0 then s.shadowPut .supervisor a v
  else if a < 0x12001000 ∧ 0x12000000 ≤ a ∧ a % 0x80 = 0x58 then
    (let n := (a - 0x12000000) / 0x80
     s.fenceWrite (s.layerOwner n) n v)
  else s.blockWrite .sup a v

/-- CONFIG in the order of its entries. Then PIER_NTF follows the FLIPLAT values (08 R202), the piers with a tile that are enabled leave
DOWN (08 R206), and a GATE_EN of 1 validates the active banks (09 R455). -/
def State.loadConfig (s : State) (bs : List Byte) : State :=
  let s := (configEntries bs).foldl (fun s e => s.configWrite e.1 e.2) s
  let s := (s.set Reg.PIER_NTF.NTF (s.ntfOf none)).pierEnables
  if s.flag Reg.VDT_CTRL.GATE_EN then s.gateAll true else s

/-- PRELUT: the LUT slots that ARG names, then the palettes (03 R80). -/
def State.loadPrelut (s : State) (arg : Nat) (bs : List Byte) : State :=
  let e := (bitsSet 32 arg).foldl (fun (a : Table Nat × List Byte) k =>
    (a.1.setMany (fun _ => 0) (k * 12288) (leValues 2 12288 a.2), a.2.drop 24576)) (s.layers.lut, bs)
  let pal := (List.range (min 8 (e.2.length / 2048))).foldl (fun (t : Table Nat) m =>
    t.setMany (fun _ => 0) (m * 256) (leValues 8 256 (e.2.drop (2048 * m)))) s.layers.pal
  ({ s with layers := { s.layers with lut := e.1, pal := pal } }).set Reg.LAYER_LUT_LOADED.LOADED arg

/-- SCALER: the sets that ARG names; a set that is not present is the single tap (R387). -/
def State.loadScaler (s : State) (arg : Nat) (bs : List Byte) : State :=
  let e := (bitsSet 16 arg).foldl (fun (a : Table Int × List Byte) c =>
    (a.1.setMany coefDefault (c * 512) ((leValues 2 512 a.2).map (signed 14)), a.2.drop 1024)) (s.layers.coef, bs)
  { s with layers := { s.layers with coef := e.1 } }

/-- Phase 4: the sections load in ascending TYPE, and the Keystone contents are locked (07 R173, 17 R418). -/
def State.loadSections (s : State) (hdr : List Byte) (base : Nat) : State :=
  let f := fun (s : State) ty (g : State → Nat → List Byte → State) => match s.sect hdr base ty with
    | none => s
    | some e => g s e.1 e.2
  let s := f s 1 fun s _ bs => { s with tcm := memWrite s.tcm 0 bs }
  let s := f s 2 fun s _ bs => s.loadKeystone bs
  let s := f s 3 fun s arg bs => s.loadPlut arg bs
  let s := f s 4 fun s _ bs => s.loadHbmCfg bs
  let s := f s 5 fun s _ bs => s.loadConfig bs
  let s := f s 6 fun s _ bs => { s with layers := { s.layers with recipe := memWrite s.layers.recipe 0 bs } }
  let s := f s 8 fun s arg bs => s.loadPrelut arg bs
  let s := f s 9 fun s arg bs => s.loadScaler arg bs
  let s : State := { s with key := { s.key with codes := s.buildCodes } }
  { s with key := { s.key with lockCrc := s.lockedCrcs } }

/-! Slot choice (16 R392, R393). -/

/-- Is the trial of PREFERRED exhausted? -/
def LcRec.exhausted (r : LcRec) : Bool := r.trial && r.tries == 3

/-- The slots that a start mode tries, in order. -/
def slotOrder (mode : Nat) (r : LcRec) : List Nat :=
  let p := r.preferred % 2
  match mode with
  | 0 => if r.exhausted = true ∧ bit r.confirmed (1 - p) = true then [1 - p, p] else [p, 1 - p]
  | 1 => [0]
  | 2 => [1]
  | _ => []

/-- The slots of a list up to the first that passes R390, each with its result. -/
def State.trySlots (s : State) : List Nat → List (Nat × Nat)
  | [] => []
  | n :: ns =>
    let c := s.checkSlot n
    if c = bootOk then [(n, c)] else (n, c) :: s.trySlots ns

/-- RESULT_A or RESULT_B. -/
def State.setResult (s : State) (slot code : Nat) : State :=
  if slot = 0 then s.set Reg.SYS_BOOT_STATUS.RESULT_A code else s.set Reg.SYS_BOOT_STATUS.RESULT_B code

/-- SYS_BOOT_STATUS.TRIAL: the slot in use is PREFERRED and on trial. -/
def State.showTrial (s : State) : State :=
  s.set Reg.SYS_BOOT_STATUS.TRIAL
    (ofBool (s.boot.lcRec.trial && s.get Reg.SYS_BOOT_STATUS.SLOT == s.boot.lcRec.preferred % 2 && !s.boot.rescue))

/-- EV_BOOT_SLOT: slot, RESULT, slot used instead (R410). -/
def State.postSlot (s : State) (slot result used : Nat) : State := s.post 0x0102 sevError (p1 slot ++ p1 result ++ p1 used)

/-- What the use of slot `u` does to the life-cycle record (R392), `tried` in order. -/
def State.useSlot (s : State) (u : Nat) (tried : List (Nat × Nat)) : State :=
  let r := s.boot.lcRec
  let p := r.preferred % 2
  let s := tried.foldl (fun s e => if e.2 = bootOk then s else s.postSlot e.1 e.2 u) s
  if u = p then
    if r.trial then
      let s := if r.exhausted then s.postSlot u bootOk u else s
      s.setLc { r with tries := min 3 (r.tries + 1) }
    else s
  else if r.exhausted = true ∧ s.boot.mode = 0 ∧ bit r.confirmed u = true ∧ (tried.head?.map (·.1)) = some u then
    s.setLc { r with preferred := u, trial := false, tries := 0 }
  else s

/-! The supervisor's release (16 R394, R405). -/

/-- The event unit starts: what arose before is posted now (R410). -/
def State.flushEvents (s : State) : State :=
  let es := s.boot.events
  es.foldl (fun s e => s.post e.1 e.2.1 e.2.2) { s with boot := { s.boot with loading := false, events := [] } }

/-- The supervisor leaves reset with the watchdog running (15 R381). -/
def State.release (s : State) (phase : Nat) : State :=
  let s : State := { s with sup := { s.sup with released := true, wdtOn := true, wdtAt := s.isl, wdtWarned := false } }
  (s.set Reg.SYS_BOOT_STATUS.PHASE phase).flushEvents

/-- The rescue firmware starts: RESCUE (cause 0 straps, 1 no slot, 2 RESCUE_NEXT) or RETIRED (R405). -/
def State.enterRescue (s : State) (cause : Nat) : State :=
  let s : State := { s with boot := { s.boot with rescue := true } }
  if s.boot.lc = .retired then (s.mrEnable 0 true).release 10
  else
    let s := (s.set Reg.SYS_BOOT_CTRL.RESCUE_NEXT 0).mrEnable 0 true
    (s.post 0x0106 sevWarn (p1 cause ++ p1 (s.get Reg.SYS_RESCUE.STATE) ++ p1 (s.get Reg.SYS_RESCUE.RESULT))).release 9

/-- SUPERVISOR_RELEASE: phases 2 to 4. -/
def State.supRelease (s : State) : State :=
  if s.boot.loading = false ∨ s.sup.released = true ∨ s.boot.mode = 4 ∨ s.deck.dev = .safeHalt then s
  else if s.boot.lc = .retired then s.enterRescue 0
  else if s.boot.mode = 3 then s.enterRescue (if s.boot.byNext then 2 else 0)
  else
    let tried := s.trySlots (slotOrder s.boot.mode s.boot.lcRec)
    let s := tried.foldl (fun s e => s.setResult e.1 e.2) s
    match tried.find? (fun e => e.2 == bootOk) with
    | none => s.enterRescue 1
    | some (u, _) =>
      let hdr := memRead s.boot.flash (u * slotSize) 8192
      let s := (s.useSlot u tried).set Reg.SYS_BOOT_STATUS.SLOT u
      let s : State := { s with boot := { s.boot with header := hdr } }
      let s := s.wr Reg.SYS_IMAGE (word (hdrRollback hdr * 2 ^ 24 + hdrKey hdr % 2 * 2 ^ 16 + hdrBuild hdr % 2 ^ 16))
      (s.showTrial.loadSections hdr (u * slotSize)).release 5

/-! Phases 6 and 7. -/

/-- HBM_GO: training starts once the ADPLL is LOCKED; with stage 2 off phases 6 and 7 are skipped (R394, R407). -/
def State.hbmGoWrite (s : State) (bySup : Bool) : State :=
  if bySup = false ∨ s.sup.released = false ∨ s.deck.dev = .safeHalt ∨ s.get Reg.HBM_STATUS.STATE ≠ 0 ∨ s.boot.hbmWait = true then s
  else if s.pwr.stageOff.contains 2 then (if s.boot.rescue then s else s.set Reg.SYS_BOOT_STATUS.PHASE 8)
  else
    let s := if s.boot.rescue then s else s.set Reg.SYS_BOOT_STATUS.PHASE 6
    if s.clk.state = .locked then s.hbmGo else { s with boot := { s.boot with hbmWait := true } }

/-- A training that waited starts with the lock. -/
def State.hbmGoLocked (s : State) : State :=
  if s.boot.hbmWait = true ∧ s.clk.state = .locked then { s with boot := { s.boot with hbmWait := false } }.hbmGo else s

/-- What waited for the wipe is served (12 R317): the stores, then the start of a clip and the descriptor of the blitter. -/
def State.serveHeld (s : State) : State := (s.serveWaiting s.hc.waiting.length).playServe.bltTake

/-- HBM_WIPE_DONE: training and wipe are complete, and phase 7 starts. -/
def State.hbmReady (s : State) (eyes : List Nat) (us : Nat) : State :=
  let st := s.get Reg.HBM_STATUS.STATE
  if (st ≠ 1 ∧ st ≠ 2) ∨ s.deck.dev = .safeHalt then s
  else
    let s := (s.wipeDone eyes us).serveHeld
    if s.boot.rescue then s else s.set Reg.SYS_BOOT_STATUS.PHASE 7

/-- The base of the reserved region of a kind (12 R301). -/
def State.rsvBase (s : State) (k : Nat) : Option Nat :=
  (List.range 8).findSome? fun n =>
    if s.get (Reg.HBM_RSV_SIZE.KIND n) = k ∧ s.get (Reg.HBM_RSV_SIZE.MIB n) ≠ 0 then some (s.get (Reg.HBM_RSV_BASE.ADDR n) * 2 ^ 20)
    else none

/-- Where a section of phase 7 goes: the region of its kind and the offset in it (R387). -/
def hbmPlace (x : Section) : Nat × Nat :=
  if x.type = 7 then (3, 0) else if x.type = 10 then (4, 0) else (5, x.arg * 2 ^ 20)

/-- A section of phase 7 is loaded; one that fails DIGEST is not used (R390). -/
def State.loadHbmSection (s : State) (base slot : Nat) (x : Section) : State :=
  let bs := x.bytes s.boot.flash base
  if Config.sha384 bs ≠ x.digest then (s.setResult slot bootDigest).postSlot slot bootDigest slot
  else match s.rsvBase (hbmPlace x).1 with
    | none => s
    | some b => s.hbmWrite (b + (hbmPlace x).2) bs

/-- BOOT_HBM_LOAD_DONE: CELLPROG, LIBRARY, UNIFORMITY and FWDATA stand in HBM. -/
def State.hbmLoaded (s : State) : State :=
  if s.get Reg.SYS_BOOT_STATUS.PHASE ≠ 7 ∨ s.deck.dev = .safeHalt then s
  else
    let slot := s.get Reg.SYS_BOOT_STATUS.SLOT
    let s := hbmTypes.foldl (fun s ty => match findSection s.boot.header ty with
      | none => s
      | some x => s.loadHbmSection (slot * slotSize) slot x) s
    (s.set Reg.SYS_BOOT_STATUS.PHASE 8).post 0x0101 sevInfo
      (p1 slot ++ p1 (s.get Reg.SYS_BOOT_STATUS.TRIAL) ++ p1 (s.get Reg.SYS_IMAGE.ROLLBACK)
        ++ c4 ((s.isl - s.boot.startAt) / oneMs))

/-! LC_CMD (16 R401 to R403). -/

/-- The 256 bytes of LC_TOKEN. -/
def State.token (s : State) : List Byte := (List.range 64).flatMap fun w => leBytes 4 (s.rd (Reg.LC_TOKEN w)).toNat

/-- Does an operation need a token in the present state (R401)? -/
def State.lcToken (s : State) (op : Nat) : Bool := op == 2 || (op == 4 && decide (s.boot.lc ≠ .test)) || op == 6

/-- Is an operation permitted from a state (R401)? -/
def lcAllowed (op : Nat) (st : LcState) : Bool :=
  match op with
  | 1 => decide (st = .test)
  | 2 => decide (st = .field)
  | 3 => decide (st = .service)
  | 5 => decide (st = .field ∨ st = .service)
  | 6 => decide (st = .field ∨ st = .service)
  | 7 => decide (st = .test)
  | _ => decide (st ≠ .retired)

/-- The argument: that of the token takes precedence (R409). -/
def State.lcArg (s : State) (op arg : Nat) : Nat := if s.lcToken op then leAt s.token 0x20 4 else arg

/-- Is the token signed for the operation by an unrevoked key; for REVOKE_KEY by the other key (R401 to R403)? -/
def State.tokenSigned (s : State) (op arg : Nat) : Bool :=
  let t := s.token
  let k := leAt t 5 1
  decide (leAt t 0 4 = 0x4C43544B) && decide (leAt t 4 1 = op) && decide (k ≤ 1) && !(bit s.boot.fuses.revoked k)
    && (op != 6 || k != arg % 2) && !(s.boot.header.isEmpty)
    && Config.ecdsaVerify (pubKey s.boot.header k) (slice t 0xA0 96) (Config.sha384 (t.take 0xA0))

/-- Does the token name this die and this start? -/
def State.tokenHere (s : State) : Bool :=
  let t := s.token
  let die := (List.range 4).flatMap fun w => leBytes 4 (s.rd (Reg.SYS_DIE_ID + 4 * w)).toNat
  let nonce := leBytes 4 (s.rd Reg.LC_NONCE).toNat ++ leBytes 4 (s.rd (Reg.LC_NONCE + 4)).toNat
  decide (slice t 8 16 = die) && decide (slice t 0x18 8 = nonce)

/-- The first cause of refusal of R402, 0 for none. -/
def State.lcCheck (s : State) (op arg : Nat) : Nat :=
  let f := s.boot.fuses
  if op = 0 ∨ 9 < op then 1
  else if lcAllowed op s.boot.lc = false then 2
  else if s.lcToken op = true ∧ s.tokenSigned op arg = false then 3
  else if s.lcToken op = true ∧ s.tokenHere = false then 4
  else if s.flag Reg.KEY_STATUS.HW_REQ = true then 5
  else if op = 6 ∧ (setBit f.revoked (arg % 2)) % 4 = 3 then 6
  else if op = 5 ∧ (arg ≤ f.rollback ∨ s.get Reg.SYS_IMAGE.ROLLBACK < arg
      ∨ bit s.boot.lcRec.confirmed (s.get Reg.SYS_BOOT_STATUS.SLOT) = false) then 7
  else if s.boot.lcRec.op ≠ 0 then 8
  else 0

/-- An accepted operation: SET_SLOT and CONFIRM_SLOT act at once, the others are recorded and reset the device 1 ms later. -/
def State.lcAccept (s : State) (op arg : Nat) : State :=
  let r := s.boot.lcRec
  if op = 8 then (s.setLc { r with preferred := arg % 2, trial := bit arg 1 }).showTrial
  else if op = 9 then
    (if s.boot.rescue then s
     else (s.setLc { r with confirmed := setBit r.confirmed (s.get Reg.SYS_BOOT_STATUS.SLOT), trial := false, tries := 0 }).showTrial)
  else
    let hashes := if op = 7 then [Config.sha384 (pubKey s.boot.header 0), Config.sha384 (pubKey s.boot.header 1)] else []
    let s := s.setLc { r with op := op, arg := arg, hashes := hashes }
    { s with boot := { s.boot with lcResetAt := some (s.isl + oneMs) } }

/-- May a requester give LC_CMD with an operation (R409)? -/
def State.lcRight (s : State) (r : Req) (op : Nat) : Bool :=
  s.actsSup r || (decide (r ≠ .ctrl ∧ (s.boot.lc = .field ∨ s.boot.lc = .service)) && (op == 2 || op == 3 || op == 4))

/-- A write of LC_CMD. -/
def State.lcCmd (s : State) (r : Req) (op argField : Nat) : State :=
  if s.lcRight r op = false then s
  else
    let arg := s.lcArg op argField
    let c := s.lcCheck op arg
    let s := s.set Reg.LC_RESULT.CODE c
    if c = 0 then s.lcAccept op arg else s.post 0x0105 sevWarn (p1 op ++ p1 c)

/-- LC_CMD_RESET: 1 ms has passed since an operation was accepted. -/
def State.lcReset (s : State) (e : BootIn) : State :=
  match s.boot.lcResetAt with
  | none => s
  | some t => if s.isl < t then s else s.sysReset Reg.SYS_RESET_CAUSE.LC e

/-! RESCUE (16 R405). -/

/-- Every section type: the check of a staged image reads all of them. -/
def allTypes : List Nat := [1, 2, 3, 4, 5, 6, 7, 8, 9, 10, 11, 12]

/-- The result of R390 for the image staged at HBM address 0. -/
def State.checkStaged (s : State) : Nat :=
  if s.boot.env.flashOk = false then bootNoFlash
  else
    let c := checkImage s.hbm 0 s.boot.lc s.boot.fuses allTypes false
    if c = bootOk ∧ s.hbmOk 0 (leAt (memRead s.hbm 8 4) 0 4) = false then bootRead else c

/-- A write of SYS_RESCUE in RESCUE; with START = 1 the staged image is checked and the slot is erased for programming. -/
def State.rescueWrite (s : State) (v : Word) : State :=
  if s.boot.rescue = false ∨ s.boot.lc = .retired ∨ s.boot.prog.isSome ∨ s.deck.dev = .safeHalt then s
  else
    let slot := bits v.toNat 24 1
    let s := s.set Reg.SYS_RESCUE.SLOT slot
    if bit v.toNat 31 = false then s
    else
      let c := s.checkStaged
      if c = bootOk then
        let s : State := { s with boot := { s.boot with prog := some slot, partly := setBit s.boot.partly slot } }
        (s.set Reg.SYS_RESCUE.STATE 2).set Reg.SYS_RESCUE.RESULT bootOk
      else (s.set Reg.SYS_RESCUE.STATE 5).set Reg.SYS_RESCUE.RESULT c

/-- The slot erased and programmed with the staged image. -/
def State.programSlot (s : State) (slot : Nat) : State :=
  let base := slot * slotSize
  let size := leAt (memRead s.hbm 8 4) 0 4
  let img := s.hbm.filter fun e => decide (e.1 < size)
  { s with boot := { s.boot with
      flash := img.foldl (fun t e => t.set zeroByte (base + e.1) e.2) (s.boot.flash.dropRange base slotSize)
      partly := clearBit s.boot.partly slot } }

/-- RESCUE_PROGRAM_DONE: programming and read-back have ended with a code, 0 for success. -/
def State.rescueDone (s : State) (result : Nat) (e : BootIn) : State :=
  match s.boot.prog with
  | none => s
  | some slot =>
    if s.deck.dev = .safeHalt then s
    else
      let s : State := { s with boot := { s.boot with prog := none } }
      if result % 256 = 0 then
        let s := (s.programSlot slot).set Reg.SYS_RESCUE.STATE 4
        (s.setLc { s.boot.lcRec with preferred := slot, trial := true }).sysReset Reg.SYS_RESET_CAUSE.RESCUE_END e
      else (s.set Reg.SYS_RESCUE.STATE 5).set Reg.SYS_RESCUE.RESULT (result % 256)

/-! The SYS and LC registers (16 R409). -/

/-- A write of SYS_RESET with the key: by the supervisor, and by REG in TEST and SERVICE. -/
def State.resetWrite (s : State) (r : Req) (v : Word) (e : BootIn) : State :=
  if bits v.toNat 16 16 ≠ 0x5A17 ∨ bit v.toNat 0 = false then s
  else match r with
    | .sup => s.sysReset Reg.SYS_RESET_CAUSE.SOFTWARE e
    | .ctrl => s
    | _ => if s.boot.lc = .test ∨ s.boot.lc = .service then s.sysReset Reg.SYS_RESET_CAUSE.HOST e else s

/-- A write of SYS or LC registers. -/
def State.writeSys (s : State) (r : Req) (a : Nat) (v : Word) : State :=
  let sup := s.actsSup r
  if a = Reg.SYS_BOOT_CTRL then
    (if sup then (let s := s.set Reg.SYS_BOOT_CTRL.RESCUE_NEXT (bits v.toNat 30 1); if bit v.toNat 31 then s.hbmGoWrite true else s)
     else s)
  else if a = Reg.SYS_RESET then s.resetWrite r v s.boot.env
  else if a = Reg.SYS_RESCUE then s.rescueWrite v
  else if a = Reg.LC_CMD then s.lcCmd r (bits v.toNat 24 8) (bits v.toNat 0 8)
  else if Reg.LC_TOKEN 0 ≤ a ∧ a ≤ Reg.LC_TOKEN 63 then
    (if sup = true ∨ s.boot.lc = .field ∨ s.boot.lc = .service then s.wr a v else s)
  else s

/-! Start without a host, power-down, supplies. -/

/-- HOSTLESS_START: Thihoger commits, sets RUN and plays the default playlist, or draws status text (16 R406). -/
def State.hostless (s : State) (clip : Option Nat) : State :=
  if s.sup.released = false ∨ s.boot.rescue = true ∨ s.deck.dev = .safeHalt then s
  else
    let s := (s.commitGo .supervisor 0 none).runWrite
    let s : State := match clip with
      | none => s
      | some a => (s.set Reg.NEC_PLAY_CLIP.ADDR a).playStart
    s.post 0x0107 sevWarn (p1 (if clip.isSome then 0 else 1))

/-- The device once VDD_CORE is off: the island and its pins go on (14 R356). -/
def State.powerless (s : State) : State :=
  let n := s.bareReset s.isl
  let n : State := { n with
    fs := s.fs
    key := { n.key with since := s.key.since, deb := s.key.deb }
    pwr := { n.pwr with on := [], down := true } }
  let n := n.keepRegs s ([Reg.KEY_STATUS, Reg.FS_STATUS, Reg.FS_CAUSE, Reg.FS_TEST, Reg.FS_SELFTEST]
    ++ (List.range 16).map Reg.FS_PIER)
  n.wr Reg.FS_SUPPLY 0

/-- POWER_DOWN: the rails go off in reverse order, then VDD_CORE and VDD_IO (14 R356). -/
def State.powerDown (s : State) : State :=
  if s.sup.released = false ∨ s.pwr.down = true ∨ s.deck.dev = .safeHalt then s
  else
    let s := s.railsOff (s.pwr.on.filter fun r => decide (2 ≤ r))
    ((s.railOp 1 false).railOp 0 false).powerless

/-- THM_POWERDOWN_WAIT: 100 ms after a thermal trip the rails go off unless Keystone has become active (14 R342). -/
def State.tripWait (s : State) : State :=
  match s.thm.tripAt with
  | none => s
  | some t =>
    if s.isl < t + 100 * oneMs ∨ s.deck.dev = .safeHalt then s
    else if s.key.active ≠ 0 then { s with thm := { s.thm with tripAt := none } }
    else s.powerDown

/-- FS_SUPPLY_FAULT: a supply outside its window for 10 µs (17 R421). Rails as in the power section: 0 VDD_IO, 1 VDD_CORE, 6 to 9 the
pier quadrants; a monitor counts only while its rail is on. -/
def State.supplyFault (s : State) (rail : Nat) (high : Bool) (e : BootIn) : State :=
  let ev := p1 rail ++ pb high
  if s.pwr.on.contains rail = false then s
  else if rail = 0 ∨ rail = 1 then (s.post 0x1103 sevSafety ev).powerOn e
  else if 6 ≤ rail ∧ rail ≤ 9 then
    (s.set Reg.FS_SUPPLY.PIER_Q (clearBit (s.get Reg.FS_SUPPLY.PIER_Q) (rail - 6))).safeHalt [(0x1103, sevSafety, ev)] 5 6
  else s

end Sys2Proof.Machine
end

