-- ==== Sys2Proof/Machine/Access.lean ====
section
/-! DEFINITION. The address map as its requesters see it (15 R364, R366 to R369; 11 R284, R285; 16 R405): registers, active views,
TCM, MRAM and the HBM window, with the rights of the life-cycle states. -/

namespace Sys2Proof.Machine

/-- How an access ends, coded as STATUS of a REG response (11 R284). -/
abbrev accOk : Nat := 0
abbrev accDenied : Nat := 1
abbrev accDecode : Nat := 2
abbrev accAlign : Nat := 3
abbrev accHbm : Nat := 4

/-- The regions of the map (15 R366). -/
inductive Region where
  | tcm | block | mram | hbm | none
deriving DecidableEq, Repr

/-- The region of an address. -/
def regionOf (a : Nat) : Region :=
  if a < 0x100000 then .tcm
  else if 0x10000000 ≤ a ∧ a < 0x20000000 then .block
  else if 0x20000000 ≤ a ∧ a < 0x20800000 then .mram
  else if 0x80000000 ≤ a ∧ a < 0xC0000000 then .hbm
  else .none

/-- The Moror port of a requester. -/
def reqPort (r : Req) : Nat := if r = .portB then 1 else 0

/-- The code of a requester as source of HBM requests (12 R319). -/
def reqSource (r : Req) : Nat :=
  match r with
  | .sup => 7
  | .portA => 8
  | .portB => 9
  | .ctrl => 8

/-- The HBM address that a requester's window gives (15 R367, 11 R284). -/
def State.windowAddr (s : State) (r : Req) (a : Nat) : Nat :=
  (if r = .sup then s.get Reg.SUP_HBM_WIN.WIN else s.get (Reg.MR_HBM_WIN.WIN (reqPort r))) * 2 ^ 30 + (a - 0x80000000)


/-- Is a block address assigned: a register word, or the active view of an RWS word? -/
def assigned (a : Nat) : Bool :=
  if isActiveView a then rwsMask (a - 0x800000) != 0 else (specOf a).isSome


/-- Does MRAM take a write at an offset from the supervisor (15 R368)? -/
def State.mramTakes (s : State) (o : Nat) : Bool :=
  if o < 0xE0000 then decide (s.boot.lc = .test ∨ s.boot.lc = .service)
  else if o < 0x100000 then true
  else if o < 0x200000 then false
  else if o < 0x210000 then true
  else if o < 0x220000 then false
  else true

/-! The rights of a REG port (11 R285, 16 R405). -/

/-- May a REG port access an address in RESCUE (16 R405)? -/
def State.rescueOk (s : State) (r : Req) (a : Nat) : Bool :=
  match regionOf a with
  | .block => decide (a < 0x10002000) || decide (a / 2 ^ 24 = 0x1A)
  | .hbm => decide (s.windowAddr r a < 0x10000000)
  | _ => false

/-- May a REG port access an address in the life-cycle state in force (11 R285)? -/
def State.regOk (s : State) (r : Req) (a : Nat) (write : Bool) : Bool :=
  match regionOf a with
  | .tcm => decide (s.boot.lc = .test) || (decide (s.boot.lc = .service) && !write)
  | .mram => decide (s.boot.lc = .test) || (decide (s.boot.lc = .service) && !write)
  | .block =>
    if s.boot.lc = .retired then !write && (decide (a < 0x10000010) || decide (a = Reg.LC_STATE)) else true
  | .hbm =>
    if s.boot.lc = .retired then false
    else if s.boot.lc = .test ∨ write = false then true
    else !(s.inReserved (s.windowAddr r a) 4)
  | .none => true

/-- May a CTRL WRITE address this word? -/
def ctrlAddr (a : Nat) : Bool :=
  let b := a / 2 ^ 24
  (decide (b = 0x11 ∨ b = 0x12 ∨ b = 0x13 ∨ b = 0x15) && rwsMask a != 0)
    || (decide (0x12000000 ≤ a ∧ a < 0x12001000) && decide (a % 0x80 = 0x58))

/-- May a requester make this access at all: the supervisor may, CTRL writes its words, and a REG port has the rights of R285? -/
def State.mayAccess (s : State) (r : Req) (a : Nat) (write : Bool) : Bool :=
  match r with
  | .sup => true
  | .ctrl => write && ctrlAddr a
  | _ => (!s.boot.rescue || decide (s.boot.lc = .retired) || s.rescueOk r a) && s.regOk r a write

/-- How an access is refused before it reaches its region: outside the map every access ends with DECODE; a region without the right
comes before the alignment, and that before an offset which no register has (log 118). -/
def State.refusal (s : State) (r : Req) (a : Nat) (write : Bool) : Nat :=
  if regionOf a = .none then accDecode
  else if s.mayAccess r a write = false then accDenied
  else if a % 4 ≠ 0 then accAlign
  else if regionOf a = .block ∧ assigned a = false then accDecode
  else accOk

/-- An access that ends with an error: the supervisor takes a load or store access fault (15 R367; log 14). -/
def State.accFault (s : State) (r : Req) (a : Nat) (write : Bool) : State :=
  if r = .sup then { s with sup := { s.sup with lastFault := some (a, write) } } else s

/-! Writes and reads. -/

/-- A write of an assigned block word; an active view takes none (02 R47). -/
def State.wordWrite (s : State) (r : Req) (a : Nat) (v : Word) : State :=
  if isActiveView a then s
  else if a < 0x10002000 then s.writeSys r a v
  else s.blockWrite r a v

/-- A read of an assigned block word. -/
def State.wordRead (s : State) (r : Req) (a : Nat) : Word × State := s.regRead r a

/-- A write through the HBM window; before the wipe it is held. -/
def State.windowWrite (s : State) (r : Req) (a : Nat) (v : Word) : State :=
  s.hbmPost (reqSource r) (s.windowAddr r a) (leBytes 4 v.toNat)

/-- A write of one word by the supervisor or a REG port: the state after it and how it ended. -/
def State.busWrite (s : State) (r : Req) (a : Nat) (v : Word) : State × Nat :=
  let c := s.refusal r a true
  if c ≠ accOk then (s.accFault r a true, c)
  else match regionOf a with
    | .tcm => ({ s with tcm := memWrite s.tcm a (leBytes 4 v.toNat) }, accOk)
    | .mram =>
      if s.mramTakes (a - 0x20000000) then ({ s with mram := memWrite s.mram (a - 0x20000000) (leBytes 4 v.toNat) }, accOk)
      else (s, accOk)
    | .block => (s.wordWrite r a v, accOk)
    | .hbm => (s.windowWrite r a v, accOk)
    | .none => (s, accDecode)

/-- A read of one word: the word, the state after it and how it ended; `f` is what a read of HBM finds in its burst. A supervisor's
load before the wipe completes waits and is answered after it, with the zeros of the wipe (12 R317; log 117). -/
def State.busRead (s : State) (r : Req) (a : Nat) (f : HbmFind) : Word × State × Nat :=
  let c := s.refusal r a false
  if c ≠ accOk then (0, s.accFault r a false, c)
  else match regionOf a with
    | .tcm => (word (leNat (memRead s.tcm a 4)), s, accOk)
    | .mram => (word (leNat (memRead s.mram (a - 0x20000000) 4)), s, accOk)
    | .block => ((s.wordRead r a).1, (s.wordRead r a).2, accOk)
    | .hbm =>
      let h := s.windowAddr r a
      if s.hbmHolds then (0, s, accOk)
      else
        let s := s.hbmAsk (reqSource r) h 4 f
        match s.hbmRead h 4 with
        | some bs => (word (leNat bs), s, accOk)
        | none => (0, s.accFault r a false, accHbm)
    | .none => (0, s, accDecode)

/-- The state after a write. -/
def State.regWrite (s : State) (r : Req) (a : Nat) (v : Word) : State := (s.busWrite r a v).1

/-- `v` with a field forced to a value: how a command that names a field writes its register. -/
def forceBits (v : Word) (f : Field) (x : Nat) : Word := putField v f x

end Sys2Proof.Machine
end

