-- ==== Sys2Proof/Machine/Host.lean ====
section
/-! DEFINITION. The classes of a Moror link above the link layer (11 R281 to R289; 15 R375): SCENE blocks, CTRL records, REG requests,
TELEM items, RELAY and the frames of port B. -/

namespace Sys2Proof.Machine

/-! TELEM (R286). -/

/-- A TELEM item: KIND, SOURCE and a body of whole words. -/
def telemItem (kind source : Nat) (body : List Byte) : List Byte :=
  leBytes 1 kind ++ leBytes 1 (body.length / 4) ++ leBytes 2 source ++ body

/-- The upstream port that TELEM leaves on: A, otherwise B (15 R375). -/
def State.upPort (s : State) : Option Nat := if s.upstream 0 then some 0 else if s.upstream 1 then some 1 else none

/-- CTRL_ACK on port `x`: the record's TYPE, status 0 OK, 1 TYPE, 2 LENGTH, 3 ADDRESS, the SEQ of a COMMIT, TAG or VALUE. -/
def State.ctrlAckItem (s : State) (x ty status seq v : Nat) : State :=
  s.mrQueue x 5 true true (telemItem 2 0xFFFF (leBytes 1 ty ++ leBytes 1 status ++ leBytes 2 seq ++ leBytes 4 v))

/-- EVENT_HOST_SEND: the head record of the host queue leaves, while an upstream port is ACTIVE and has TELEM credit (15 R375). -/
def State.eventHostSend (s : State) : State :=
  match s.evt.hostQ, s.upPort with
  | r :: rs, some x =>
    let item := telemItem 1 0xFFFF r.bytes
    if (s.mp x).mayStart ⟨5, true, true, 0, item, 0⟩ then
      ({ s with evt := { s.evt with hostQ := rs } }).mrQueue x 5 true true item
    else s
  | _, _ => s

/-- `n` bytes of padding to a whole word. -/
def padWord (b : List Byte) : List Byte := b ++ List.replicate ((4 - b.length % 4) % 4) 0

/-- TILE_TELEM: a tile-maker's TELEM packet is forwarded to the host (08 R197). -/
def State.tileTelem (s : State) (p kind : Nat) (payload : List Byte) : State :=
  if kind < 0x80 ∨ 0xFF < kind then s
  else match s.upPort with
    | none => s
    | some x => s.mrQueue x 5 true true (telemItem 3 p (leBytes 1 kind ++ leBytes 3 0 ++ padWord payload))

/-- What the pier does with a packet of a burst that its TURN has ended (08 R200); `echo` is the ECHO_REQ sent before the burst. -/
def State.takeRev (s : State) (p : Nat) (echo : Option Nat) : RevPkt → State
  | .ack frame crc ctrlAck _ hogelErr missed => s.frameAck p frame crc ctrlAck hogelErr missed
  | .echo id rtt res => s.echoRep p echo id rtt res
  | .nak seq => s.nakReceive p seq
  | .declare d => s.declare p d
  | .result errors bits => s.testResult p errors bits
  | .tile kind payload => s.tileTelem p kind payload
  | .plain _ _ => s

/-- REVERSE_TURN_RECEIVE: a TURN with bytes D1 to D7, DIR 1 and a correct CRC-8, received under block lock, ends the burst, and the pier
takes its packets in order; `rx` is what a reverse test that runs brought in their place (08 R193, R200, R211). -/
def State.turnReceive (s : State) (p : Nat) (seen : List BlockSeen) (d : List Byte) (rx : List Bool) : State :=
  match (s.pr p).win with
  | none => s
  | some w =>
    if w.turned || !(lockAfter noLock seen) || !(crcOk d) || !(bit (d.getD 0 0).toNat 0) then s
    else
      let s := s.setPr p { s.pr p with win := some { w with turned := true, burst := [] }, missRun := 0 }
      let s := (s.set (Reg.PIER_STATUS.RX_LOCK p) 1).resumeForward p
      let t := w.burst.foldl (fun s k => s.takeRev p w.echo k) s
      (if (s.pr p).test.any (fun x => x.running && x.reverse) then t.reverseResult p rx else t).discoverAgain p

/-! SCENE (R282). -/

/-- A dropped SCENE block: counted, and reported at most once per second. -/
def State.sceneDrop (s : State) (x : Nat) : State :=
  let s := s.bump (Reg.MR_COUNT_DROP.SCENE_BAD x)
  let ts := s.withNow (s.mp x).dropScene
  let s := s.setMp x { s.mp x with dropScene := ts }
  s.postOncePer oneSecond (0x0B030 + x) 0x0B03 sevWarn (p1 x ++ c2 ts.length)

/-- The bytes of a SCENE frame go to the open block of the port. -/
def State.scenePart (s : State) (x : Nat) (first last : Bool) (payload : List Byte) : State :=
  let p := s.mp x
  let s := if first = true ∧ p.scene.isSome then s.sceneDrop x else s
  if first = false ∧ p.scene.isNone then s.sceneDrop x
  else
    let b := (if first then [] else p.scene.getD []) ++ payload
    if last = false then s.setMp x { s.mp x with scene := some b }
    else
      let s := s.setMp x { s.mp x with scene := none }
      if b.length < 24 ∨ b.length ≠ 24 + (necHdr b).len then s.sceneDrop x
      else s.ringPut b

/-- SCENE_FRAME_RECEIVE. -/
def State.sceneFrame (s : State) (x seq : Nat) (first last : Bool) (payload : List Byte) (e : RxEnd) : State :=
  if s.deck.dev = .safeHalt then s
  else
    let a := s.mrAccept x ⟨1, seq, first, last, payload, e⟩
    if a.2 then (a.1.scenePart x first last payload).announce x 1 else a.1

/-! CTRL (R283). -/

/-- A WRITE record: shadows or a fence written as HOST, or skipped with ADDRESS. -/
def State.ctrlWrite (s : State) (x a : Nat) (ws : List Word) : State :=
  let as := (List.range ws.length).map fun i => a + 4 * i
  if (if ws.isEmpty then [a] else as).all ctrlAddr then
    (as.zip ws).foldl (fun s e => s.blockWrite .ctrl e.1 e.2) s
  else s.ctrlAckItem x 1 3 0 0

/-- A COMMIT record: a GO by HOST, answered with the SEQ. -/
def State.ctrlCommit (s : State) (x tag : Nat) (timed : Bool) (target : Nat) : State :=
  let s := s.commitGo .host tag (if timed then some (target % m48) else none)
  s.ctrlAckItem x 2 0 (s.get Reg.DECK_COMMIT_SEQ.LAST) (tag % 256)

/-- A MARK record. -/
def State.ctrlMark (s : State) (x v : Nat) : State := s.ctrlAckItem x 4 0 0 v

/-- What the CTRL_ACK of a skipped record carries in bytes 4 to 7: the TAG of a COMMIT or the VALUE of a MARK, otherwise 0 (R286). -/
def ackValue (ty arg : Nat) (body : List Byte) : Nat := if ty = 2 then arg % 256 else if ty = 4 then leAt body 0 4 else 0

/-- A record skipped for a wrong WORDS value. -/
def State.ctrlLength (s : State) (x ty arg : Nat) (body : List Byte) : State :=
  s.ctrlAckItem x ty (if ty < 1 ∨ 4 < ty then 1 else 2) 0 (ackValue ty arg body)

/-- A record with TYPE `ty`, bytes 2 and 3 `arg` and body. -/
def State.ctrlRecord (s : State) (x ty arg : Nat) (body : List Byte) : State :=
  let n := body.length / 4
  if ty = 1 then (if n = 0 then s.ctrlLength x 1 arg body else s.ctrlWrite x (leAt body 0 4) (leWords (n - 1) (body.drop 4)))
  else if ty = 2 then (if n = 2 then s.ctrlCommit x (arg % 256) (bit arg 8) (leAt body 0 6) else s.ctrlLength x 2 arg body)
  else if ty = 3 then (if n = 0 then s.commitCancel .host else s.ctrlLength x 3 arg body)
  else if ty = 4 then (if n = 1 then s.ctrlMark x (leAt body 0 4) else s.ctrlLength x 4 arg body)
  else s.ctrlAckItem x ty 1 0 0

/-- The records of a CTRL frame in order; one that the frame's end cuts has a wrong WORDS value. `fuel` bounds their number. -/
def State.ctrlRecords (s : State) (x : Nat) : Nat → List Byte → State
  | 0, _ => s
  | _ + 1, [] => s
  | fuel + 1, b :: bs =>
    let f := b :: bs
    let n := 4 * (leAt f 1 1)
    if f.length < 4 ∨ f.length < 4 + n then s.ctrlLength x b.toNat (leAt f 2 2) (f.drop 4)
    else (s.ctrlRecord x b.toNat (leAt f 2 2) (slice f 4 n)).ctrlRecords x fuel (f.drop (4 + n))

/-- CTRL_FRAME_RECEIVE. -/
def State.ctrlFrame (s : State) (x seq : Nat) (payload : List Byte) (e : RxEnd) : State :=
  if s.deck.dev = .safeHalt then s
  else
    let a := s.mrAccept x ⟨2, seq, true, true, payload, e⟩
    if a.2 then (a.1.ctrlRecords x payload.length payload).announce x 2 else a.1

/-! REG (R284). -/

/-- The requester that a port's REG window is. -/
def portReq (x : Nat) : Req := if x = 0 then .portA else .portB

/-- A request as its frame carries it. -/
def regRequest (op tag count addr : Nat) (ws : List Word) : List Byte :=
  leBytes 1 op ++ leBytes 1 0 ++ leBytes 2 tag ++ leBytes 2 count ++ leBytes 2 0 ++ leBytes 4 addr
    ++ ws.flatMap fun w => leBytes 4 w.toNat

/-- Words read in ascending order up to the first that fails: the words, the state after them, and how it ended. -/
def State.regReads (s : State) (r : Req) (f : HbmFind) : (a n : Nat) → List Word × State × Nat
  | _, 0 => ([], s, accOk)
  | a, n + 1 =>
    let e := s.busRead r a f
    if e.2.2 ≠ accOk then ([], e.2.1, e.2.2)
    else
      let t := e.2.1.regReads r .clean ((a + 4) % 2 ^ 32) n
      (e.1 :: t.1, t.2)

/-- Words written in ascending order up to the first that fails, or to a reset: how many were completed, the state and how it
ended. -/
def State.regWrites (s : State) (r : Req) : (a : Nat) → List Word → Nat × State × Nat
  | _, [] => (0, s, accOk)
  | a, w :: ws =>
    let e := s.busWrite r a w
    if e.2 ≠ accOk then (0, e.1, e.2)
    else if e.1.boot.loading = true ∧ s.boot.loading = false then (1, e.1, accOk)
    else
      let t := e.1.regWrites r ((a + 4) % 2 ^ 32) ws
      (t.1 + 1, t.2)

/-- A response. -/
def regResponse (op status tag count addr : Nat) (ws : List Word) : List Byte :=
  leBytes 1 (op + 0x80) ++ leBytes 1 status ++ leBytes 2 tag ++ leBytes 2 count ++ leBytes 2 0 ++ leBytes 4 addr
    ++ ws.flatMap fun w => leBytes 4 w.toNat

/-- A request is carried out and answered. A COUNT outside 1 to 64 completes no word; its STATUS is not stated (a free value). -/
def State.regServe (s : State) (x : Nat) (req : List Byte) (f : HbmFind) : State :=
  let op := leAt req 0 1
  let tag := leAt req 2 2
  let n := leAt req 4 2
  let a := leAt req 8 4
  if n < 1 ∨ 64 < n then
    let (st, s) := s.fresh 8
    s.mrQueue x 3 true true (regResponse op st tag 0 a [])
  else if op = 1 then
    let e := s.regReads (portReq x) f a n
    e.2.1.mrQueue x 3 true true (regResponse op e.2.2 tag e.1.length a e.1)
  else
    let e := s.regWrites (portReq x) a (leWords n (req.drop 12))
    e.2.1.mrQueue x 3 true true (regResponse op e.2.2 tag e.1 a [])

/-- Does a request wait: behind an unsent response (R280), or for the wipe of HBM (12 R317)? -/
def State.regWaits (s : State) (x : Nat) (req : List Byte) : Bool :=
  (s.mp x).wait.any (fun f => f.cls == 3) || (s.hbmHolds && decide (regionOf (leAt req 8 4) = .hbm))

/-- Up to `n` waiting requests of a port are served in order. -/
def State.regRun (s : State) (x : Nat) (f : HbmFind) : Nat → State
  | 0 => s
  | n + 1 =>
    match (s.mp x).regQ with
    | [] => s
    | req :: rs =>
      if s.mrState x ≠ mrActive ∨ s.regWaits x req then s
      else
        let s := s.setMp x { s.mp x with regQ := rs }
        ((s.regServe x req f).announce x 3).regRun x .clean n

/-- The requests of a port go on. -/
def State.regResume (s : State) (x : Nat) : State := s.regRun x .clean (s.mp x).regQ.length

/-- A REG frame with a request arrives on a port. -/
def State.regFrame (s : State) (x seq : Nat) (req : List Byte) (e : RxEnd) (f : HbmFind) : State :=
  if s.deck.dev = .safeHalt then s
  else
    let a := s.mrAccept x ⟨3, seq, true, true, req, e⟩
    if a.2 then
      let s := a.1.setMp x { a.1.mp x with regQ := (a.1.mp x).regQ ++ [req] }
      s.regRun x f (s.mp x).regQ.length
    else a.1

/-- READ. -/
def State.regReadFrame (s : State) (x seq tag count addr : Nat) (e : RxEnd) (f : HbmFind) : State :=
  s.regFrame x seq (regRequest 1 tag count addr []) e f

/-- REG_WRITE. -/
def State.regWriteFrame (s : State) (x seq tag addr : Nat) (ws : List Word) (e : RxEnd) : State :=
  s.regFrame x seq (regRequest 2 tag ws.length addr ws) e .clean

/-! RELAY (R288, R289). -/

/-- The depth of RELAY headers of a RELAY payload. `fuel` bounds it. -/
def relayDepth : Nat → List Byte → Nat
  | 0, _ => 0
  | n + 1, b => if leAt b 0 1 % 16 = 6 then 1 + relayDepth n (b.drop 8) else 1

/-- Is a RELAY payload to be dropped: an inner TIME frame, more than three headers, or an inner LEN that is not that of
the payload (R288)? -/
def relayBad (b : List Byte) : Bool :=
  decide (leAt b 0 1 % 16 = 4) || decide (3 < relayDepth 4 b) || decide (leAt b 1 2 % 1024 ≠ b.length - 8)

/-- RELAY_FRAME_RECEIVE on an upstream port: the inner frame is sent on port B. -/
def State.relayFrame (s : State) (x seq : Nat) (payload : List Byte) (e : RxEnd) : State :=
  if s.deck.dev = .safeHalt ∨ s.upstream x = false then s
  else
    let a := s.mrAccept x ⟨6, seq, true, true, payload, e⟩
    if a.2 = false then a.1
    else
      let s := a.1
      let s := if relayBad payload then s.bump (Reg.MR_COUNT_DROP.RELAY x)
        else if s.mrState 1 = mrActive ∧ s.mrHost 1 = true then
          (let h := leAt payload 0 1
           s.mrQueue 1 (h % 16) (bit h 4) (bit h 5) (payload.drop 8))
        else s.relayDrop x 0
      s.announce x 6

/-- The RELAY payload that wraps a frame. -/
def relayWrap (cls : Nat) (first last : Bool) (payload : List Byte) : List Byte :=
  leBytes 1 (cls + 16 * ofBool first + 32 * ofBool last) ++ leBytes 2 payload.length ++ List.replicate 5 0 ++ payload

/-- PORT_B_FRAME_RECEIVE: a frame other than TIME on port B as host end is wrapped and sent on port A; one of a class that its end does
not send is counted (R265). Port B as device end has its own commands for the classes of a host end. -/
def State.portBFrame (s : State) (cls seq : Nat) (first last : Bool) (payload : List Byte) (e : RxEnd) : State :=
  let own := !(s.mrHost 1) && s.classAllowed 1 cls (bit (leAt payload 0 1) 7)
  if s.deck.dev = .safeHalt ∨ own = true ∨ cls = 4 then s
  else
    let a := s.mrAccept 1 ⟨cls, seq, first, last, payload, e⟩
    if a.2 = false then a.1
    else
      let s := a.1
      let w := relayWrap cls first last payload
      let s := if relayBad w then s.bump (Reg.MR_COUNT_DROP.RELAY 1)
        else if s.upstream 0 then s.mrQueue 0 6 true true w
        else s.relayDrop 1 1
      s.announce 1 cls

/-- MR_LCB_RECEIVE: frames that now have credit leave, waiting requests go on, and credits of forwarded frames return. -/
def State.lcbArrives (s : State) (x : Nat) (d : List Byte) : State :=
  if s.deck.dev = .safeHalt then s
  else
    let s := (s.lcbReceive x d).regResume x
    if x = 1 then s.announce 0 6 else [3, 5, 6].foldl (fun s c => if s.mrHost 1 then s.announce 1 c else s) s

/-! TIME (10 R250, R251; 11 R279). -/

/-- TIME_FRAME_RECEIVE: discarded without NAK when in error; dropped and counted while 16 frames of the port await processing. Of those,
the firmware has processed `done` since the last one came (log 97). -/
def State.timeFrame (s : State) (x : Nat) (msg : List Byte) (stamp done : Nat) (e : RxEnd) : State :=
  let f : Received := ⟨4, 0xFFFF, true, true, msg, e⟩
  if s.deck.dev = .safeHalt ∨ s.mrState x ≠ mrActive then s
  else
    let s := s.setMp x { s.mp x with timeWait := (s.mp x).timeWait - done }
    if f.crcBad then s.bump (Reg.MR_COUNT_CRC.CRC x)
    else if f.whole = false then s
    else if 16 ≤ (s.mp x).timeWait then s.bump (Reg.MR_COUNT_DROP.OTHER x)
    else (s.setMp x { s.mp x with timeWait := (s.mp x).timeWait + 1 }).timeReceive x msg stamp

/-- TIME_FRAME_TRANSMIT; a port that has asked for M2 sends no new frame (R274). -/
def State.timeFrameSent (s : State) (x : Nat) (msg : List Byte) (stamp : Nat) : State :=
  if s.deck.dev = .safeHalt ∨ s.mrState x ≠ mrActive ∨ (s.mp x).m2Want = true then s
  else (s.mrTime x msg).timeTransmit x msg stamp

end Sys2Proof.Machine
end

