-- ==== Sys2Proof/Machine/Operands.lean ====
section
/-! DEFINITION. How a command meets the block: the state in which its event can happen at all, the range of a number it names,
what it found in a memory, and the read or write it makes. -/

namespace Sys2Proof.Machine

/-- An event of the clocked fabric: in SAFE_HALT every clock but the island's is stopped (02 R61), and with the rails off nothing
runs (14 R356). -/
def State.clocked (s : State) (f : State → State) : State :=
  if s.deck.dev = .safeHalt ∨ s.pwr.down = true then s else f s

/-- A command that names the unit `k` of `n`: there is no unit above, and nothing happens. -/
def State.within (s : State) (k n : Nat) (f : State → State) : State := if k < n then f s else s

/-- What ECC found in a memory of cell `k` of comb `c` (05 R109). -/
def State.memFind (s : State) (c k : Nat) : MemFind → State
  | .clean => s
  | .corrected mem addr => s.eccCorrected c k (mem % 5) addr
  | .uncorrectable mem addr layer => s.eccUncorrectable c k (mem % 5) addr (layer % 32)

/-- A read of source `src` that finds something in the burst at an address (12 R312 to R314). -/
def State.badBurst (s : State) (bad : Option (Nat × HbmFind)) (src : Nat) : State :=
  match bad with
  | some e => s.hbmAsk src (burstOf e.1) 32 e.2
  | none => s

/-- The state after a register read. -/
def State.regTake (s : State) (r : Req) (a : Nat) : State := (s.busRead r a .clean).2.1

/-- The word of LC_CMD that requests operation `op` with `arg` (16 R402). -/
def lcWord (op arg : Nat) : Word := word (op * 2 ^ 24 + arg % 256)

end Sys2Proof.Machine
end

