-- ==== Sys2Proof/Machine/CmdBlt.lean ====
section
/-! DEFINITION. The meanings of the commands of the blitter (13): one definition for each command, over the operations of the
block. Every command ends in a next state (log 1). -/

namespace Sys2Proof.Machine

/-- BLT_POST: a write of BLT_Q_TAIL (13 R326). -/
def execBltPost (r : Req) (v : Word) (s : State) : Host.Outcome State Fault Refusal :=
  .next (s.regWrite r Reg.BLT_Q_TAIL v)

/-- FILL: a burst of a FILL descriptor; `f` is what its first read of HBM finds (13 R323 to R325, R330). -/
def execFill (f : HbmFind) (s : State) : Host.Outcome State Fault Refusal :=
  .next (s.clocked fun s => s.bltBurst 1 f)

/-- COPY: a burst of a COPY descriptor; `f` is what its first read of HBM finds (13 R323 to R325, R330). -/
def execCopy (f : HbmFind) (s : State) : Host.Outcome State Fault Refusal :=
  .next (s.clocked fun s => s.bltBurst 2 f)

/-- CONVERT: a burst of a CONVERT descriptor; `f` is what its first read of HBM finds (13 R323 to R325, R330). -/
def execConvert (f : HbmFind) (s : State) : Host.Outcome State Fault Refusal :=
  .next (s.clocked fun s => s.bltBurst 3 f)

/-- EXPAND: a burst of a EXPAND descriptor; `f` is what its first read of HBM finds (13 R323 to R325, R330). -/
def execExpand (f : HbmFind) (s : State) : Host.Outcome State Fault Refusal :=
  .next (s.clocked fun s => s.bltBurst 4 f)

/-- TEXT: a burst of a TEXT descriptor; `f` is what its first read of HBM finds (13 R323 to R325, R330). -/
def execText (f : HbmFind) (s : State) : Host.Outcome State Fault Refusal :=
  .next (s.clocked fun s => s.bltBurst 5 f)

/-- BLT_WAIT_START: the wait of a descriptor is over (13 R328). -/
def execBltWaitStart (s : State) : Host.Outcome State Fault Refusal :=
  .next (s.clocked fun s => s.bltWaitStart)

/-- BLT_BURST_PAUSE_END: the pause after a burst is over (13 R330). -/
def execBltBurstPauseEnd (s : State) : Host.Outcome State Fault Refusal :=
  .next (s.clocked fun s => s.bltPauseEnd)

/-- BLT_DESCRIPTOR_END: a descriptor ends (13 R327). -/
def execBltDescriptorEnd (s : State) : Host.Outcome State Fault Refusal :=
  .next (s.clocked fun s => s.bltDescEnd)

/-- ABORT: a write of ABORT = 1 (13 R332). -/
def execAbort (r : Req) (v : Word) (s : State) : Host.Outcome State Fault Refusal :=
  .next (s.regWrite r Reg.BLT_CTRL (forceBits v Reg.BLT_CTRL.ABORT 1))

end Sys2Proof.Machine
end

