-- ==== Sys2Proof/Machine/CmdBoot.lean ====
section
/-! DEFINITION. The meanings of the commands of start-up, resets and the life cycle (16): one definition for each command, over the operations of the
block. Every command ends in a next state (log 1). -/

namespace Sys2Proof.Machine

/-- BOOT_HBM_LOAD_DONE: the sections of phase 7 stand in HBM (16 R394). -/
def execBootHbmLoadDone (s : State) : Host.Outcome State Fault Refusal :=
  .next (s.clocked fun s => s.hbmLoaded)

/-- POWER_ON_RESET: a power-on reset (16 R398). -/
def execPowerOnReset (e : BootIn) (s : State) : Host.Outcome State Fault Refusal :=
  .next (s.powerOn e)

/-- SYSRST_PIN: SYSRST_N causes a system reset (16 R398). -/
def execSysrstPin (e : BootIn) (s : State) : Host.Outcome State Fault Refusal :=
  .next (s.sysReset Reg.SYS_RESET_CAUSE.PIN e)

/-- SYSRST: a write of SYS_RESET (16 R398, R409). -/
def execSysrst (r : Req) (v : Word) (e : BootIn) (s : State) : Host.Outcome State Fault Refusal :=
  .next (if s.refusal r Reg.SYS_RESET true = accOk then s.resetWrite r v e else s.accFault r Reg.SYS_RESET true)

/-- FIELD: a write of LC_CMD with OP 1 (16 R401, R402). -/
def execField (r : Req) (arg : Nat) (s : State) : Host.Outcome State Fault Refusal :=
  .next (s.regWrite r Reg.LC_CMD (lcWord 1 arg))

/-- ENTER_SERVICE: a write of LC_CMD with OP 2 (16 R401, R402). -/
def execEnterService (r : Req) (arg : Nat) (s : State) : Host.Outcome State Fault Refusal :=
  .next (s.regWrite r Reg.LC_CMD (lcWord 2 arg))

/-- LEAVE_SERVICE: a write of LC_CMD with OP 3 (16 R401, R402). -/
def execLeaveService (r : Req) (arg : Nat) (s : State) : Host.Outcome State Fault Refusal :=
  .next (s.regWrite r Reg.LC_CMD (lcWord 3 arg))

/-- RETIRE: a write of LC_CMD with OP 4 (16 R401, R402). -/
def execRetire (r : Req) (arg : Nat) (s : State) : Host.Outcome State Fault Refusal :=
  .next (s.regWrite r Reg.LC_CMD (lcWord 4 arg))

/-- ADVANCE_ROLLBACK: a write of LC_CMD with OP 5 (16 R401, R402). -/
def execAdvanceRollback (r : Req) (arg : Nat) (s : State) : Host.Outcome State Fault Refusal :=
  .next (s.regWrite r Reg.LC_CMD (lcWord 5 arg))

/-- REVOKE_KEY: a write of LC_CMD with OP 6 (16 R401, R402). -/
def execRevokeKey (r : Req) (arg : Nat) (s : State) : Host.Outcome State Fault Refusal :=
  .next (s.regWrite r Reg.LC_CMD (lcWord 6 arg))

/-- PROGRAM_KEYS: a write of LC_CMD with OP 7 (16 R401, R402). -/
def execProgramKeys (r : Req) (arg : Nat) (s : State) : Host.Outcome State Fault Refusal :=
  .next (s.regWrite r Reg.LC_CMD (lcWord 7 arg))

/-- SET_SLOT: a write of LC_CMD with OP 8 (16 R401, R402). -/
def execSetSlot (r : Req) (arg : Nat) (s : State) : Host.Outcome State Fault Refusal :=
  .next (s.regWrite r Reg.LC_CMD (lcWord 8 arg))

/-- CONFIRM_SLOT: a write of LC_CMD with OP 9 (16 R401, R402). -/
def execConfirmSlot (r : Req) (arg : Nat) (s : State) : Host.Outcome State Fault Refusal :=
  .next (s.regWrite r Reg.LC_CMD (lcWord 9 arg))

/-- LC_CMD_RESET: 1 ms has passed since an operation was accepted (16 R402). -/
def execLcCmdReset (e : BootIn) (s : State) : Host.Outcome State Fault Refusal :=
  .next (s.lcReset e)

/-- RESCUE_START: a write of SYS_RESCUE.START = 1 (16 R405). -/
def execRescueStart (r : Req) (v : Word) (s : State) : Host.Outcome State Fault Refusal :=
  .next (s.regWrite r Reg.SYS_RESCUE (forceBits v Reg.SYS_RESCUE.START 1))

/-- RESCUE_PROGRAM_DONE: programming and read-back have ended (16 R405). -/
def execRescueProgramDone (result : Nat) (e : BootIn) (s : State) : Host.Outcome State Fault Refusal :=
  .next (s.rescueDone result e)

/-- SUPERVISOR_RELEASE: phase 4 is complete (16 R394). -/
def execSupervisorRelease (s : State) : Host.Outcome State Fault Refusal :=
  .next (s.supRelease)

/-- HOSTLESS_START: no Sync within HOST_WAIT (16 R406). -/
def execHostlessStart (clip : Option Nat) (s : State) : Host.Outcome State Fault Refusal :=
  .next (s.clocked fun s => s.hostless clip)

end Sys2Proof.Machine
end

