-- ==== Sys2Proof/Machine/CmdComb.lean ====
section
/-! DEFINITION. The meanings of the commands of the combs and cells (05): one definition for each command, over the operations of the
block. Every command ends in a next state (log 1). -/

namespace Sys2Proof.Machine

/-- BAND_JOB_ISSUE: the Deck issues the band job of the next hogel of a pier (05 R110). -/
def execBandJobIssue (p : Nat) (s : State) : Host.Outcome State Fault Refusal :=
  .next (s.clocked fun s => s.within p 512 fun s => s.bandJobIssue p)

/-- CELL_JOB_DISPATCH: a free cell takes the head of the queue (05 R111). -/
def execCellJobDispatch (c : Nat) (s : State) : Host.Outcome State Fault Refusal :=
  .next (s.clocked fun s => s.within c 8 fun s => s.jobDispatch c)

/-- CELL_JOB_COMPLETE: a cell has written its hogel; `f` is what ECC found in a memory meanwhile (05 R109, R111). -/
def execCellJobComplete (c : Nat) (k : Nat) (f : MemFind) (s : State) : Host.Outcome State Fault Refusal :=
  .next (s.clocked fun s => s.within (12 * c + k) 96 fun s => s.within k 12 fun s => (s.memFind c k f).jobComplete c k)

/-- JOB_DEADLINE: the deadline of a hogel passes (05 R112). -/
def execJobDeadline (p : Nat) (u : Nat) (s : State) : Host.Outcome State Fault Refusal :=
  .next (s.clocked fun s => s.within p 512 fun s => s.jobDeadline p u)

/-- BAND_FETCH_START: the fetch unit starts a band (05 R115). -/
def execBandFetchStart (c : Nat) (s : State) : Host.Outcome State Fault Refusal :=
  .next (s.clocked fun s => s.within c 8 fun s => s.bandFetchStart c)

/-- BAND_RESIDENT: the band of a layer is resident; `f` is what its first read finds (05 R115). -/
def execBandResident (c : Nat) (n : Nat) (f : HbmFind) (s : State) : Host.Outcome State Fault Refusal :=
  .next (s.clocked fun s => s.within c 8 fun s => s.within n 32 fun s => s.bandArrives c n f)

/-- BAND_DEADLINE: the band deadline passes (05 R116). -/
def execBandDeadline (c : Nat) (s : State) : Host.Outcome State Fault Refusal :=
  .next (s.clocked fun s => s.within c 8 fun s => s.bandDeadline c)

/-- COMB_WAKE_DONE: a waking comb is awake (05 R124). -/
def execCombWakeDone (c : Nat) (s : State) : Host.Outcome State Fault Refusal :=
  .next (s.clocked fun s => s.within c 8 fun s => s.wakeDone c)

/-- AUDIT_COMPARE: the auditing cell has recomputed the hogel; `f` replaces its values when a cell is at fault (05 R121). -/
def execAuditCompare (c : Nat) (f : Option (List Nat)) (s : State) : Host.Outcome State Fault Refusal :=
  .next (s.clocked fun s => s.within c 8 fun s => s.auditCompare c f)

/-- AUDIT_ARBITRATE: the third cell has completed or is late (05 R122). -/
def execAuditArbitrate (c : Nat) (late : Bool) (f : Option (List Nat)) (s : State) : Host.Outcome State Fault Refusal :=
  .next (s.clocked fun s => s.within c 8 fun s => s.auditArbitrate c late f)

/-- CELL_PROGRAM_RELOAD: a cell has its program again (05 R109). -/
def execCellProgramReload (c : Nat) (k : Nat) (s : State) : Host.Outcome State Fault Refusal :=
  .next (s.clocked fun s => s.within c 8 fun s => s.within k 12 fun s => s.programReload c k)

/-- LUT_STORE_SCRUB: the LUT store of a comb is scrubbed; `bad` is a word found uncorrectable (05 R109). -/
def execLutStoreScrub (c : Nat) (bad : Option Nat) (s : State) : Host.Outcome State Fault Refusal :=
  .next (s.clocked fun s => s.within c 8 fun s => s.lutScrub c bad)

end Sys2Proof.Machine
end

