-- ==== Sys2Proof/Machine/CmdDeck.lean ====
section
/-! DEFINITION. The meanings of the commands of the Deck: register and shadow writes, frames, commits and operating states (02): one definition for each command, over the operations of the
block. Every command ends in a next state (log 1). -/

namespace Sys2Proof.Machine

/-- REGISTER_WRITE: a register write takes effect under its access codes (00 R9, R10) and its block's access rules. -/
def execRegisterWrite (r : Req) (a : Nat) (v : Word) (s : State) : Host.Outcome State Fault Refusal :=
  .next (s.regWrite r a v)

/-- SHADOW_WRITE: a write of an RWS shadow word (02 R37). -/
def execShadowWrite (r : Req) (a : Nat) (v : Word) (s : State) : Host.Outcome State Fault Refusal :=
  .next (if rwsMask a = 0 then s else s.regWrite r a v)

/-- DECK_RUN: a write of RUN = 1 (02 R30, R451). -/
def execDeckRun (r : Req) (v : Word) (s : State) : Host.Outcome State Fault Refusal :=
  .next (s.regWrite r Reg.DECK_CTRL (forceBits v Reg.DECK_CTRL.RUN 1))

/-- DECK_STOP: a write of RUN = 0 (02 R451; 07 R173). -/
def execDeckStop (r : Req) (v : Word) (s : State) : Host.Outcome State Fault Refusal :=
  .next (s.regWrite r Reg.DECK_CTRL (forceBits v Reg.DECK_CTRL.RUN 0))

/-- FRAME_START: the scheduled frame start (02 R26). -/
def execFrameStart (s : State) : Host.Outcome State Fault Refusal :=
  .next (s.clocked fun s => s.frameStart)

/-- SCAN_LINE_START: the next scan line is due (02 R27). -/
def execScanLineStart (s : State) : Host.Outcome State Fault Refusal :=
  .next (s.clocked fun s => s.lineStart)

/-- LATCH_POINT: the latch point of the frame (02 R43). -/
def execLatchPoint (s : State) : Host.Outcome State Fault Refusal :=
  .next (s.clocked fun s => s.latchPoint.sceneCredits)

/-- FLIP_EMISSION: a pier sends its FLIP block (08 R202). -/
def execFlipEmission (p : Nat) (s : State) : Host.Outcome State Fault Refusal :=
  .next (s.clocked fun s => s.within p 512 fun s => s.flipEmit p)

/-- DECK_COMMIT_GO: a write of GO = 1 (02 R38). -/
def execDeckCommitGo (r : Req) (v : Word) (s : State) : Host.Outcome State Fault Refusal :=
  .next (s.regWrite r Reg.DECK_COMMIT (forceBits v Reg.DECK_COMMIT.GO 1))

/-- COMMIT_VALIDATED: the oldest validation completes (02 R39). -/
def execCommitValidated (s : State) : Host.Outcome State Fault Refusal :=
  .next (s.clocked fun s => s.commitValidated)

/-- DECK_COMMIT_CANCEL: a write of CANCEL = 1 (02 R452). -/
def execDeckCommitCancel (r : Req) (v : Word) (s : State) : Host.Outcome State Fault Refusal :=
  .next (s.regWrite r Reg.DECK_COMMIT (forceBits (forceBits v Reg.DECK_COMMIT.CANCEL 1) Reg.DECK_COMMIT.GO 0))

/-- COMMIT_REVALIDATED: the oldest revalidation completes (02 R452). -/
def execCommitRevalidated (s : State) : Host.Outcome State Fault Refusal :=
  .next (s.clocked fun s => s.commitRevalidated)

/-- DECK_STATE_REQ: a write of DECK_STATE.REQ (02 R58; 01 R24). -/
def execDeckStateReq (r : Req) (v : Word) (s : State) : Host.Outcome State Fault Refusal :=
  .next (s.regWrite r Reg.DECK_STATE v)

end Sys2Proof.Machine
end

