-- ==== Sys2Proof/Machine/CmdFs.lean ====
section
/-! DEFINITION. The meanings of the commands of the safety island (17): one definition for each command, over the operations of the
block. Every command ends in a next state (log 1). -/

namespace Sys2Proof.Machine

/-- FS_SELFTEST: the island tests its monitors; `bad` is the first that did not trip, 0 for none (17 R422). -/
def execFsSelftest (bad : Nat) (s : State) : Host.Outcome State Fault Refusal :=
  .next (s.selftest bad)

/-- FS_SUPPLY_FAULT: a supply is outside its window (17 R421). -/
def execFsSupplyFault (rail : Nat) (high : Bool) (e : BootIn) (s : State) : Host.Outcome State Fault Refusal :=
  .next (s.supplyFault rail high e)

/-- FS_TEST_START: a write of FS_TEST.START = 1 (17 R431). -/
def execFsTestStart (r : Req) (v : Word) (s : State) : Host.Outcome State Fault Refusal :=
  .next (s.regWrite r Reg.FS_TEST (forceBits v Reg.FS_TEST.START 1))

/-- FS_TEST_END: the pulse has lasted LEN ms (17 R431). -/
def execFsTestEnd (s : State) : Host.Outcome State Fault Refusal :=
  .next (s.fsTestEnd)

/-- FS_CAUSE_CLEAR: a write of FS_CAUSE (17 R424). -/
def execFsCauseClear (r : Req) (v : Word) (s : State) : Host.Outcome State Fault Refusal :=
  .next (s.regWrite r Reg.FS_CAUSE v)

/-- FS_PIER_CLEAR: a write of FS_PIERw (17 R424). -/
def execFsPierClear (r : Req) (n : Nat) (v : Word) (s : State) : Host.Outcome State Fault Refusal :=
  .next (s.within n 16 fun s => s.regWrite r (Reg.FS_PIER n) v)

/-- FS_FAULT_RELEASE: the last cause has ended and 100 ms have passed (17 R424). -/
def execFsFaultRelease (s : State) : Host.Outcome State Fault Refusal :=
  .next (s.faultRelease)

/-- FS_HEARTBEAT_TOGGLE: 10 ms have passed since the last edge (17 R426). -/
def execFsHeartbeatToggle (s : State) : Host.Outcome State Fault Refusal :=
  .next (s.heartbeat)

end Sys2Proof.Machine
end

