-- ==== Sys2Proof/Machine/CmdHbm.lean ====
section
/-! DEFINITION. The meanings of the commands of the HBM controller (12): one definition for each command, over the operations of the
block. Every command ends in a next state (log 1). -/

namespace Sys2Proof.Machine

/-- HBM_REFRESH: a refresh is due (12 R305). -/
def execHbmRefresh (pc : Nat) (busy : Bool) (s : State) : Host.Outcome State Fault Refusal :=
  .next (s.clocked fun s => s.within pc 16 fun s => s.hbmRefresh pc busy)

/-- HBM_REQUEST_AGING: a request has waited 2 µs (12 R302). -/
def execHbmRequestAging (src : Nat) (s : State) : Host.Outcome State Fault Refusal :=
  .next (s.clocked fun s => s.requestAging src)

/-- HBM_TEMP_READ: the stack temperature is read (12 R306). -/
def execHbmTempRead (t : Nat) (s : State) : Host.Outcome State Fault Refusal :=
  .next (s.clocked fun s => s.hbmTemp t)

/-- HBM_SR_ENTRY: no request for SR_IDLE (12 R307). -/
def execHbmSrEntry (s : State) : Host.Outcome State Fault Refusal :=
  .next (s.clocked fun s => s.srEntry)

/-- HBM_SR_EXIT: a request ends self-refresh (12 R308). -/
def execHbmSrExit (s : State) : Host.Outcome State Fault Refusal :=
  .next (s.clocked fun s => s.srExit)

/-- HBM_TRAIN_REQ: a write of HBM_TRAIN_REQ (12 R310). -/
def execHbmTrainReq (r : Req) (v : Word) (s : State) : Host.Outcome State Fault Refusal :=
  .next (s.regWrite r Reg.HBM_TRAIN_REQ v)

/-- HBM_RETRAIN_PAUSE: a retraining pause runs; `eye` is the eye it finds (12 R310). -/
def execHbmRetrainPause (eye : Nat) (s : State) : Host.Outcome State Fault Refusal :=
  .next (s.clocked fun s => s.retrainPause eye)

/-- HBM_SCRUB: the scrubber reads its next burst (12 R315). -/
def execHbmScrub (find : HbmFind) (s : State) : Host.Outcome State Fault Refusal :=
  .next (s.clocked fun s => s.hbmScrub find)

/-- HBM_GO: a write of HBM_GO = 1 (16 R394). -/
def execHbmGo (r : Req) (v : Word) (s : State) : Host.Outcome State Fault Refusal :=
  .next (s.regWrite r Reg.SYS_BOOT_CTRL (forceBits v Reg.SYS_BOOT_CTRL.HBM_GO 1))

/-- HBM_WIPE_DONE: training and wipe are complete; `eyes` gives the eye of each pseudo-channel (12 R309, R317). -/
def execHbmWipeDone (eyes : List Nat) (us : Nat) (s : State) : Host.Outcome State Fault Refusal :=
  .next (s.clocked fun s => ((s.hbmReady eyes us).regResume 0).regResume 1)

end Sys2Proof.Machine
end

