-- ==== Sys2Proof/Machine/CmdHost.lean ====
section
/-! DEFINITION. The meanings of the commands of the classes of the Moror link (11): one definition for each command, over the operations of the
block. Every command ends in a next state (log 1). -/

namespace Sys2Proof.Machine

/-- CTRL_FRAME_RECEIVE: a CTRL frame arrives (11 R283). -/
def execCtrlFrameReceive (x : Nat) (seq : Nat) (payload : List Byte) (e : RxEnd) (s : State) : Host.Outcome State Fault Refusal :=
  .next (s.clocked fun s => s.within x 2 fun s => s.ctrlFrame x seq payload e)

/-- WRITE: a WRITE record of an accepted CTRL frame (11 R283). -/
def execWrite (x : Nat) (a : Nat) (ws : List Word) (s : State) : Host.Outcome State Fault Refusal :=
  .next (s.clocked fun s => s.within x 2 fun s => if s.upstream x then s.ctrlWrite x a ws else s)

/-- COMMIT: a COMMIT record (11 R283). -/
def execCommit (x : Nat) (tag : Nat) (timed : Bool) (target : Nat) (s : State) : Host.Outcome State Fault Refusal :=
  .next (s.clocked fun s => s.within x 2 fun s => if s.upstream x then s.ctrlCommit x tag timed target else s)

/-- CANCEL: a CANCEL record (11 R283). -/
def execCancel (x : Nat) (s : State) : Host.Outcome State Fault Refusal :=
  .next (s.clocked fun s => s.within x 2 fun s => if s.upstream x then s.commitCancel .host else s)

/-- MARK: a MARK record (11 R283). -/
def execMark (x : Nat) (v : Nat) (s : State) : Host.Outcome State Fault Refusal :=
  .next (s.clocked fun s => s.within x 2 fun s => if s.upstream x then s.ctrlMark x v else s)

/-- READ: a REG READ request arrives; `f` is what the first word read finds in HBM (11 R284). -/
def execRead (x : Nat) (seq : Nat) (tag : Nat) (n : Nat) (a : Nat) (e : RxEnd) (f : HbmFind) (s : State) : Host.Outcome State Fault Refusal :=
  .next (s.clocked fun s => s.within x 2 fun s => s.regReadFrame x seq tag n a e f)

/-- REG_WRITE: a REG WRITE request arrives (11 R284). -/
def execRegWrite (x : Nat) (seq : Nat) (tag : Nat) (a : Nat) (ws : List Word) (e : RxEnd) (s : State) : Host.Outcome State Fault Refusal :=
  .next (s.clocked fun s => s.within x 2 fun s => s.regWriteFrame x seq tag a ws e)

/-- RELAY_FRAME_RECEIVE: a RELAY frame arrives on an upstream port (11 R289). -/
def execRelayFrameReceive (x : Nat) (seq : Nat) (payload : List Byte) (e : RxEnd) (s : State) : Host.Outcome State Fault Refusal :=
  .next (s.clocked fun s => s.within x 2 fun s => s.relayFrame x seq payload e)

/-- PORT_B_FRAME_RECEIVE: a frame arrives on port B as host end (11 R289). -/
def execPortBFrameReceive (cls : Nat) (seq : Nat) (first : Bool) (last : Bool) (payload : List Byte) (e : RxEnd) (s : State) : Host.Outcome State Fault Refusal :=
  .next (s.clocked fun s => s.portBFrame cls seq first last payload e)

end Sys2Proof.Machine
end

