-- ==== Sys2Proof/Machine/CmdLayer.lean ====
section
/-! DEFINITION. The meanings of the commands of layer fences and the table loader (03): one definition for each command, over the operations of the
block. Every command ends in a next state (log 1). -/

namespace Sys2Proof.Machine

/-- FENCE_WRITE: a write of LAYER_n_FENCE (03 R68). -/
def execFenceWrite (r : Req) (n : Nat) (v : Word) (s : State) : Host.Outcome State Fault Refusal :=
  .next (s.within n 32 fun s => s.regWrite r (Reg.LAYER_FENCE n) v)

/-- LUT_LOAD_START: START of a LUT load (03 R80). -/
def execLutLoadStart (r : Req) (v : Word) (s : State) : Host.Outcome State Fault Refusal :=
  .next (s.regWrite r Reg.LAYER_LUT_LOAD (forceBits (forceBits v Reg.LAYER_LUT_LOAD.START 1) Reg.LAYER_LUT_LOAD.KIND 0))

/-- PALETTE_LOAD_START: START of a palette load (03 R80). -/
def execPaletteLoadStart (r : Req) (v : Word) (s : State) : Host.Outcome State Fault Refusal :=
  .next (s.regWrite r Reg.LAYER_LUT_LOAD (forceBits (forceBits v Reg.LAYER_LUT_LOAD.START 1) Reg.LAYER_LUT_LOAD.KIND 1))

/-- LUT_LOAD_DONE: the running table load ends (03 R80). -/
def execLutLoadDone (f : HbmFind) (s : State) : Host.Outcome State Fault Refusal :=
  .next (s.clocked fun s => s.lutDone f)

end Sys2Proof.Machine
end

