-- ==== Sys2Proof/Machine/CmdMoror.lean ====
section
/-! DEFINITION. The meanings of the commands of the Moror link layer (11): one definition for each command, over the operations of the
block. Every command ends in a next state (log 1). -/

namespace Sys2Proof.Machine

/-- MR_TS_RECEIVE: a TS block arrives; a parked port B follows a change of its role (11 R271, R292). -/
def execMrTsReceive (x : Nat) (b : RxBlock) (foms : List Nat) (ams : List (List Byte × Nat)) (s : State) : Host.Outcome State Fault Refusal :=
  .next (s.clocked fun s => s.within x 2 fun s => (s.tsReceive x b.seen b.bytes foms ams).mrConfigure 1)

/-- MR_CLOCK_DETECT: a received clock has `count` cycles in 10 µs (11 R270). -/
def execMrClockDetect (c : ClockSeen) (s : State) : Host.Outcome State Fault Refusal :=
  .next (s.clocked fun s => s.within c.port 2 fun s => s.clockDetect c.port c.count)

/-- MR_EQ_PRESET_DONE: a preset has been measured (11 R272). -/
def execMrEqPresetDone (x : Nat) (foms : List Nat) (s : State) : Host.Outcome State Fault Refusal :=
  .next (s.clocked fun s => s.within x 2 fun s => s.presetDone x foms)

/-- MR_TRAIN_TIMEOUT: a training state has lasted 2 ms (11 R270). -/
def execMrTrainTimeout (x : Nat) (s : State) : Host.Outcome State Fault Refusal :=
  .next (s.clocked fun s => s.within x 2 fun s => s.trainTimeout x)

/-- MR_RECOVERY_TIMEOUT: RECOVERY has lasted 20 µs (11 R270). -/
def execMrRecoveryTimeout (x : Nat) (s : State) : Host.Outcome State Fault Refusal :=
  .next (s.clocked fun s => s.within x 2 fun s => s.recoveryTimeout x)

/-- MR_LINK_LOSS: lanes or the clock of a port are lost, judged by the blocks of each lane and the cycles of 10 µs (11 R268, R293). -/
def execMrLinkLoss (x : Nat) (seen : List (List BlockSeen)) (count : Nat) (s : State) : Host.Outcome State Fault Refusal :=
  .next (s.clocked fun s => s.within x 2 fun s => s.linkLoss x seen count)

/-- MR_RETRAIN: a write of RETRAIN = 1 (11 R270). -/
def execMrRetrain (r : Req) (x : Nat) (v : Word) (s : State) : Host.Outcome State Fault Refusal :=
  .next (s.within x 2 fun s => s.regWrite r (Reg.MR_CTRL x) (forceBits v (Reg.MR_CTRL.RETRAIN x) 1))

/-- MR_LCB_RECEIVE: an LCB arrives (11 R279). -/
def execMrLcbReceive (x : Nat) (d : List Byte) (s : State) : Host.Outcome State Fault Refusal :=
  .next (s.clocked fun s => s.within x 2 fun s => s.lcbArrives x d)

/-- MR_REPLAY_TIMER: the oldest unacknowledged frame is 8 µs old (11 R278). -/
def execMrReplayTimer (x : Nat) (s : State) : Host.Outcome State Fault Refusal :=
  .next (s.clocked fun s => s.within x 2 fun s => s.replayTimer x)

/-- MR_M1_ENTRY: an idle transmitter enters M1 (11 R273). -/
def execMrM1Entry (x : Nat) (s : State) : Host.Outcome State Fault Refusal :=
  .next (s.clocked fun s => s.within x 2 fun s => s.m1Entry x)

/-- MR_M1_EXIT: a transmitter leaves M1 (11 R273). -/
def execMrM1Exit (x : Nat) (s : State) : Host.Outcome State Fault Refusal :=
  .next (s.clocked fun s => s.within x 2 fun s => (s.m1Exit x).regResume x)

/-- M2_REQ: a write of M2_REQ = 1 (11 R274). -/
def execM2Req (r : Req) (x : Nat) (v : Word) (s : State) : Host.Outcome State Fault Refusal :=
  .next (s.within x 2 fun s => s.regWrite r (Reg.MR_CTRL x) (forceBits v (Reg.MR_CTRL.M2_REQ x) 1))

/-- MR_M2_EIE_SEND: every frame is acknowledged, and EIE with target 2 leaves (11 R274). -/
def execMrM2EieSend (x : Nat) (s : State) : Host.Outcome State Fault Refusal :=
  .next (s.clocked fun s => s.within x 2 fun s => s.m2Send x)

/-- MR_EIE_RECEIVE: an EIE block arrives (11 R274). -/
def execMrEieReceive (x : Nat) (d : List Byte) (s : State) : Host.Outcome State Fault Refusal :=
  .next (s.clocked fun s => s.within x 2 fun s => s.eieReceive x d)

/-- MR_TEST_START: START of a loop test (11 R275). -/
def execMrTestStart (r : Req) (x : Nat) (v : Word) (s : State) : Host.Outcome State Fault Refusal :=
  .next (s.within x 2 fun s => s.regWrite r (Reg.MR_TEST x) (forceBits v (Reg.MR_TEST.START x) 1))

/-- MR_TEST_STOP: STOP of a loop test, with what the checkers of the lanes received (11 R275). -/
def execMrTestStop (r : Req) (x : Nat) (v : Word) (rx : List (List Bool)) (s : State) : Host.Outcome State Fault Refusal :=
  .next (s.within x 2 fun s => if s.refusal r (Reg.MR_TEST x) true = accOk then s.mrTestWrite (s.actsSup r) x (forceBits v (Reg.MR_TEST.STOP x) 1) (some rx) else s.accFault r (Reg.MR_TEST x) true)

/-- MR_TEST_DURATION_END: a test reaches its DURATION (11 R275). -/
def execMrTestDurationEnd (x : Nat) (rx : List (List Bool)) (s : State) : Host.Outcome State Fault Refusal :=
  .next (s.clocked fun s => s.within x 2 fun s => s.mrTestOver x rx)

/-- MR_LOOP_EXIT: a granted far-end loop has no data (11 R275). -/
def execMrLoopExit (x : Nat) (s : State) : Host.Outcome State Fault Refusal :=
  .next (s.clocked fun s => s.within x 2 fun s => s.loopExit x)

/-- MR_ROLE_HOLD_EXPIRY: HOLD has passed under AUTO (11 R292). -/
def execMrRoleHoldExpiry (s : State) : Host.Outcome State Fault Refusal :=
  .next (s.clocked fun s => s.roleHold)

/-- MR_PORT_ENABLE: a write of MRx_CTRL.EN (11 R270). -/
def execMrPortEnable (r : Req) (x : Nat) (v : Word) (s : State) : Host.Outcome State Fault Refusal :=
  .next (s.within x 2 fun s => s.regWrite r (Reg.MR_CTRL x) v)

/-- MR_M2_EXIT: a port leaves M2 (11 R274). -/
def execMrM2Exit (x : Nat) (s : State) : Host.Outcome State Fault Refusal :=
  .next (s.clocked fun s => s.within x 2 fun s => s.m2Exit x)

/-- MR_M1_LOCK_REGAIN: the receiver regains lane lock over the blocks it has seen on each lane (11 R273). -/
def execMrM1LockRegain (w : LanesSeen) (s : State) : Host.Outcome State Fault Refusal :=
  .next (s.clocked fun s => s.within w.port 2 fun s => s.m1Regain w.port w.lanes)

end Sys2Proof.Machine
end

