-- ==== Sys2Proof/Machine/CmdNectar.lean ====
section
/-! DEFINITION. The meanings of the commands of the Nectar codec and the clip feeder (06): one definition for each command, over the operations of the
block. Every command ends in a next state (log 1). -/

namespace Sys2Proof.Machine

/-- SCENE_FRAME_RECEIVE: a SCENE frame arrives on port `x`; `ok` tells whether its CRC and form are right (11 R282). -/
def execSceneFrameReceive (x : Nat) (seq : Nat) (first : Bool) (last : Bool) (payload : List Byte) (e : RxEnd) (s : State) : Host.Outcome State Fault Refusal :=
  .next (s.clocked fun s => s.within x 2 fun s => s.sceneFrame x seq first last payload e)

/-- NEC_BLOCK_TAKE: a unit takes a block (06 R144). -/
def execNecBlockTake (u : Nat) (s : State) : Host.Outcome State Fault Refusal :=
  .next (s.clocked fun s => s.within u 32 fun s => (s.takeBlock u).sceneCredits)

/-- NEC_FSN_OPEN: a newer FSN is opened (06 R144). -/
def execNecFsnOpen (u : Nat) (n : Nat) (s : State) : Host.Outcome State Fault Refusal :=
  .next (s.clocked fun s => s.within u 32 fun s => s.within n 32 fun s => (s.fsnOpen u n).sceneCredits)

/-- NEC_DEFERRED_RELEASE: a deferred block proceeds (06 R145). -/
def execNecDeferredRelease (u : Nat) (n : Nat) (s : State) : Host.Outcome State Fault Refusal :=
  .next (s.clocked fun s => s.within u 32 fun s => s.within n 32 fun s => (s.deferredRelease u n).sceneCredits)

/-- NEC_BLOCK_END: a block decode ends; `bad` is the address of a burst in which it found something (06 R149). -/
def execNecBlockEnd (u : Nat) (bad : Option (Nat × HbmFind)) (s : State) : Host.Outcome State Fault Refusal :=
  .next (s.clocked fun s => s.within u 32 fun s => ((s.badBurst bad 3).necBlockEnd u).sceneCredits)

/-- NEC_THROTTLE_PAUSE_END: the pause of a unit is over, and it takes its next work (06 R164). -/
def execNecThrottlePauseEnd (u : Nat) (s : State) : Host.Outcome State Fault Refusal :=
  .next (s.clocked fun s => s.within u 32 fun s => ((s.takeBlock u).takeJob u fun _ => true).sceneCredits)

/-- CTX_FLUSH: a write of CTX_FLUSH = 1 (06 R153). -/
def execCtxFlush (r : Req) (v : Word) (s : State) : Host.Outcome State Fault Refusal :=
  .next (s.regWrite r Reg.NEC_CTRL (forceBits v Reg.NEC_CTRL.CTX_FLUSH 1))

/-- CTX_FLUSH_DONE: every modified record stands in HBM (06 R153). -/
def execCtxFlushDone (s : State) : Host.Outcome State Fault Refusal :=
  .next (s.clocked fun s => s.hbmFor fun s =>
    if s.flag Reg.NEC_STATUS.FLUSH_BUSY then s.ctxFlush.set Reg.NEC_STATUS.FLUSH_BUSY 0 else s)

/-- JOB_POST: a write of NEC_JQ_TAIL (06 R154). -/
def execJobPost (r : Req) (v : Word) (s : State) : Host.Outcome State Fault Refusal :=
  .next (s.regWrite r Reg.NEC_JQ_TAIL v)

/-- DECODE: a unit takes a DECODE job; its segment is carried out when it ends (06 R155). -/
def execDecode (u : Nat) (s : State) : Host.Outcome State Fault Refusal :=
  .next (s.clocked fun s => s.within u 32 fun s => s.takeJob u fun d => jobKind d == 1 && !(jobResume d))

/-- ENCODE: a unit takes an ENCODE job (06 R158). -/
def execEncode (u : Nat) (s : State) : Host.Outcome State Fault Refusal :=
  .next (s.clocked fun s => s.within u 32 fun s => s.takeJob u fun d => jobKind d == 2 && !(jobResume d))

/-- RESUME: a unit takes a job with OP.RESUME (06 R156). -/
def execResume (u : Nat) (s : State) : Host.Outcome State Fault Refusal :=
  .next (s.clocked fun s => s.within u 32 fun s => s.takeJob u jobResume)

/-- NEC_JOB_END: a job segment ends (06 R156). -/
def execNecJobEnd (u : Nat) (bad : Option (Nat × HbmFind)) (s : State) : Host.Outcome State Fault Refusal :=
  .next (s.clocked fun s => s.within u 32 fun s => (s.badBurst bad 3).necJobEnd u)

/-- PLAY_START: START of the clip feeder (06 R162). -/
def execPlayStart (r : Req) (v : Word) (s : State) : Host.Outcome State Fault Refusal :=
  .next (s.regWrite r Reg.NEC_PLAY_CTRL (forceBits v Reg.NEC_PLAY_CTRL.START 1))

/-- PLAY_STOP: STOP of the clip feeder (06 R162). -/
def execPlayStop (r : Req) (v : Word) (s : State) : Host.Outcome State Fault Refusal :=
  .next (s.regWrite r Reg.NEC_PLAY_CTRL (forceBits (forceBits v Reg.NEC_PLAY_CTRL.STOP 1) Reg.NEC_PLAY_CTRL.START 0))

/-- CLIP_FRAME_QUEUE: the feeder queues the next clip frame (06 R162). -/
def execClipFrameQueue (s : State) : Host.Outcome State Fault Refusal :=
  .next (s.clocked fun s => s.clipQueue)

end Sys2Proof.Machine
end

