-- ==== Sys2Proof/Machine/CmdPier.lean ====
section
/-! DEFINITION. The meanings of the commands of the pier links and the tiles (08): one definition for each command, over the operations of the
block. Every command ends in a next state (log 1). -/

namespace Sys2Proof.Machine

/-- REVERSE_TURN_RECEIVE: a TURN of the tile arrives with its bytes D1 to D7, after the blocks seen in the burst; `rx` are the bits of a
reverse test (08 R200). -/
def execReverseTurnReceive (p : Nat) (b : RxBlock) (rx : List Bool) (s : State) : Host.Outcome State Fault Refusal :=
  .next (s.clocked fun s => s.within p 512 fun s => s.turnReceive p b.seen b.bytes rx)

/-- REVERSE_WINDOW_TIMEOUT: no TURN has arrived in time, after the blocks seen (08 R200). -/
def execReverseWindowTimeout (w : PierSeen) (s : State) : Host.Outcome State Fault Refusal :=
  .next (s.clocked fun s => s.within w.pier 512 fun s => s.windowTimeout w.pier w.seen)

/-- PIER_IDLE_PERIOD: a period of the stopped Deck ends (08 R454). -/
def execPierIdlePeriod (p : Nat) (s : State) : Host.Outcome State Fault Refusal :=
  .next (s.clocked fun s => s.within p 512 fun s => s.idlePeriod p)

/-- FRAME_ACK: a FRAME_ACK arrives; the pier takes it at the TURN (08 R197, R200). -/
def execFrameAck (k : RxPkt) (frame : Nat) (crc : Nat) (ack : Nat) (kept : Nat) (f : AckFlags) (s : State) : Host.Outcome State Fault Refusal :=
  .next (s.clocked fun s => s.within k.pier 512 fun s => s.revPacket k.pier 9
    (frame % 2 ^ 24 + ofBool f.hogelErr * 2 ^ 24 + ofBool f.missed * 2 ^ 25) (leBytes 4 crc ++ leBytes 2 (ack % 4096) ++ leBytes 2 kept) k.e
    (.ack frame (crc % 2 ^ 32) (ack % 4096) kept f.hogelErr f.missed))

/-- ECHO_REP: an ECHO_REP arrives; `rtt` is RX − TX in taps, `res` the tile's RES in 1/16 UI (08 R204). -/
def execEchoRep (k : RxPkt) (id : Nat) (rtt : Nat) (res : Nat) (s : State) : Host.Outcome State Fault Refusal :=
  .next (s.clocked fun s => s.within k.pier 512 fun s => s.revPacket k.pier 10 (id % 256) (leBytes 3 res ++ leBytes 5 0) k.e
    (.echo (id % 256) rtt (res % 2 ^ 24)))

/-- NAK: a NAK arrives; the pier resends whatever its REASON (08 R197, R198). -/
def execNak (k : RxPkt) (i : NakInfo) (s : State) : Host.Outcome State Fault Refusal :=
  .next (s.clocked fun s => s.within k.pier 512 fun s =>
    s.revPacket k.pier 11 (i.seq % 4096 + i.reason % 16 * 4096) [] k.e (.nak (i.seq % 4096)))

/-- DECLARE: a DECLARE arrives (08 R207). -/
def execDeclare (k : RxTelem) (d : Declared) (s : State) : Host.Outcome State Fault Refusal :=
  .next (s.clocked fun s => s.within k.pier 512 fun s => s.revTelem k.pier k.seq 1 (declareBytes d) k.e (.declare d))

/-- STATUS: a STATUS item arrives; no rule gives its counters a further effect (08 R197). -/
def execStatus (k : RxTelem) (temp : Int) (missed : Nat) (losses : Nat) (discarded : Nat) (s : State) : Host.Outcome State Fault Refusal :=
  .next (s.clocked fun s => s.within k.pier 512 fun s =>
    let b := leBytes 2 (unsignedOf 16 temp) ++ leBytes 2 missed ++ leBytes 2 losses ++ leBytes 2 discarded
    s.revTelem k.pier k.seq 2 b k.e (.plain 2 b))

/-- READ_DATA: a READ_DATA item arrives; no rule gives it a further effect (08 R197). -/
def execReadData (k : RxTelem) (payload : List Byte) (s : State) : Host.Outcome State Fault Refusal :=
  .next (s.clocked fun s => s.within k.pier 512 fun s => s.revTelem k.pier k.seq 3 payload k.e (.plain 3 payload))

/-- TEST_RESULT: a TEST_RESULT arrives (08 R211). -/
def execTestResult (k : RxTelem) (errors : Nat) (bits : Nat) (s : State) : Host.Outcome State Fault Refusal :=
  .next (s.clocked fun s => s.within k.pier 512 fun s => s.revTelem k.pier k.seq 4 (leBytes 4 errors ++ leBytes 4 bits) k.e (.result errors bits))

/-- TILE_TELEM: an item of a tile-maker kind arrives, to be forwarded to the host (08 R197). -/
def execTileTelem (k : RxTelem) (kind : Nat) (payload : List Byte) (s : State) : Host.Outcome State Fault Refusal :=
  .next (s.clocked fun s => s.within k.pier 512 fun s => s.revTelem k.pier k.seq kind payload k.e (.tile kind payload))

/-- MISMATCH_REDISCOVER: a pier in MISMATCH sends DISCOVER again (08 R206). -/
def execMismatchRediscover (p : Nat) (s : State) : Host.Outcome State Fault Refusal :=
  .next (s.clocked fun s => s.within p 512 fun s => s.rediscover p)

/-- FLIPLAT_WRITE: a write of PIER_p_FLIPLAT (08 R208). -/
def execFliplatWrite (r : Req) (p : Nat) (v : Word) (s : State) : Host.Outcome State Fault Refusal :=
  .next (s.within p 512 fun s => s.regWrite r (Reg.PIER_FLIPLAT p) v)

/-- PIER_ENABLE_WRITE: a write of PIER_p_CFG, or of PIER_CTRL when no pier is named (08 R206). -/
def execPierEnableWrite (r : Req) (p : Option Nat) (v : Word) (s : State) : Host.Outcome State Fault Refusal :=
  .next (s.within (p.getD 0) 512 fun s => s.regWrite r (match p with | some q => Reg.PIER_CFG q | none => Reg.PIER_CTRL) v)

/-- PIER_TEST_START: START of a pier test (08 R211). -/
def execPierTestStart (r : Req) (v : Word) (s : State) : Host.Outcome State Fault Refusal :=
  .next (s.regWrite r Reg.PIER_TEST (forceBits v Reg.PIER_TEST.START 1))

end Sys2Proof.Machine
end

