-- ==== Sys2Proof/Machine/CmdPort.lean ====
section
/-! DEFINITION. The meanings of the commands of the port stage, Keystone and picture checks (07): one definition for each command, over the operations of the
block. Every command ends in a next state (log 1). -/

namespace Sys2Proof.Machine

/-- UNI_FETCH_DONE: the uniformity fetch of a hogel completes (07 R179). -/
def execUniFetchDone (p : Nat) (u : Nat) (f : HbmFind) (s : State) : Host.Outcome State Fault Refusal :=
  .next (s.clocked fun s => s.within p 512 fun s => s.uniFetch p u f)

/-- HOGEL_PROCESS: a lane processes the next hogel; `ecc` names a page whose word it finds uncorrectable (07 R167, R177). -/
def execHogelProcess (p : Nat) (f : LaneFind) (s : State) : Host.Outcome State Fault Refusal :=
  .next (s.clocked fun s => s.within p 512 fun s => s.hogelProcess p f.ecc f.fault)

/-- KEYSTONE_HOGEL_GEN: a lane generates a Keystone hogel; `ecc` names a page whose word it finds uncorrectable (07 R169, R177). -/
def execKeystoneHogelGen (p : Nat) (ecc : Option Nat) (f : LaneFault) (s : State) : Host.Outcome State Fault Refusal :=
  .next (s.clocked fun s => s.within p 512 fun s => s.keystoneHogel p ecc f)

/-- KEY_REQ_INPUT: the levels of KEY_REQ_A and KEY_REQ_B (07 R174). -/
def execKeyReqInput (a : Bool) (b : Bool) (s : State) : Host.Outcome State Fault Refusal :=
  .next (s.keyInput a b)

/-- KEY_REQ_REGISTERED: the debounce time has passed (07 R174). -/
def execKeyReqRegistered (s : State) : Host.Outcome State Fault Refusal :=
  .next (s.keyRegister)

/-- KEY_SUP_MASK_WRITE: a write of KEY_SUP_MASK (07 R175). -/
def execKeySupMaskWrite (r : Req) (v : Word) (s : State) : Host.Outcome State Fault Refusal :=
  .next (s.regWrite r Reg.KEY_SUP_MASK v)

/-- KEY_SCRUB: a scrub pass of the Keystone store ends (07 R177; 17 R418). -/
def execKeyScrub (ecc : Nat) (crc : Nat) (locked : Bool) (s : State) : Host.Outcome State Fault Refusal :=
  .next (s.clocked fun s => s.keyScrub ecc crc locked)

/-- PLUT_LOAD_START: START of a post-blend set load (07 R183). -/
def execPlutLoadStart (r : Req) (v : Word) (s : State) : Host.Outcome State Fault Refusal :=
  .next (s.regWrite r Reg.PORT_LUT_LOAD (forceBits v Reg.PORT_LUT_LOAD.START 1))

/-- PLUT_LOAD_DONE: the running set load ends (07 R183). -/
def execPlutLoadDone (f : HbmFind) (s : State) : Host.Outcome State Fault Refusal :=
  .next (s.clocked fun s => s.plutDone f)

/-- CRC_RECT_EVAL: a rectangle is evaluated (07 R185). -/
def execCrcRectEval (n : Nat) (s : State) : Host.Outcome State Fault Refusal :=
  .next (s.clocked fun s => s.within n 64 fun s => s.rectEval n)

end Sys2Proof.Machine
end

