-- ==== Sys2Proof/Machine/CmdSup.lean ====
section
/-! DEFINITION. The meanings of the commands of the supervisor, events and the fault log (15): one definition for each command, over the operations of the
block. Every command ends in a next state (log 1). -/

namespace Sys2Proof.Machine

/-- EVENT_HOST_SEND: a record leaves for the host (15 R375). -/
def execEventHostSend (s : State) : Host.Outcome State Fault Refusal :=
  .next (s.clocked fun s => s.eventHostSend)

/-- LOG_SUMMARY_WRITE: a token is free after suppression (15 R379). -/
def execLogSummaryWrite (s : State) : Host.Outcome State Fault Refusal :=
  .next (s.clocked fun s => s.logSummary)

/-- EVT_REC_READ: a read of EVT_REC0 (15 R375). -/
def execEvtRecRead (r : Req) (s : State) : Host.Outcome State Fault Refusal :=
  .next (s.regTake r (Reg.EVT_REC 0))

/-- EVT_POST: a write of EVT_POST (15 R377). -/
def execEvtPost (r : Req) (v : Word) (s : State) : Host.Outcome State Fault Refusal :=
  .next (s.regWrite r Reg.EVT_POST v)

/-- CLEAR: a write of EVT_LOG_CTRL.CLEAR = 1 (15 R380). -/
def execClear (r : Req) (v : Word) (s : State) : Host.Outcome State Fault Refusal :=
  .next (s.regWrite r Reg.EVT_LOG_CTRL (forceBits v Reg.EVT_LOG_CTRL.CLEAR 1))

/-- WDT_KICK: a write of SUP_WDT_KICK (15 R381). -/
def execWdtKick (r : Req) (v : Word) (s : State) : Host.Outcome State Fault Refusal :=
  .next (s.regWrite r Reg.SUP_WDT_KICK v)

/-- WDT_WARN: 75 % of TIMEOUT have passed (15 R381). -/
def execWdtWarn (s : State) : Host.Outcome State Fault Refusal :=
  .next (s.wdtWarn)

/-- WDT_EXPIRE: TIMEOUT has passed (15 R381). -/
def execWdtExpire (s : State) : Host.Outcome State Fault Refusal :=
  .next (s.wdtLate)

/-- LOCK: a write of SUP_WDT_CFG.LOCK = 1 (15 R381). -/
def execLock (r : Req) (v : Word) (s : State) : Host.Outcome State Fault Refusal :=
  .next (s.regWrite r Reg.SUP_WDT_CFG (forceBits v Reg.SUP_WDT_CFG.LOCK 1))

/-- LOCKSTEP_MISMATCH: the two cores differ (15 R363). -/
def execLockstepMismatch (pc : Nat) (s : State) : Host.Outcome State Fault Refusal :=
  .next (s.lockstep pc)

/-- TCM_ECC_ERROR: an ECC error in the TCM (15 R363). -/
def execTcmEccError (a : Nat) (unc : Bool) (s : State) : Host.Outcome State Fault Refusal :=
  .next (s.tcmError a unc)

/-- MBX_H2S_SEND: a write of H2S SEND = 1 (15 R382). -/
def execMbxH2sSend (r : Req) (v : Word) (s : State) : Host.Outcome State Fault Refusal :=
  .next (s.regWrite r Reg.SUP_MBX_H2S_CTRL (forceBits v Reg.SUP_MBX_H2S_CTRL.SEND 1))

/-- MBX_H2S_ACK: a write of H2S ACK = 1 (15 R382). -/
def execMbxH2sAck (r : Req) (v : Word) (s : State) : Host.Outcome State Fault Refusal :=
  .next (s.regWrite r Reg.SUP_MBX_H2S_CTRL (forceBits v Reg.SUP_MBX_H2S_CTRL.ACK 1))

/-- MBX_S2H_SEND: a write of S2H SEND = 1 (15 R382). -/
def execMbxS2hSend (r : Req) (v : Word) (s : State) : Host.Outcome State Fault Refusal :=
  .next (s.regWrite r (mbxCtrl 1) (forceBits v Reg.SUP_MBX_H2S_CTRL.SEND 1))

/-- MBX_S2H_ACK: a write of S2H ACK = 1 (15 R382). -/
def execMbxS2hAck (r : Req) (v : Word) (s : State) : Host.Outcome State Fault Refusal :=
  .next (s.regWrite r (mbxCtrl 1) (forceBits v Reg.SUP_MBX_H2S_CTRL.ACK 1))

/-- SEM_ACQUIRE: a read of SUP_SEMn (15 R371). -/
def execSemAcquire (r : Req) (n : Nat) (s : State) : Host.Outcome State Fault Refusal :=
  .next (s.within n 16 fun s => s.regTake r (Reg.SUP_SEM n))

/-- SEM_RELEASE: a write of 1 to bit 0 of SUP_SEMn (15 R371). -/
def execSemRelease (r : Req) (n : Nat) (s : State) : Host.Outcome State Fault Refusal :=
  .next (s.within n 16 fun s => s.regWrite r (Reg.SUP_SEM n) 1)

/-- FORCE: a write of SUP_SEMn.FORCE = 1 (15 R371). -/
def execForce (r : Req) (n : Nat) (s : State) : Host.Outcome State Fault Refusal :=
  .next (s.within n 16 fun s => s.regWrite r (Reg.SUP_SEM n) (forceBits 0 (Reg.SUP_SEM.FORCE n) 1))

end Sys2Proof.Machine
end

