-- ==== Sys2Proof/Machine/CmdThm.lean ====
section
/-! DEFINITION. The meanings of the commands of temperature, calibration and power (14): one definition for each command, over the operations of the
block. Every command ends in a next state (log 1). -/

namespace Sys2Proof.Machine

/-- THM_SAMPLE: both channels sample, in 1/64 °C (14 R340). -/
def execThmSample (a : Int) (b : Int) (stuckA : Bool) (stuckB : Bool) (s : State) : Host.Outcome State Fault Refusal :=
  .next (s.clocked fun s => s.thmSample a b stuckA stuckB)

/-- THM_LIMITS_WRITE: a write of THM_LIMITS (14 R338). -/
def execThmLimitsWrite (r : Req) (v : Word) (s : State) : Host.Outcome State Fault Refusal :=
  .next (s.regWrite r Reg.THM_LIMITS v)

/-- THM_FORCE_WRITE: a write of THM_THROTTLE.FORCE (14 R340). -/
def execThmForceWrite (r : Req) (v : Word) (s : State) : Host.Outcome State Fault Refusal :=
  .next (s.regWrite r Reg.THM_THROTTLE v)

/-- THM_POWERDOWN_WAIT: 100 ms have passed since a trip without Keystone (14 R342). -/
def execThmPowerdownWait (s : State) : Host.Outcome State Fault Refusal :=
  .next (s.clocked fun s => s.tripWait)

/-- CAL_REQ: a write of CAL_CFG.REQ = 1 (14 R349). -/
def execCalReq (r : Req) (v : Word) (s : State) : Host.Outcome State Fault Refusal :=
  .next (s.regWrite r Reg.CAL_CFG (forceBits v Reg.CAL_CFG.REQ 1))

/-- CAL_RUN_START: a due run starts; `ms` are the measurements of its first quantities (14 R349). -/
def execCalRunStart (ms : List (Int × Int)) (s : State) : Host.Outcome State Fault Refusal :=
  .next (s.clocked fun s => s.calStart ms)

/-- CAL_PIER_MEASURE: a pier has been measured (14 R351). -/
def execCalPierMeasure (p : Nat) (vals : Option (List Int)) (s : State) : Host.Outcome State Fault Refusal :=
  .next (s.clocked fun s => s.within p 512 fun s => s.calPier p vals)

/-- CAL_INTERVAL_END: the interval between the passes ends (14 R350). -/
def execCalIntervalEnd (s : State) : Host.Outcome State Fault Refusal :=
  .next (s.clocked fun s => s.calInterval)

/-- CAL_JUDGE: the quantities are judged (14 R352). -/
def execCalJudge (s : State) : Host.Outcome State Fault Refusal :=
  .next (s.clocked fun s => s.calJudge)

/-- CAL_STORE_DONE: the record has been stored (14 R353). -/
def execCalStoreDone (s : State) : Host.Outcome State Fault Refusal :=
  .next (s.clocked fun s => s.calStoreDone)

/-- PWR_RAIL_ENABLE: the next rail is enabled; `good` once READ_VOUT lies within ±3 % (14 R355). -/
def execPwrRailEnable (good : Bool) (s : State) : Host.Outcome State Fault Refusal :=
  .next (s.clocked fun s => s.railEnable good)

/-- PWR_RAIL_TIMEOUT: a rail is not good within 20 ms (14 R355). -/
def execPwrRailTimeout (rail : Nat) (vout : Nat) (status : Nat) (s : State) : Host.Outcome State Fault Refusal :=
  .next (s.clocked fun s => s.railTimeout rail vout status)

/-- PWR_STAGE4_RETRY: the rail sequence is retried (16 R407). -/
def execPwrStage4Retry (s : State) : Host.Outcome State Fault Refusal :=
  .next (s.clocked fun s => s.stage4Retry)

/-- PWR_QUAD_CHECK: the quadrant supplies are read (14 R354). -/
def execPwrQuadCheck (v0 : Nat) (v1 : Nat) (v2 : Nat) (v3 : Nat) (s : State) : Host.Outcome State Fault Refusal :=
  .next (s.clocked fun s => s.quadCheck v0 v1 v2 v3)

/-- AVS_ADJUST: AVS reads the worst margin (14 R358). -/
def execAvsAdjust (margin : Nat) (vout : Nat) (s : State) : Host.Outcome State Fault Refusal :=
  .next (s.clocked fun s => s.avsAdjust margin vout)

/-- PMB_TRANSACTION: START of a PMBus transaction (14 R359). -/
def execPmbTransaction (r : Req) (v : Word) (s : State) : Host.Outcome State Fault Refusal :=
  .next (s.regWrite r Reg.PWR_PMB_CMD (forceBits v Reg.PWR_PMB_CMD.START 1))

/-- PMB_DONE: the PMBus transaction ends (14 R359). -/
def execPmbDone (err : Nat) (alert : Bool) (data : Nat) (s : State) : Host.Outcome State Fault Refusal :=
  .next (s.clocked fun s => s.pmbDone err alert data)

/-- POWER_DOWN: the rails are switched off (14 R356). -/
def execPowerDown (s : State) : Host.Outcome State Fault Refusal :=
  .next (s.clocked fun s => s.powerDown)

end Sys2Proof.Machine
end

