-- ==== Sys2Proof/Machine/CmdTime.lean ====
section
/-! DEFINITION. The meanings of the commands of network time and clocking (10): one definition for each command, over the operations of the
block. Every command ends in a next state (log 1). -/

namespace Sys2Proof.Machine

/-- NT_ADJ: a write of the high word of NT_ADJ (10 R239). -/
def execNtAdj (r : Req) (v : Word) (s : State) : Host.Outcome State Fault Refusal :=
  .next (s.regWrite r (Reg.NT_ADJ + 4) v)

/-- NT_SET: a write of the last word of NT_SET (10 R240). -/
def execNtSet (r : Req) (v : Word) (s : State) : Host.Outcome State Fault Refusal :=
  .next (s.regWrite r (Reg.NT_SET + 8) v)

/-- NT_SLEW_END: a slew is complete (10 R239). -/
def execNtSlewEnd (s : State) : Host.Outcome State Fault Refusal :=
  .next (s.clocked fun s => s.slewEnd)

/-- NT_FREQ_WRITE: a write of NT_FREQ (10 R238). -/
def execNtFreqWrite (r : Req) (v : Word) (s : State) : Host.Outcome State Fault Refusal :=
  .next (s.regWrite r Reg.NT_FREQ v)

/-- NT_ALARM_ARM: a write of ARM = 1 (10 R245). -/
def execNtAlarmArm (r : Req) (n : Nat) (v : Word) (s : State) : Host.Outcome State Fault Refusal :=
  .next (s.within n 8 fun s => s.regWrite r (Reg.NT_ALARM_CTRL n) (forceBits v (Reg.NT_ALARM_CTRL.ARM n) 1))

/-- NT_ALARM_DISARM: a write of DISARM = 1 (10 R245). -/
def execNtAlarmDisarm (r : Req) (n : Nat) (v : Word) (s : State) : Host.Outcome State Fault Refusal :=
  .next (s.within n 8 fun s => s.regWrite r (Reg.NT_ALARM_CTRL n) (forceBits (forceBits v (Reg.NT_ALARM_CTRL.DISARM n) 1) (Reg.NT_ALARM_CTRL.ARM n) 0))

/-- NT_ALARM_FIRE: an alarm reaches its target (10 R245). -/
def execNtAlarmFire (n : Nat) (s : State) : Host.Outcome State Fault Refusal :=
  .next (s.clocked fun s => s.within n 8 fun s => s.alarmFire n)

/-- PPS_OUT_RISE: PPS_OUT rises (10 R246). -/
def execPpsOutRise (s : State) : Host.Outcome State Fault Refusal :=
  .next (s.clocked fun s => s.ppsRise)

/-- PPS_OUT_FALL: PPS_OUT falls (10 R246). -/
def execPpsOutFall (s : State) : Host.Outcome State Fault Refusal :=
  .next (s.clocked fun s => s.ppsFall)

/-- TIME_FRAME_TRANSMIT: a TIME frame leaves; `stamp` is NT at the internal stamp point in 2^-16 ns (10 R251). -/
def execTimeFrameTransmit (x : Nat) (msg : List Byte) (stamp : Nat) (s : State) : Host.Outcome State Fault Refusal :=
  .next (s.clocked fun s => s.within x 2 fun s => s.timeFrameSent x msg stamp)

/-- TIME_FRAME_RECEIVE: a TIME frame arrives; `done` of the earlier ones have been processed since the last (10 R250; 11 R279). -/
def execTimeFrameReceive (x : Nat) (msg : List Byte) (stamp : Nat) (done : Nat) (e : RxEnd) (s : State) : Host.Outcome State Fault Refusal :=
  .next (s.clocked fun s => s.within x 2 fun s => s.timeFrame x msg stamp done e)

/-- NT_TXQ_READ: a read of NT_TXQx word 0 (10 R251). -/
def execNtTxqRead (r : Req) (x : Nat) (s : State) : Host.Outcome State Fault Refusal :=
  .next (s.within x 2 fun s => s.regTake r (Reg.NT_TXQ x))

/-- ADPLL_CODES_FOUND: the search or the check of stored codes has found the codes, and the phase error in ps is measured (10 R254). -/
def execAdpllCodesFound (c : DcoBand) (check : Bool) (phase : Int) (s : State) : Host.Outcome State Fault Refusal :=
  .next (s.clocked fun s => s.codesFound c.coarse c.medium check phase)

/-- ADPLL_LOCKED: the loop has locked; a training that waited for it starts (10 R257; 16 R394). -/
def execAdpllLocked (phaseErr : Int) (s : State) : Host.Outcome State Fault Refusal :=
  .next (s.clocked fun s => (s.clkLocked phaseErr).hbmGoLocked)

/-- ADPLL_FAST_HOP: a fast hop (10 R255). -/
def execAdpllFastHop (s : State) : Host.Outcome State Fault Refusal :=
  .next (s.clocked fun s => s.fastHop)

/-- REF_LOSS: a reference is found at fault (10 R258). -/
def execRefLoss (r : RefLost) (s : State) : Host.Outcome State Fault Refusal :=
  .next (s.clocked fun s => s.refLoss r.ref r.why r.phase)

/-- REF_QUALIFIED: a reference has been valid for 10 ms (10 R258). -/
def execRefQualified (r : RefFound) (s : State) : Host.Outcome State Fault Refusal :=
  .next (s.clocked fun s => s.refQualified r.ref r.phase)

/-- REF_REVERT: PRIMARY is taken again (10 R258). -/
def execRefRevert (s : State) : Host.Outcome State Fault Refusal :=
  .next (s.clocked fun s => s.refRevert)

/-- DCO_CHECK: the island judges the DCO (10 R260). -/
def execDcoCheck (ppm : Int) (s : State) : Host.Outcome State Fault Refusal :=
  .next (s.clocked fun s => s.dcoCheck ppm)

/-- CLOCK_MONITOR_WINDOW: a window of the clock counters ends (10 R261). -/
def execClockMonitorWindow (clock : Nat) (count : Nat) (other : Nat) (s : State) : Host.Outcome State Fault Refusal :=
  .next (s.clocked fun s => s.clockWindow clock count other)

end Sys2Proof.Machine
end

