-- ==== Sys2Proof/Machine/CmdVdt.lean ====
section
/-! DEFINITION. The meanings of the commands of Viaduct (09): one definition for each command, over the operations of the
block. Every command ends in a next state (log 1). -/

namespace Sys2Proof.Machine

/-- PACKET_ENQUEUE: a packet enters a class queue (09 R217). -/
def execPacketEnqueue (p : Nat) (c : Nat) (info : Nat) (payload : List Byte) (s : State) : Host.Outcome State Fault Refusal :=
  .next (s.clocked fun s => s.within p 512 fun s => s.within c 4 fun s => s.packetEnqueue p c info payload)

/-- VDT_SCHEDULE: a block boundary with the line free (09 R218). -/
def execVdtSchedule (p : Nat) (s : State) : Host.Outcome State Fault Refusal :=
  .next (s.clocked fun s => s.within p 512 fun s => s.vdtSchedule p)

/-- PACKET_SENT: a transmission ends (09 R218). -/
def execPacketSent (p : Nat) (s : State) : Host.Outcome State Fault Refusal :=
  .next (s.clocked fun s => s.within p 512 fun s => s.packetSent p)

/-- GATE_CYCLE_START: a gate cycle starts (09 R221). -/
def execGateCycleStart (g : Nat) (s : State) : Host.Outcome State Fault Refusal :=
  .next (s.clocked fun s => s.within g 16 fun s => s.cycleStart g)

/-- GATE_ENTRY_BOUNDARY: a gate entry ends (09 R222). -/
def execGateEntryBoundary (g : Nat) (s : State) : Host.Outcome State Fault Refusal :=
  .next (s.clocked fun s => s.within g 16 fun s => s.entryBoundary g)

/-- GATE_EN_WRITE: a write of GATE_EN (09 R455). -/
def execGateEnWrite (r : Req) (v : Word) (s : State) : Host.Outcome State Fault Refusal :=
  .next (s.regWrite r Reg.VDT_CTRL v)

/-- GATE_BANK_WRITE: a write of a gate-list bank (09 R230). -/
def execGateBankWrite (r : Req) (a : Nat) (v : Word) (s : State) : Host.Outcome State Fault Refusal :=
  .next (if (bankAt a).isSome then s.regWrite r a v else s)

/-- GATE_SWAP_REQUEST: a write of SWAP.REQ = 1 (09 R229). -/
def execGateSwapRequest (r : Req) (g : Nat) (v : Word) (s : State) : Host.Outcome State Fault Refusal :=
  .next (s.within g 16 fun s => s.regWrite r (Reg.VDT_G_SWAP g) (forceBits v (Reg.VDT_G_SWAP.REQ g) 1))

/-- GATE_SWAP_START: an accepted swap starts (09 R230). -/
def execGateSwapStart (g : Nat) (s : State) : Host.Outcome State Fault Refusal :=
  .next (s.clocked fun s => s.within g 16 fun s => s.gateSwapStart g)

/-- FREE_WINDOW: a free reverse window is due (08 R199). -/
def execFreeWindow (p : Nat) (s : State) : Host.Outcome State Fault Refusal :=
  .next (s.clocked fun s => s.within p 512 fun s => s.freeWindow p)

end Sys2Proof.Machine
end

