-- ==== Sys2Proof/Machine/Dispatch.lean ====
section
/-! DEFINITION. One arm for each command, in the order of the opcode table. -/

namespace Sys2Proof.Machine

/-- The effect of a command on everything but the queue. -/
def exec (i : Instr) (s : State) : Host.Outcome State Fault Refusal :=
  match i with
  | .registerWrite r a v => Sys2Proof.Machine.execRegisterWrite r a v s
  | .shadowWrite r a v => Sys2Proof.Machine.execShadowWrite r a v s
  | .deckRun r v => Sys2Proof.Machine.execDeckRun r v s
  | .deckStop r v => Sys2Proof.Machine.execDeckStop r v s
  | .frameStart => Sys2Proof.Machine.execFrameStart s
  | .scanLineStart => Sys2Proof.Machine.execScanLineStart s
  | .latchPoint => Sys2Proof.Machine.execLatchPoint s
  | .flipEmission p => Sys2Proof.Machine.execFlipEmission p s
  | .deckCommitGo r v => Sys2Proof.Machine.execDeckCommitGo r v s
  | .commitValidated => Sys2Proof.Machine.execCommitValidated s
  | .deckCommitCancel r v => Sys2Proof.Machine.execDeckCommitCancel r v s
  | .commitRevalidated => Sys2Proof.Machine.execCommitRevalidated s
  | .deckStateReq r v => Sys2Proof.Machine.execDeckStateReq r v s
  | .bandJobIssue p => Sys2Proof.Machine.execBandJobIssue p s
  | .cellJobDispatch c => Sys2Proof.Machine.execCellJobDispatch c s
  | .cellJobComplete c k f => Sys2Proof.Machine.execCellJobComplete c k f s
  | .jobDeadline p u => Sys2Proof.Machine.execJobDeadline p u s
  | .bandFetchStart c => Sys2Proof.Machine.execBandFetchStart c s
  | .bandResident c n f => Sys2Proof.Machine.execBandResident c n f s
  | .bandDeadline c => Sys2Proof.Machine.execBandDeadline c s
  | .combWakeDone c => Sys2Proof.Machine.execCombWakeDone c s
  | .auditCompare c f => Sys2Proof.Machine.execAuditCompare c f s
  | .auditArbitrate c late f => Sys2Proof.Machine.execAuditArbitrate c late f s
  | .cellProgramReload c k => Sys2Proof.Machine.execCellProgramReload c k s
  | .lutStoreScrub c bad => Sys2Proof.Machine.execLutStoreScrub c bad s
  | .fenceWrite r n v => Sys2Proof.Machine.execFenceWrite r n v s
  | .lutLoadStart r v => Sys2Proof.Machine.execLutLoadStart r v s
  | .paletteLoadStart r v => Sys2Proof.Machine.execPaletteLoadStart r v s
  | .lutLoadDone f => Sys2Proof.Machine.execLutLoadDone f s
  | .sceneFrameReceive x seq first last payload e => Sys2Proof.Machine.execSceneFrameReceive x seq first last payload e s
  | .necBlockTake u => Sys2Proof.Machine.execNecBlockTake u s
  | .necFsnOpen u n => Sys2Proof.Machine.execNecFsnOpen u n s
  | .necDeferredRelease u n => Sys2Proof.Machine.execNecDeferredRelease u n s
  | .necBlockEnd u bad => Sys2Proof.Machine.execNecBlockEnd u bad s
  | .necThrottlePauseEnd u => Sys2Proof.Machine.execNecThrottlePauseEnd u s
  | .ctxFlush r v => Sys2Proof.Machine.execCtxFlush r v s
  | .ctxFlushDone => Sys2Proof.Machine.execCtxFlushDone s
  | .jobPost r v => Sys2Proof.Machine.execJobPost r v s
  | .decode u => Sys2Proof.Machine.execDecode u s
  | .encode u => Sys2Proof.Machine.execEncode u s
  | .resume u => Sys2Proof.Machine.execResume u s
  | .necJobEnd u bad => Sys2Proof.Machine.execNecJobEnd u bad s
  | .playStart r v => Sys2Proof.Machine.execPlayStart r v s
  | .playStop r v => Sys2Proof.Machine.execPlayStop r v s
  | .clipFrameQueue => Sys2Proof.Machine.execClipFrameQueue s
  | .uniFetchDone p u f => Sys2Proof.Machine.execUniFetchDone p u f s
  | .hogelProcess p f => Sys2Proof.Machine.execHogelProcess p f s
  | .keystoneHogelGen p ecc f => Sys2Proof.Machine.execKeystoneHogelGen p ecc f s
  | .keyReqInput a b => Sys2Proof.Machine.execKeyReqInput a b s
  | .keyReqRegistered => Sys2Proof.Machine.execKeyReqRegistered s
  | .keySupMaskWrite r v => Sys2Proof.Machine.execKeySupMaskWrite r v s
  | .keyScrub ecc crc locked => Sys2Proof.Machine.execKeyScrub ecc crc locked s
  | .plutLoadStart r v => Sys2Proof.Machine.execPlutLoadStart r v s
  | .plutLoadDone f => Sys2Proof.Machine.execPlutLoadDone f s
  | .crcRectEval n => Sys2Proof.Machine.execCrcRectEval n s
  | .packetEnqueue p c info payload => Sys2Proof.Machine.execPacketEnqueue p c info payload s
  | .vdtSchedule p => Sys2Proof.Machine.execVdtSchedule p s
  | .packetSent p => Sys2Proof.Machine.execPacketSent p s
  | .gateCycleStart g => Sys2Proof.Machine.execGateCycleStart g s
  | .gateEntryBoundary g => Sys2Proof.Machine.execGateEntryBoundary g s
  | .gateEnWrite r v => Sys2Proof.Machine.execGateEnWrite r v s
  | .gateBankWrite r a v => Sys2Proof.Machine.execGateBankWrite r a v s
  | .gateSwapRequest r g v => Sys2Proof.Machine.execGateSwapRequest r g v s
  | .gateSwapStart g => Sys2Proof.Machine.execGateSwapStart g s
  | .freeWindow p => Sys2Proof.Machine.execFreeWindow p s
  | .reverseTurnReceive p b rx => Sys2Proof.Machine.execReverseTurnReceive p b rx s
  | .reverseWindowTimeout w => Sys2Proof.Machine.execReverseWindowTimeout w s
  | .pierIdlePeriod p => Sys2Proof.Machine.execPierIdlePeriod p s
  | .frameAck k frame crc ack kept f => Sys2Proof.Machine.execFrameAck k frame crc ack kept f s
  | .echoRep k id rtt res => Sys2Proof.Machine.execEchoRep k id rtt res s
  | .nak k n => Sys2Proof.Machine.execNak k n s
  | .declare k d => Sys2Proof.Machine.execDeclare k d s
  | .status k temp missed losses discarded => Sys2Proof.Machine.execStatus k temp missed losses discarded s
  | .readData k payload => Sys2Proof.Machine.execReadData k payload s
  | .testResult k errors bits => Sys2Proof.Machine.execTestResult k errors bits s
  | .tileTelem k kind payload => Sys2Proof.Machine.execTileTelem k kind payload s
  | .mismatchRediscover p => Sys2Proof.Machine.execMismatchRediscover p s
  | .fliplatWrite r p v => Sys2Proof.Machine.execFliplatWrite r p v s
  | .pierEnableWrite r p v => Sys2Proof.Machine.execPierEnableWrite r p v s
  | .pierTestStart r v => Sys2Proof.Machine.execPierTestStart r v s
  | .ntAdj r v => Sys2Proof.Machine.execNtAdj r v s
  | .ntSet r v => Sys2Proof.Machine.execNtSet r v s
  | .ntSlewEnd => Sys2Proof.Machine.execNtSlewEnd s
  | .ntFreqWrite r v => Sys2Proof.Machine.execNtFreqWrite r v s
  | .ntAlarmArm r n v => Sys2Proof.Machine.execNtAlarmArm r n v s
  | .ntAlarmDisarm r n v => Sys2Proof.Machine.execNtAlarmDisarm r n v s
  | .ntAlarmFire n => Sys2Proof.Machine.execNtAlarmFire n s
  | .ppsOutRise => Sys2Proof.Machine.execPpsOutRise s
  | .ppsOutFall => Sys2Proof.Machine.execPpsOutFall s
  | .timeFrameTransmit x msg stamp => Sys2Proof.Machine.execTimeFrameTransmit x msg stamp s
  | .timeFrameReceive x msg stamp done e => Sys2Proof.Machine.execTimeFrameReceive x msg stamp done e s
  | .ntTxqRead r x => Sys2Proof.Machine.execNtTxqRead r x s
  | .adpllCodesFound c check phase => Sys2Proof.Machine.execAdpllCodesFound c check phase s
  | .adpllLocked phaseErr => Sys2Proof.Machine.execAdpllLocked phaseErr s
  | .adpllFastHop => Sys2Proof.Machine.execAdpllFastHop s
  | .refLoss r => Sys2Proof.Machine.execRefLoss r s
  | .refQualified r => Sys2Proof.Machine.execRefQualified r s
  | .refRevert => Sys2Proof.Machine.execRefRevert s
  | .dcoCheck ppm => Sys2Proof.Machine.execDcoCheck ppm s
  | .clockMonitorWindow clock count other => Sys2Proof.Machine.execClockMonitorWindow clock count other s
  | .mrTsReceive x b foms ams => Sys2Proof.Machine.execMrTsReceive x b foms ams s
  | .mrClockDetect c => Sys2Proof.Machine.execMrClockDetect c s
  | .mrEqPresetDone x foms => Sys2Proof.Machine.execMrEqPresetDone x foms s
  | .mrTrainTimeout x => Sys2Proof.Machine.execMrTrainTimeout x s
  | .mrRecoveryTimeout x => Sys2Proof.Machine.execMrRecoveryTimeout x s
  | .mrLinkLoss x seen count => Sys2Proof.Machine.execMrLinkLoss x seen count s
  | .mrRetrain r x v => Sys2Proof.Machine.execMrRetrain r x v s
  | .mrLcbReceive x d => Sys2Proof.Machine.execMrLcbReceive x d s
  | .mrReplayTimer x => Sys2Proof.Machine.execMrReplayTimer x s
  | .ctrlFrameReceive x seq payload e => Sys2Proof.Machine.execCtrlFrameReceive x seq payload e s
  | .write x a ws => Sys2Proof.Machine.execWrite x a ws s
  | .commit x tag timed target => Sys2Proof.Machine.execCommit x tag timed target s
  | .cancel x => Sys2Proof.Machine.execCancel x s
  | .mark x v => Sys2Proof.Machine.execMark x v s
  | .read x seq tag n a e f => Sys2Proof.Machine.execRead x seq tag n a e f s
  | .regWrite x seq tag a ws e => Sys2Proof.Machine.execRegWrite x seq tag a ws e s
  | .relayFrameReceive x seq payload e => Sys2Proof.Machine.execRelayFrameReceive x seq payload e s
  | .portBFrameReceive cls seq first last payload e => Sys2Proof.Machine.execPortBFrameReceive cls seq first last payload e s
  | .mrM1Entry x => Sys2Proof.Machine.execMrM1Entry x s
  | .mrM1Exit x => Sys2Proof.Machine.execMrM1Exit x s
  | .m2Req r x v => Sys2Proof.Machine.execM2Req r x v s
  | .mrM2EieSend x => Sys2Proof.Machine.execMrM2EieSend x s
  | .mrEieReceive x d => Sys2Proof.Machine.execMrEieReceive x d s
  | .mrTestStart r x v => Sys2Proof.Machine.execMrTestStart r x v s
  | .mrTestStop r x v rx => Sys2Proof.Machine.execMrTestStop r x v rx s
  | .mrTestDurationEnd x rx => Sys2Proof.Machine.execMrTestDurationEnd x rx s
  | .mrLoopExit x => Sys2Proof.Machine.execMrLoopExit x s
  | .mrRoleHoldExpiry => Sys2Proof.Machine.execMrRoleHoldExpiry s
  | .hbmRefresh pc busy => Sys2Proof.Machine.execHbmRefresh pc busy s
  | .hbmRequestAging src => Sys2Proof.Machine.execHbmRequestAging src s
  | .hbmTempRead t => Sys2Proof.Machine.execHbmTempRead t s
  | .hbmSrEntry => Sys2Proof.Machine.execHbmSrEntry s
  | .hbmSrExit => Sys2Proof.Machine.execHbmSrExit s
  | .hbmTrainReq r v => Sys2Proof.Machine.execHbmTrainReq r v s
  | .hbmRetrainPause eye => Sys2Proof.Machine.execHbmRetrainPause eye s
  | .hbmScrub find => Sys2Proof.Machine.execHbmScrub find s
  | .hbmGo r v => Sys2Proof.Machine.execHbmGo r v s
  | .hbmWipeDone eyes us => Sys2Proof.Machine.execHbmWipeDone eyes us s
  | .bootHbmLoadDone => Sys2Proof.Machine.execBootHbmLoadDone s
  | .bltPost r v => Sys2Proof.Machine.execBltPost r v s
  | .fill f => Sys2Proof.Machine.execFill f s
  | .copy f => Sys2Proof.Machine.execCopy f s
  | .convert f => Sys2Proof.Machine.execConvert f s
  | .expand f => Sys2Proof.Machine.execExpand f s
  | .text f => Sys2Proof.Machine.execText f s
  | .bltWaitStart => Sys2Proof.Machine.execBltWaitStart s
  | .bltBurstPauseEnd => Sys2Proof.Machine.execBltBurstPauseEnd s
  | .bltDescriptorEnd => Sys2Proof.Machine.execBltDescriptorEnd s
  | .abort r v => Sys2Proof.Machine.execAbort r v s
  | .thmSample a b stuckA stuckB => Sys2Proof.Machine.execThmSample a b stuckA stuckB s
  | .thmLimitsWrite r v => Sys2Proof.Machine.execThmLimitsWrite r v s
  | .thmForceWrite r v => Sys2Proof.Machine.execThmForceWrite r v s
  | .thmPowerdownWait => Sys2Proof.Machine.execThmPowerdownWait s
  | .calReq r v => Sys2Proof.Machine.execCalReq r v s
  | .calRunStart ms => Sys2Proof.Machine.execCalRunStart ms s
  | .calPierMeasure p vals => Sys2Proof.Machine.execCalPierMeasure p vals s
  | .calIntervalEnd => Sys2Proof.Machine.execCalIntervalEnd s
  | .calJudge => Sys2Proof.Machine.execCalJudge s
  | .calStoreDone => Sys2Proof.Machine.execCalStoreDone s
  | .pwrRailEnable good => Sys2Proof.Machine.execPwrRailEnable good s
  | .pwrRailTimeout rail vout status => Sys2Proof.Machine.execPwrRailTimeout rail vout status s
  | .pwrStage4Retry => Sys2Proof.Machine.execPwrStage4Retry s
  | .pwrQuadCheck v0 v1 v2 v3 => Sys2Proof.Machine.execPwrQuadCheck v0 v1 v2 v3 s
  | .avsAdjust margin vout => Sys2Proof.Machine.execAvsAdjust margin vout s
  | .pmbTransaction r v => Sys2Proof.Machine.execPmbTransaction r v s
  | .pmbDone err alert data => Sys2Proof.Machine.execPmbDone err alert data s
  | .powerDown => Sys2Proof.Machine.execPowerDown s
  | .eventHostSend => Sys2Proof.Machine.execEventHostSend s
  | .logSummaryWrite => Sys2Proof.Machine.execLogSummaryWrite s
  | .evtRecRead r => Sys2Proof.Machine.execEvtRecRead r s
  | .evtPost r v => Sys2Proof.Machine.execEvtPost r v s
  | .clear r v => Sys2Proof.Machine.execClear r v s
  | .wdtKick r v => Sys2Proof.Machine.execWdtKick r v s
  | .wdtWarn => Sys2Proof.Machine.execWdtWarn s
  | .wdtExpire => Sys2Proof.Machine.execWdtExpire s
  | .lock r v => Sys2Proof.Machine.execLock r v s
  | .lockstepMismatch pc => Sys2Proof.Machine.execLockstepMismatch pc s
  | .tcmEccError a unc => Sys2Proof.Machine.execTcmEccError a unc s
  | .mbxH2sSend r v => Sys2Proof.Machine.execMbxH2sSend r v s
  | .mbxH2sAck r v => Sys2Proof.Machine.execMbxH2sAck r v s
  | .mbxS2hSend r v => Sys2Proof.Machine.execMbxS2hSend r v s
  | .mbxS2hAck r v => Sys2Proof.Machine.execMbxS2hAck r v s
  | .semAcquire r n => Sys2Proof.Machine.execSemAcquire r n s
  | .semRelease r n => Sys2Proof.Machine.execSemRelease r n s
  | .force r n => Sys2Proof.Machine.execForce r n s
  | .powerOnReset e => Sys2Proof.Machine.execPowerOnReset e s
  | .sysrstPin e => Sys2Proof.Machine.execSysrstPin e s
  | .sysrst r v e => Sys2Proof.Machine.execSysrst r v e s
  | .field r arg => Sys2Proof.Machine.execField r arg s
  | .enterService r arg => Sys2Proof.Machine.execEnterService r arg s
  | .leaveService r arg => Sys2Proof.Machine.execLeaveService r arg s
  | .retire r arg => Sys2Proof.Machine.execRetire r arg s
  | .advanceRollback r arg => Sys2Proof.Machine.execAdvanceRollback r arg s
  | .revokeKey r arg => Sys2Proof.Machine.execRevokeKey r arg s
  | .programKeys r arg => Sys2Proof.Machine.execProgramKeys r arg s
  | .setSlot r arg => Sys2Proof.Machine.execSetSlot r arg s
  | .confirmSlot r arg => Sys2Proof.Machine.execConfirmSlot r arg s
  | .lcCmdReset e => Sys2Proof.Machine.execLcCmdReset e s
  | .rescueStart r v => Sys2Proof.Machine.execRescueStart r v s
  | .hostlessStart clip => Sys2Proof.Machine.execHostlessStart clip s
  | .fsSelftest bad => Sys2Proof.Machine.execFsSelftest bad s
  | .fsSupplyFault rail high e => Sys2Proof.Machine.execFsSupplyFault rail high e s
  | .fsTestStart r v => Sys2Proof.Machine.execFsTestStart r v s
  | .fsTestEnd => Sys2Proof.Machine.execFsTestEnd s
  | .fsCauseClear r v => Sys2Proof.Machine.execFsCauseClear r v s
  | .fsPierClear r n v => Sys2Proof.Machine.execFsPierClear r n v s
  | .fsFaultRelease => Sys2Proof.Machine.execFsFaultRelease s
  | .fsHeartbeatToggle => Sys2Proof.Machine.execFsHeartbeatToggle s
  | .mrPortEnable r x v => Sys2Proof.Machine.execMrPortEnable r x v s
  | .mrM2Exit x => Sys2Proof.Machine.execMrM2Exit x s
  | .mrM1LockRegain w => Sys2Proof.Machine.execMrM1LockRegain w s
  | .rescueProgramDone result e => Sys2Proof.Machine.execRescueProgramDone result e s
  | .supervisorRelease => Sys2Proof.Machine.execSupervisorRelease s

end Sys2Proof.Machine
end

