-- ==== Sys2Proof/Machine/Step.lean ====
section
/-! DEFINITION. One step: the command at the front of the queue, or one cycle of CLK_TIME when nothing waits. -/

namespace Sys2Proof.Machine

/-- One cycle of CLK_TIME with no command: the local count and NT go on (10 R237), and the flip instant passes when it comes
(02 R27). Everything else that time brings about arrives as a command (log 2). -/
def tick (s : State) : State := s.advance.flipPoint

/-- The step of the block. -/
def step (s : State) : Host.Outcome State Fault Refusal :=
  match s.pending with
  | [] => .next (tick s)
  | c :: rest => exec c { s with pending := rest }

/-- The state with a command of the table in front of its queue: the table gives no command any bits, so no word spells one. -/
def State.withFetchWord (s : State) (nbits w : Nat) : State :=
  match decodeTableWord nbits w with
  | some c => { s with pending := c :: s.pending }
  | none => s

end Sys2Proof.Machine
end

