-- ==== Sys2Proof/WellFormed.lean ====
section
/-! DEFINITION. Which commands are well formed: every number they name lies in the range that the spec gives it. The machine is
total beyond: a command outside these ranges meets no unit and does nothing (log 1). -/

namespace Sys2Proof

/-- `k` numbers one of `n` units or values. -/
def below (k n : Nat) : Bool := decide (k < n)

/-- A bus address has 32 bits (00 R9). -/
def busAddr (a : Nat) : Bool := decide (a < 2 ^ 32)

/-- A frame carries 1 to 512 bytes, up to 536 in RELAY (11 R276). -/
def framePayload (d : List Byte) : Bool := decide (1 ≤ d.length) && decide (d.length ≤ 536)

/-- A control block carries D1 to D7 (11 R267). -/
def blockBytes (d : List Byte) : Bool := decide (d.length = 7)

/-- A port has 8 lanes (11 R266). -/
def laneList (l : List Nat) : Bool := decide (l.length = 8)

/-- A write carries at least one word, and no frame holds more than 128. -/
def countWords (ws : List Word) : Bool := decide (1 ≤ ws.length) && decide (ws.length ≤ 128)

/-- A run first measures four quantities of the chip (14 R350). -/
def calValues (ms : List (Int × Int)) : Bool := decide (ms.length = 4)

/-- The kinds that tile makers use (11 R286). -/
def tileKind (k : Nat) : Bool := decide (0x80 ≤ k) && decide (k < 0x100)

/-- A codeword has 36 symbols, and a damaged one differs from what was written (12 R312). -/
def hbmFindOk : HbmFind → Bool
  | .clean => true
  | .damaged errs => errs.all fun e => below e.1 36 && decide (e.2 ≠ 0)
  | .parity _ => true

/-- A burst that a unit of the codec read, if one meets anything (06 R160). -/
def jobFindOk (o : Option (Nat × HbmFind)) : Bool := o.all fun e => hbmFindOk e.2

/-- The memories of a comb are numbered 0 to 4, and a layer 0 to 31 (05 R109). -/
def memFindOk : MemFind → Bool
  | .clean => true
  | .corrected mem _ => below mem 5
  | .uncorrectable mem _ layer => below mem 5 && below layer 32

/-- A pier has 48 measured values (14 R350). -/
def calVals (l : Option (List Int)) : Bool := l.all fun l => decide (l.length = 48)

/-- The fields of a declaration fit its bytes (08 R207). -/
def declaredOk (d : Declared) : Bool := below d.version 65536 && below d.nh 256 && below d.nv 256 && below d.h 65536 && below d.v 256 && below d.widths 256 && below d.latMin (2 ^ 32) && below d.latMax (2 ^ 32) && below d.tileId (2 ^ 64)

/-- BOOT_MODE has three pins, and there are two slots (16 R390, R393). -/
def bootInOk (e : BootIn) : Bool := below e.mode 8 && below e.timeouts 4

/-- Is the command well formed? -/
def Instr.wf (i : Instr) : Bool :=
  match i with
  | .registerWrite _ a _ => busAddr a
  | .shadowWrite _ a _ => busAddr a
  | .deckRun _ _ => true
  | .deckStop _ _ => true
  | .frameStart => true
  | .scanLineStart => true
  | .latchPoint => true
  | .flipEmission p => below p 512
  | .deckCommitGo _ _ => true
  | .commitValidated => true
  | .deckCommitCancel _ _ => true
  | .commitRevalidated => true
  | .deckStateReq _ _ => true
  | .bandJobIssue p => below p 512
  | .cellJobDispatch c => below c 8
  | .cellJobComplete c k f => below c 8 && below k 12 && memFindOk f
  | .jobDeadline p u => below p 512 && below u 64
  | .bandFetchStart c => below c 8
  | .bandResident c n f => below c 8 && below n 32 && hbmFindOk f
  | .bandDeadline c => below c 8
  | .combWakeDone c => below c 8
  | .auditCompare c _ => below c 8
  | .auditArbitrate c _ _ => below c 8
  | .cellProgramReload c k => below c 8 && below k 12
  | .lutStoreScrub c _ => below c 8
  | .fenceWrite _ n _ => below n 32
  | .lutLoadStart _ _ => true
  | .paletteLoadStart _ _ => true
  | .lutLoadDone f => hbmFindOk f
  | .sceneFrameReceive x seq _ _ payload _ => below x 2 && below seq 4096 && framePayload payload
  | .necBlockTake u => below u 32
  | .necFsnOpen u n => below u 32 && below n 32
  | .necDeferredRelease u n => below u 32 && below n 32
  | .necBlockEnd u bad => below u 32 && jobFindOk bad
  | .necThrottlePauseEnd u => below u 32
  | .ctxFlush _ _ => true
  | .ctxFlushDone => true
  | .jobPost _ _ => true
  | .decode u => below u 32
  | .encode u => below u 32
  | .resume u => below u 32
  | .necJobEnd u bad => below u 32 && jobFindOk bad
  | .playStart _ _ => true
  | .playStop _ _ => true
  | .clipFrameQueue => true
  | .uniFetchDone p u f => below p 512 && below u 64 && hbmFindOk f
  | .hogelProcess p _ => below p 512
  | .keystoneHogelGen p _ _ => below p 512
  | .keyReqInput _ _ => true
  | .keyReqRegistered => true
  | .keySupMaskWrite _ _ => true
  | .keyScrub _ _ _ => true
  | .plutLoadStart _ _ => true
  | .plutLoadDone f => hbmFindOk f
  | .crcRectEval n => below n 64
  | .packetEnqueue p c _ _ => below p 512 && below c 4
  | .vdtSchedule p => below p 512
  | .packetSent p => below p 512
  | .gateCycleStart g => below g 16
  | .gateEntryBoundary g => below g 16
  | .gateEnWrite _ _ => true
  | .gateBankWrite _ a _ => busAddr a
  | .gateSwapRequest _ g _ => below g 16
  | .gateSwapStart g => below g 16
  | .freeWindow p => below p 512
  | .reverseTurnReceive p ⟨_, d⟩ _ => below p 512 && blockBytes d
  | .reverseWindowTimeout ⟨p, _⟩ => below p 512
  | .pierIdlePeriod p => below p 512
  | .frameAck ⟨p, _⟩ frame crc ack kept _ => below p 512 && below frame (2 ^ 24) && below crc (2 ^ 32) && below ack 4096 && below kept 65536
  | .echoRep ⟨p, _⟩ id _ res => below p 512 && below id 256 && below res (2 ^ 24)
  | .nak ⟨p, _⟩ ⟨seq, reason⟩ => below p 512 && below seq 4096 && below reason 16
  | .declare ⟨p, q, _⟩ d => below p 512 && below q 4096 && declaredOk d
  | .status ⟨p, q, _⟩ _ missed losses discarded => below p 512 && below q 4096 && below missed 65536 && below losses 65536 && below discarded 65536
  | .readData ⟨p, q, _⟩ _ => below p 512 && below q 4096
  | .testResult ⟨p, q, _⟩ errors bits => below p 512 && below q 4096 && below errors (2 ^ 32) && below bits (2 ^ 32)
  | .tileTelem ⟨p, q, _⟩ kind _ => below p 512 && below q 4096 && tileKind kind
  | .mismatchRediscover p => below p 512
  | .fliplatWrite _ p _ => below p 512
  | .pierEnableWrite _ p _ => below (p.getD 0) 512
  | .pierTestStart _ _ => true
  | .ntAdj _ _ => true
  | .ntSet _ _ => true
  | .ntSlewEnd => true
  | .ntFreqWrite _ _ => true
  | .ntAlarmArm _ n _ => below n 8
  | .ntAlarmDisarm _ n _ => below n 8
  | .ntAlarmFire n => below n 8
  | .ppsOutRise => true
  | .ppsOutFall => true
  | .timeFrameTransmit x msg _ => below x 2 && framePayload msg
  | .timeFrameReceive x msg _ _ _ => below x 2 && framePayload msg
  | .ntTxqRead _ x => below x 2
  | .adpllCodesFound ⟨coarse, medium⟩ _ _ => below coarse 64 && below medium 128
  | .adpllLocked _ => true
  | .adpllFastHop => true
  | .refLoss _ => true
  | .refQualified _ => true
  | .refRevert => true
  | .dcoCheck _ => true
  | .clockMonitorWindow clock _ _ => below clock 6
  | .mrTsReceive x ⟨_, d⟩ foms ams => below x 2 && blockBytes d && laneList foms && decide (ams.length = 8)
  | .mrClockDetect ⟨x, _⟩ => below x 2
  | .mrEqPresetDone x foms => below x 2 && laneList foms
  | .mrTrainTimeout x => below x 2
  | .mrRecoveryTimeout x => below x 2
  | .mrLinkLoss x seen _ => below x 2 && decide (seen.length = 8)
  | .mrRetrain _ x _ => below x 2
  | .mrLcbReceive x d => below x 2 && blockBytes d
  | .mrReplayTimer x => below x 2
  | .ctrlFrameReceive x seq payload _ => below x 2 && below seq 4096 && framePayload payload
  | .write x a ws => below x 2 && busAddr a && countWords ws
  | .commit x tag _ target => below x 2 && below tag 65536 && below target (2 ^ 48)
  | .cancel x => below x 2
  | .mark x _ => below x 2
  | .read x seq tag n a _ f => below x 2 && below seq 4096 && below tag 65536 && below n 65536 && busAddr a && hbmFindOk f
  | .regWrite x seq tag a ws _ => below x 2 && below seq 4096 && below tag 65536 && busAddr a && countWords ws
  | .relayFrameReceive x seq payload _ => below x 2 && below seq 4096 && framePayload payload
  | .portBFrameReceive cls seq _ _ payload _ => below cls 16 && below seq 4096 && framePayload payload
  | .mrM1Entry x => below x 2
  | .mrM1Exit x => below x 2
  | .m2Req _ x _ => below x 2
  | .mrM2EieSend x => below x 2
  | .mrEieReceive x d => below x 2 && blockBytes d
  | .mrTestStart _ x _ => below x 2
  | .mrTestStop _ x _ rx => below x 2 && decide (rx.length = 8)
  | .mrTestDurationEnd x rx => below x 2 && decide (rx.length = 8)
  | .mrLoopExit x => below x 2
  | .mrRoleHoldExpiry => true
  | .hbmRefresh pc _ => below pc 16
  | .hbmRequestAging _ => true
  | .hbmTempRead _ => true
  | .hbmSrEntry => true
  | .hbmSrExit => true
  | .hbmTrainReq _ _ => true
  | .hbmRetrainPause eye => below eye 65
  | .hbmScrub f => hbmFindOk f
  | .hbmGo _ _ => true
  | .hbmWipeDone eyes _ => decide (eyes.length = 16)
  | .bootHbmLoadDone => true
  | .bltPost _ _ => true
  | .fill f => hbmFindOk f
  | .copy f => hbmFindOk f
  | .convert f => hbmFindOk f
  | .expand f => hbmFindOk f
  | .text f => hbmFindOk f
  | .bltWaitStart => true
  | .bltBurstPauseEnd => true
  | .bltDescriptorEnd => true
  | .abort _ _ => true
  | .thmSample _ _ _ _ => true
  | .thmLimitsWrite _ _ => true
  | .thmForceWrite _ _ => true
  | .thmPowerdownWait => true
  | .calReq _ _ => true
  | .calRunStart ms => calValues ms
  | .calPierMeasure p vals => below p 512 && calVals vals
  | .calIntervalEnd => true
  | .calJudge => true
  | .calStoreDone => true
  | .pwrRailEnable _ => true
  | .pwrRailTimeout _ _ _ => true
  | .pwrStage4Retry => true
  | .pwrQuadCheck v0 v1 v2 v3 => below v0 65536 && below v1 65536 && below v2 65536 && below v3 65536
  | .avsAdjust _ _ => true
  | .pmbTransaction _ _ => true
  | .pmbDone _ _ data => below data 65536
  | .powerDown => true
  | .eventHostSend => true
  | .logSummaryWrite => true
  | .evtRecRead _ => true
  | .evtPost _ _ => true
  | .clear _ _ => true
  | .wdtKick _ _ => true
  | .wdtWarn => true
  | .wdtExpire => true
  | .lock _ _ => true
  | .lockstepMismatch _ => true
  | .tcmEccError _ _ => true
  | .mbxH2sSend _ _ => true
  | .mbxH2sAck _ _ => true
  | .mbxS2hSend _ _ => true
  | .mbxS2hAck _ _ => true
  | .semAcquire _ n => below n 16
  | .semRelease _ n => below n 16
  | .force _ n => below n 16
  | .powerOnReset e => bootInOk e
  | .sysrstPin e => bootInOk e
  | .sysrst _ _ e => bootInOk e
  | .field _ arg => below arg 256
  | .enterService _ arg => below arg 256
  | .leaveService _ arg => below arg 256
  | .retire _ arg => below arg 256
  | .advanceRollback _ arg => below arg 256
  | .revokeKey _ arg => below arg 256
  | .programKeys _ arg => below arg 256
  | .setSlot _ arg => below arg 256
  | .confirmSlot _ arg => below arg 256
  | .lcCmdReset e => bootInOk e
  | .rescueStart _ _ => true
  | .hostlessStart _ => true
  | .fsSelftest bad => below bad 256
  | .fsSupplyFault _ _ e => bootInOk e
  | .fsTestStart _ _ => true
  | .fsTestEnd => true
  | .fsCauseClear _ _ => true
  | .fsPierClear _ n _ => below n 16
  | .fsFaultRelease => true
  | .fsHeartbeatToggle => true
  | .mrPortEnable _ x _ => below x 2
  | .mrM2Exit x => below x 2
  | .mrM1LockRegain ⟨x, seen⟩ => below x 2 && decide (seen.length = 8)
  | .rescueProgramDone _ e => bootInOk e
  | .supervisorRelease => true

end Sys2Proof
end

