-- ==== Sys2Proof/Safety.lean ====
section
/-! DEFINITION. The terms in which statements about the block are made: when its clocked part runs, when a requester may make an
access, what "unchanged" means for registers and memories, and the invariant of the memories. -/

namespace Sys2Proof.Machine

/-- The clocked part of the device runs: not in SAFE_HALT (01 R23, 10 R236) and not powered down (14 R356). -/
abbrev State.up (s : State) : Prop := s.deck.dev ≠ .safeHalt ∧ s.pwr.down = false

/-- Requester `r` may write the word at `a` (15 R367, 11 R285). -/
abbrev State.mayWrite (s : State) (r : Req) (a : Nat) : Prop := s.refusal r a true = accOk

/-- Requester `r` may read the word at `a` (15 R367, 11 R285). -/
abbrev State.mayRead (s : State) (r : Req) (a : Nat) : Prop := s.refusal r a false = accOk

/-- The register words that posting an event may change: the drop counts and the place of the fault log (15 R376, R378). -/
def evtWords : List Nat := [Reg.EVT_COUNT, Reg.EVT_LOG_STATUS, Reg.EVT_LOG_SEQ, Reg.EVT_LOG_COUNT]

/-- Every register word outside `as` reads after as before. -/
def RegsBut (as : List Nat) (s t : State) : Prop := ∀ a, a ∉ as → t.rd a = s.rd a

/-- The byte of HBM at an address. -/
def State.hbmByte (s : State) (a : Nat) : Byte := s.hbm.get zeroByte a

/-- The byte of TCM at an address. -/
def State.tcmByte (s : State) (a : Nat) : Byte := s.tcm.get zeroByte a

/-- The byte of MRAM at an offset. -/
def State.mramByte (s : State) (a : Nat) : Byte := s.mram.get zeroByte a

/-- Is an MRAM offset one of the fault log, which a posted event may write (15 R378)? -/
def inLog (a : Nat) : Prop := logBase ≤ a ∧ a < logBase + 0x100000

/-- Every byte of HBM and TCM, and every byte of MRAM outside the fault log, reads after as before. -/
def MemSame (s t : State) : Prop :=
  (∀ a, t.hbmByte a = s.hbmByte a) ∧ (∀ a, t.tcmByte a = s.tcmByte a) ∧ ∀ a, ¬ inLog a → t.mramByte a = s.mramByte a

/-- The three memories are in their canonical form (15 R366, 12 R297, 15 R368): addresses rise, and no listed byte is what an
unlisted one reads as. -/
def State.memWf (s : State) : Prop :=
  Memory.wf s.hbm = true ∧ Memory.wf s.tcm = true ∧ Memory.wf s.mram = true

/-- A run is safe while the device is not in SAFE_HALT and the log of the safety island shows no cause of FS_FAULT_N
(17 R423). -/
def State.safe (s : State) : Prop := s.deck.dev ≠ .safeHalt ∧ s.rd Reg.FS_CAUSE = 0

/-- Job `j` does not come after job `k` in the order of 05 R111: by line, then by deadline, then by pier. -/
def Job.notAfter (j k : Job) : Prop :=
  j.line < k.line ∨ (j.line = k.line ∧ (j.deadline < k.deadline ∨ (j.deadline = k.deadline ∧ j.pier ≤ k.pier)))

/-- The hogel-buffer slots of pier `p`, oldest first. -/
def State.slotsOf (s : State) (p : Nat) : List Slot := s.port.slots.get (fun _ => []) p

/-- HBM serves requests and no pseudo-channel has failed (12 R309, R314, R317). -/
abbrev State.hbmServes (s : State) : Prop := 3 ≤ s.get Reg.HBM_STATUS.STATE ∧ s.get Reg.HBM_STATUS.FAILED = 0

/-- The register words that a request to HBM may change: the state, when the stack leaves self-refresh for it, and those of the event (12 R308). -/
def hbmWords : List Nat := Reg.HBM_STATUS :: evtWords

/-- Unit `u` of the codec may take work: it is idle, its throttle pause has elapsed, the codec runs (06 R164, R165) and HBM serves requests
(12 R317). -/
def State.mayTake (s : State) (u : Nat) : Prop :=
  u < 32 ∧ (s.necU u).work = .idle ∧ (s.necU u).freeAt ≤ s.nt.now8 ∧ s.get Reg.NEC_CTRL.EN = 1 ∧ 3 ≤ s.get Reg.HBM_STATUS.STATE

/-- The register words that a unit that takes or ends a block may change beside those of the layer: the queues, PM_TX of a Moror port that
announces SCENE space (11 R273, R280), and those of a request to HBM. -/
def takeWords : List Nat := [Reg.NEC_STATUS, Reg.NEC_RING_FILL, Reg.MR_STATUS 0, Reg.MR_STATUS 1] ++ hbmWords

/-- The Moror ports differ only by an announcement of credits and the blocks that carry it (11 R268, R273, R280). -/
def portsSame (s t : State) : Prop :=
  ∀ x, t.mp x = { s.mp x with announced := (t.mp x).announced, lane := (t.mp x).lane, idleAt := (t.mp x).idleAt }

/-- No block waits on any layer's list. -/
def State.noneDeferred (s : State) : Prop := ∀ n, n < 32 → (s.necL n).deferred = []

/-- The register words of the codec's queues and of the rotation state of layer `n` (06 R165). -/
def necWords (n : Nat) : List Nat :=
  [Reg.NEC_STATUS, Reg.NEC_RING_FILL, Reg.NEC_LAYER_FSN n, Reg.NEC_LAYER_FILL n, Reg.NEC_LAYER_STATE n]

/-- Every component of every pixel of a row fits its width in format `fmt` (06 R131). -/
def PixRow.fits (fmt : Nat) (r : PixRow) : Prop :=
  ∀ px ∈ r, px.length = (compWidths fmt).length ∧ ∀ e ∈ comps fmt, px.getD e.1 0 < 2 ^ e.2

/-- What waits in class `c` of pier `p`, oldest first: the queued packets and then those held back at the source (09 R215), each as its
type, INFO word and payload. -/
def State.waiting (s : State) (p c : Nat) : List (Nat × Nat × List Byte) :=
  ((s.vp p).q c ++ ((s.vp p).offer.filter fun o => o.1 == c).map (·.2)).map fun k => (k.ptype, k.info, k.payload)

/-- Packets as their types, INFO words and payloads. -/
def shapes (ks : List QPkt) : List (Nat × Nat × List Byte) := ks.map fun k => (k.ptype, k.info, k.payload)

/-- No packet of a legal length is longer than every window of class `c` of pier `p`, and nothing that waits there is (09 R226). -/
def State.noOversize (s : State) (p c : Nat) : Prop :=
  (∀ n, n ≤ 34 → s.oversize (groupOf p) c n = false) ∧
  ∀ k ∈ (s.vp p).q c ++ ((s.vp p).offer.filter fun o => o.1 == c).map (·.2), s.oversize (groupOf p) c k.blocks = false

/-- What is held back at the sources of pier `p` has no room in its class (09 R215). -/
def State.settled (s : State) (p : Nat) : Prop :=
  ∀ c o, (s.vp p).offer.find? (fun o => o.1 == c) = some o → s.hasRoom p c o.2 = false

/-- The hogels handed over on pier `p`: line × 64 + u of the next one. -/
def State.handedTo (s : State) (p : Nat) : Nat := s.port.doneU.get (fun _ => 0) p

/-- The hogels of pier `p` sent as RAY_HOLD in the frame (02 R54). -/
def State.held (s : State) (p : Nat) : Nat := s.deck.rayHold.get (fun _ => 0) p

/-- Packet `k` is the head of class `c` of pier `p` and may start now (09 R219, R225). -/
def State.eligible (s : State) (p c : Nat) (k : QPkt) : Prop :=
  ((s.vp p).q c).head? = some k ∧ s.mayStart p c k = true ∧ s.fits p c k = true

/-- The register words that a change of a pier's state may change beside those of its event: its status and the causes of FS_FAULT_N
(08 R209, 17 R423). -/
def linkWords (p : Nat) : List Nat := [Reg.PIER_STATUS p, Reg.FS_CAUSE, Reg.FS_STATUS] ++ evtWords

/-- Pier `p` has counted one more window without a valid burst; the third in succession of an ACTIVE pier returns it to LINKUP
(08 R206, R454). -/
def missedOne (s t : State) (p : Nat) : Prop :=
  (s.pierState p ≠ 3 → t.pierState p = s.pierState p ∧ (t.pr p).missRun = (s.pr p).missRun) ∧
  (s.pierState p = 3 → (s.pr p).missRun < 2 → t.pierState p = 3 ∧ (t.pr p).missRun = (s.pr p).missRun + 1) ∧
  (s.pierState p = 3 → 2 ≤ (s.pr p).missRun → t.pierState p = 1)

/-- A TURN with bytes D1 to D7, DIR 1 and a correct CRC-8, under block lock after the blocks seen (08 R192, R193, R200). -/
def turnGood (seen : List BlockSeen) (d : List Byte) : Prop :=
  lockAfter noLock seen = true ∧ crcOk d = true ∧ bit (d.getD 0 0).toNat 0 = true

/-- Command `i` brings a packet of the tile of pier `p`: its type, INFO word and payload (08 R194, R197, R207), and what waits in the burst
for the TURN. -/
def tileSends (p : Nat) (e : RxEnd) (i : Instr) (ptype info : Nat) (d : List Byte) (k : RevPkt) : Prop :=
  (∃ frame crc ack kept : Nat, ∃ he fm : Bool, i = .frameAck ⟨p, e⟩ frame crc ack kept ⟨he, fm⟩ ∧ ptype = 9 ∧
    info = frame % 2 ^ 24 + ofBool he * 2 ^ 24 + ofBool fm * 2 ^ 25 ∧
    d = leBytes 4 crc ++ leBytes 2 (ack % 4096) ++ leBytes 2 kept ∧ k = .ack frame (crc % 2 ^ 32) (ack % 4096) kept he fm) ∨
  (∃ id rtt res : Nat, i = .echoRep ⟨p, e⟩ id rtt res ∧ ptype = 10 ∧ info = id % 256 ∧ d = leBytes 3 res ++ leBytes 5 0 ∧
    k = .echo (id % 256) rtt (res % 2 ^ 24)) ∨
  (∃ q r : Nat, i = .nak ⟨p, e⟩ ⟨q, r⟩ ∧ ptype = 11 ∧ info = q % 4096 + r % 16 * 4096 ∧ d = [] ∧ k = .nak (q % 4096)) ∨
  (∃ q : Nat, ∃ x : Declared, i = .declare ⟨p, q, e⟩ x ∧ ptype = 8 ∧ info = q % 4096 + 65536 ∧ d = declareBytes x ∧ k = .declare x) ∨
  (∃ q missed losses discarded : Nat, ∃ temp : Int, i = .status ⟨p, q, e⟩ temp missed losses discarded ∧ ptype = 8 ∧
    info = q % 4096 + 2 * 65536 ∧
    d = leBytes 2 (unsignedOf 16 temp) ++ leBytes 2 missed ++ leBytes 2 losses ++ leBytes 2 discarded ∧ k = .plain 2 d) ∨
  (∃ q : Nat, i = .readData ⟨p, q, e⟩ d ∧ ptype = 8 ∧ info = q % 4096 + 3 * 65536 ∧ k = .plain 3 d) ∨
  (∃ q errors bits : Nat, i = .testResult ⟨p, q, e⟩ errors bits ∧ ptype = 8 ∧ info = q % 4096 + 4 * 65536 ∧
    d = leBytes 4 errors ++ leBytes 4 bits ∧ k = .result errors bits) ∨
  (∃ q kind : Nat, i = .tileTelem ⟨p, q, e⟩ kind d ∧ ptype = 8 ∧ info = q % 4096 + kind % 256 * 65536 ∧ k = .tile kind d)

/-- The window of pier `p` is open and waits for the tile's TURN with this burst. -/
def State.inBurst (s : State) (p : Nat) (w : Win) (b : List RevPkt) : Prop :=
  s.up ∧ p < 512 ∧ (s.pr p).win = some w ∧ w.turned = false ∧ w.burst = b

/-- A frame of class `c` with SEQ `seq` and `n` payload bytes is the one that port `x` expects: the port is ACTIVE, the class may arrive at its
end, the length is in range, and no request for M2 is open (11 R265, R276, R278). -/
def State.expects (s : State) (x c seq n : Nat) (resp : Bool) : Prop :=
  x < 2 ∧ s.mrState x = mrActive ∧ (s.mp x).m2Sent = false ∧ seq = (s.mp x).rxSeq ∧ seq < 4096 ∧ lenOk c n = true ∧
    s.classAllowed x c resp = true

/-- Port `x` can send a frame of class `c` with payload `d` at once: it is ACTIVE in M0, nothing waits, and there is credit and room in the
replay buffer (11 R278, R279). -/
def State.canSend (s : State) (x c : Nat) (d : List Byte) : Prop :=
  s.mrState x = mrActive ∧ s.get (Reg.MR_STATUS.PM_TX x) = 0 ∧ (s.mp x).m2Want = false ∧ (s.mp x).wait = [] ∧
    (s.mp x).mayStart ⟨c, true, true, 0, d, 0⟩ = true

/-- What a transmitter of port `x` sends before anything else: out of M1, 32 IDLE blocks on every lane (11 R273). -/
def State.wakeOut (s : State) (x : Nat) : List Out :=
  if s.get (Reg.MR_STATUS.PM_TX x) = 1 then [.blocks x none (List.replicate 32 idleBlock)] else []

/-- Frames as they leave port `x` one after the other, the first block on lane `l`; the latest stands first (11 R267, R276, R277). -/
def framesOut (x : Nat) : Nat → List MrFrame → List Out
  | _, [] => []
  | l, f :: fs =>
    let bs := frameBlocks f.cls f.first f.last f.seq f.payload
    framesOut x ((l + bs.length) % 8) fs ++ [.frame x f.cls (onLanes l bs)]

/-- The frame that leaves port `x` next when it is of class `c` with payload `d`: on the lanes that follow, with the next SEQ (11 R267, R276). -/
def State.frameOut (s : State) (x c : Nat) (f l : Bool) (d : List Byte) : Out :=
  .frame x c (onLanes (s.mp x).lane (frameBlocks c f l (s.mp x).txSeq d))

/-- Between `s` and `t` a frame of class `c` with payload `d` has left port `x` with the next SEQ. -/
def State.sends (s t : State) (x c : Nat) (f l : Bool) (d : List Byte) : Prop :=
  ∃ n, Out.frame x c (onLanes n (frameBlocks c f l (s.mp x).txSeq d)) ∈ t.out

/-- A received frame is whole: nothing cuts it, and its EOF carries the CRC-32 of its SOF and payload behind as many data blocks as those fill
(11 R277). -/
def frameWhole (e : RxEnd) (c seq : Nat) (f l : Bool) (d : List Byte) : Prop :=
  e.cut = false ∧ e.crc = crc32 (sofBytes c f l d.length seq ++ d) ∧ e.blocks = ceilDiv d.length 8

/-- The register words that the acceptance of a frame on port `x` and a frame sent on port `y` in class `c` may change. -/
def mrWords (x y c : Nat) : List Nat := [Reg.MR_STATUS x, Reg.MR_COUNT_CRC x, Reg.MR_STATUS y, Reg.MR_CREDIT y c]

/-- Port `x` holds nothing of what the loss of a link takes from it (11 R293). -/
def lostLink (t : State) (x : Nat) : Prop :=
  (t.mp x).replay = [] ∧ (t.mp x).wait = [] ∧ (t.mp x).limit = [] ∧ (t.mp x).used = [] ∧ (t.mp x).scene = none ∧
    (t.mp x).regQ = []

/-- A TS block that its receiver takes: seven bytes with their CRC-8, and no loop (11 R269, R271). -/
def tsOk (d : List Byte) : Prop :=
  d.length = 7 ∧ crc8 (d.take 6) = (d.getD 6 0).toNat ∧ bits (d.getD 3 0).toNat 0 2 = 0

/-- The smallest FOM of a measurement over the 8 lanes (11 R272). -/
def leastFom (l : List Nat) : Nat := (l.take 8).foldl min 255

/-- The blitter has taken the descriptor at HEAD of state `s`: its bytes and index, the RESULT of its checks, and whether it waits (13 R326, R328,
R331). -/
def tookBlt (s t : State) : Prop :=
  ∃ c : BltRun, t.blt = { s.blt with cur := some c } ∧
    c.desc = memRead s.hbm (s.bltAddr (s.get Reg.BLT_Q_HEAD.HEAD) % hbmSize) 64 ∧ c.index = s.get Reg.BLT_Q_HEAD.HEAD ∧ c.pos = 0 ∧
    c.crossed = false ∧ c.result = s.bltCheck c ∧ c.done = decide (c.result ≠ 0) ∧
    c.waiting = (decide (c.result = 0) && decide (bits (c.fld 0 4) 8 2 = 1 ∨ bits (c.fld 0 4) 8 2 = 2) && s.deckRunning)

end Sys2Proof.Machine
end

