-- ==== Sys2Proof/Certificates/Slice0/Obligations.lean ====
section
/-! DEFINITION. The obligations: what the block does, stated command by command from the rules of the spec. `exec c s = .next t` names the
state `t` after command `c`; `RegsBut` and `MemSame` say what stays. Rule numbers stand in parentheses; where a statement rests on
a choice of the model, its comment names the log entry. -/

open Sys2Proof Sys2Proof.Machine

/-! The Deck: registers, shadows, commits, frames and operating states (00, 02). -/

/-- A write of a plain register word of the HBM controller or of temperature and power by a requester that acts as the
supervisor: bit by bit it follows the access codes of R9 (RWL bits in SERVICE), and nothing else changes; a requester that
does not act as the supervisor changes nothing (12 R318, 14 R360). -/
def Obligations.PlainWriteCodes : Prop :=
  ∀ (r : Req) (a : Nat) (v : Word) (s : State) (w : RegSpec), a / 2 ^ 24 = 0x1C ∨ a / 2 ^ 24 = 0x1E →
    a ∉ [Reg.HBM_TRAIN_REQ, Reg.THM_LIMITS, Reg.THM_THROTTLE, Reg.CAL_CFG, Reg.PWR_AVS_CFG, Reg.PWR_PMB_CMD] →
    specOf a = some w →
    isActiveView a = false → s.mayWrite r a →
    (s.actsSup r = true → ∃ t, exec (.registerWrite r a v) s = .next t ∧ t = s.wr a (t.rd a) ∧
      ∀ i, i < 32 → (t.rd a).getLsbD i =
        (((if (w.rw ||| if s.boot.lc = .service then w.rwl else 0).testBit i then v.getLsbD i else (s.rd a).getLsbD i)
          && !(w.w1c.testBit i && v.getLsbD i)) || (w.w1s.testBit i && v.getLsbD i))) ∧
    (s.actsSup r = false → exec (.registerWrite r a v) s = .next s)

/-- A permitted write of a word of TCM or MRAM stores its four bytes, the least significant first (00 R7), at its address
and nowhere else; an MRAM word that its area does not let the requester write keeps its bytes (15 R366, R368). An access
that the map does not let through changes no register and no memory; the supervisor's is recorded as its access fault (15
R367; the record is the model's, log 14). -/
def Obligations.MappedWrites : Prop :=
  ((∀ (r : Req) (a : Nat) (v : Word) (s : State), regionOf a = .tcm → s.mayWrite r a →
     ∃ t, exec (.registerWrite r a v) s = .next t ∧ t = { s with tcm := t.tcm } ∧
       (∀ i, i < 4 → t.tcmByte (a + i) = byte (v.toNat / 256 ^ i)) ∧
       ∀ b, b < a ∨ a + 4 ≤ b → t.tcmByte b = s.tcmByte b) ∧
   (∀ (r : Req) (a : Nat) (v : Word) (s : State), regionOf a = .mram → s.mayWrite r a →
     ∃ t, exec (.registerWrite r a v) s = .next t ∧ t = { s with mram := t.mram } ∧
       (s.mramTakes (a - 0x20000000) = true → ∀ i, i < 4 → t.mramByte (a - 0x20000000 + i) = byte (v.toNat / 256 ^ i)) ∧
       (s.mramTakes (a - 0x20000000) = false → t = s) ∧
       ∀ b, b < a - 0x20000000 ∨ a - 0x20000000 + 4 ≤ b → t.mramByte b = s.mramByte b)) ∧
  (∀ (r : Req) (a : Nat) (v : Word) (s : State), ¬ s.mayWrite r a →
     exec (.registerWrite r a v) s
       = .next (if r = .sup then { s with sup := { s.sup with lastFault := some (a, true) } } else s))

/-- A write of a shadow word of a Deck, comb or port-stage register (02 R37): the RWS bits take the written value, the word
is marked dirty for its writer, no active copy changes (02 R47), no other register, mark or memory byte changes but for the
event of a word that the other writer had marked. -/
def Obligations.ShadowWrite : Prop :=
  ∀ (r : Req) (a : Nat) (v : Word) (s : State), a / 2 ^ 24 = 0x11 ∨ a / 2 ^ 24 = 0x13 ∨ a / 2 ^ 24 = 0x15 → rwsMask a ≠ 0 →
    isActiveView a = false → s.mayWrite r a →
    ∃ t, exec (.shadowWrite r a v) s = .next t ∧ t.rd a = mergeBits (s.rd a) v (rwsMask a) ∧
      t.dirty.get clean a = some (s.writerOf r) ∧ (∀ b, b ≠ a → t.dirty.get clean b = s.dirty.get clean b) ∧ t.act = s.act ∧
      RegsBut (a :: evtWords) s t ∧ MemSame s t ∧ t.deck = s.deck

/-- A write of RUN = 1 arms the first frame start at least 40,000 ns ahead of NT (02 R30), and one of RUN = 0 lets a frame
in progress run to its flip (02 R451), unless the hardware inputs request Keystone (07 R173). A request of the supervisor
for an operating state is held until the next latch point (02 R58, 01 R24); a written 1 of REFUSED clears it; other writers
request nothing. -/
def Obligations.DeckControls : Prop :=
  ((∀ (r : Req) (v : Word) (s : State), s.deck.dev ≠ .safeHalt → s.mayWrite r Reg.DECK_CTRL → s.deck.running = false →
     ∃ t, exec (.deckRun r v) s = .next t ∧ t.deck.nextK = some (s.firstIndex (addNs s.nt48 40000)) ∧
       t.get Reg.DECK_CTRL.RUN = 1 ∧ t.get Reg.SYS_BOOT_STATUS.PHASE = (if s.get Reg.SYS_BOOT_STATUS.PHASE = 8 then 12
         else s.get Reg.SYS_BOOT_STATUS.PHASE) ∧
       t = { s with regs := t.regs
                    deck := { s.deck with running := true, startLate := false, retimed := false, nextK := t.deck.nextK } } ∧
       RegsBut [Reg.DECK_CTRL, Reg.SYS_BOOT_STATUS] s t) ∧
   (∀ (r : Req) (v : Word) (s : State), s.deck.dev ≠ .safeHalt → s.mayWrite r Reg.DECK_CTRL →
     s.flag Reg.KEY_STATUS.HW_REQ = false → s.deck.running = true → s.deck.busy = true →
     ∃ t, exec (.deckStop r v) s = .next t ∧ t.get Reg.DECK_CTRL.RUN = 0 ∧
       t = { s with regs := t.regs, deck := { s.deck with running := false, nextK := none, startLate := false } } ∧
       RegsBut [Reg.DECK_CTRL] s t) ∧
   (∀ (r : Req) (v : Word) (s : State), s.mayWrite r Reg.DECK_CTRL → s.flag Reg.KEY_STATUS.HW_REQ = true →
     exec (.deckStop r v) s = .next (s.post 0x0704 1 (leBytes 4 Reg.DECK_CTRL ++ leBytes 1 (s.writerOf r).code)))) ∧
  (∀ (r : Req) (v : Word) (s : State), s.deck.dev ≠ .safeHalt → s.mayWrite r Reg.DECK_STATE →
     ∃ t, exec (.deckStateReq r v) s = .next t ∧
       t.deck.req = (if s.actsSup r then
           (match fieldOf v Reg.DECK_STATE.REQ with
             | 1 => some .normal
             | 2 => some .hold
             | 3 => some .keystoneOnly
             | _ => s.deck.req)
         else s.deck.req) ∧
       t.get Reg.DECK_STATE.REFUSED = (if bit v.toNat 8 then 0 else s.get Reg.DECK_STATE.REFUSED) ∧
       t = { s with regs := t.regs, deck := { s.deck with req := t.deck.req } } ∧ RegsBut [Reg.DECK_STATE] s t)

/-- A GO assigns the next SEQ, which wraps from 0xFFFF to 1. Outside SAFE_HALT and with fewer than four commits pending, it
captures the value of every word that the writer has marked dirty, clears those marks and no other, and queues the commit;
the active state stays. A fifth commit is rejected and the marks stay (02 R38, R42, R46; that they stay is the model's
choice, log 11). A CANCEL written with the GO is ignored (02 R452). -/
def Obligations.CommitGo : Prop :=
  ∀ (r : Req) (v : Word) (s : State), s.deck.dev ≠ .safeHalt → s.mayWrite r Reg.DECK_COMMIT →
    ∃ t, exec (.deckCommitGo r v) s = .next t ∧ t.act = s.act ∧
      t.get Reg.DECK_COMMIT_SEQ.LAST = nextSeq (s.get Reg.DECK_COMMIT_SEQ.LAST) ∧ MemSame s t ∧
      (s.deck.commits.length < 4 →
        (∃ c, t.deck = { s.deck with commits := s.deck.commits ++ [c] } ∧ c.writer = s.writerOf r ∧ c.tag = bits v.toNat 0 8 ∧
          c.seq = nextSeq (s.get Reg.DECK_COMMIT_SEQ.LAST) ∧ c.valid = false ∧ (c.target.isSome = bit v.toNat 30) ∧
          ∀ a w, (a, w) ∈ c.words ↔ (a, some (s.writerOf r)) ∈ s.dirty ∧ w = s.rd a) ∧
        ∀ a x, (a, x) ∈ t.dirty ↔ (a, x) ∈ s.dirty ∧ x ≠ some (s.writerOf r)) ∧
      (4 ≤ s.deck.commits.length → t.dirty = s.dirty ∧
        t.get (Reg.DECK_COMMIT_STATUS_CODE.CODE (nextSeq (s.get Reg.DECK_COMMIT_SEQ.LAST) % 16)) = 0x0B)

/-- When the oldest validation completes, the commit is accepted or, at the first check of R46 that fails, leaves the queue;
the active state stays, and so do the other pending commits (02 R39). A revalidation completes in the same way (02 R452). A
CANCEL withdraws every pending commit of the writer that issues it and none of the other's; the dirty marks, the active
state and the memories stay (02 R452). -/
def Obligations.CommitQueue : Prop :=
  ((∀ (s : State) (c : Commit), s.up → s.deck.commits.any (·.reval) = false → s.deck.commits.find? (fun x => !x.valid) = some c →
     ∃ t, exec .commitValidated s = .next t ∧ t.act = s.act ∧ t.dirty = s.dirty ∧ MemSame s t ∧
       t.deck.commits = match s.validate (applyWords (s.projected c.seq) c.words) with
         | none => s.deck.commits.map fun x => if x.seq = c.seq then { x with valid := true, reval := false } else x
         | some _ => s.deck.commits.filter fun x => x.seq != c.seq) ∧
   (∀ (s : State) (c : Commit), s.up → s.deck.commits.find? (·.reval) = some c →
     ∃ t, exec .commitRevalidated s = .next t ∧ t.act = s.act ∧ t.dirty = s.dirty ∧ MemSame s t ∧
       t.deck.commits = match s.validate (applyWords (s.projected c.seq) c.words) with
         | none => s.deck.commits.map fun x => if x.seq = c.seq then { x with valid := true, reval := false } else x
         | some _ => s.deck.commits.filter fun x => x.seq != c.seq)) ∧
  (∀ (r : Req) (v : Word) (s : State), s.mayWrite r Reg.DECK_COMMIT →
     ∃ t, exec (.deckCommitCancel r v) s = .next t ∧ t.dirty = s.dirty ∧ t.act = s.act ∧
       t.deck = { s.deck with commits := t.deck.commits } ∧
       t.deck.commits.map (·.seq) = (s.deck.commits.filter fun c => decide (c.writer ≠ s.writerOf r)).map (·.seq) ∧
       (∀ c ∈ t.deck.commits, c.writer ≠ s.writerOf r) ∧ t = { s with regs := t.regs, deck := t.deck })

/-- The frame start of an armed Deck, with no frame in progress or once its frame has flipped: scan line 0 begins, the frame
number rises by one from the frame before (02 R26, R27, R30; that the first frame after reset has number 0 is the model's
choice, log 105), and neither the active state nor a memory changes. A start whose instant has not come does not fire. A
scan line that has run for its period is followed by the next one, and the last one by the wait for the latch point (02 R27,
R31, R36); one that has not stays. The latch point of a frame whose last line has ended, once L(k) has come or the Deck has
re-phased: every commit that is due applies in SEQ order, none is left that was due, and blanking begins (02 R27, R33, R36,
R42, R43). In a calibration pass the measurements that a window has cut may start again, and a pier that 8 frames have left
unmeasured is measured no more (14 R351). -/
def Obligations.FrameCourse : Prop :=
  ((∀ (s : State) (k : Int), s.up → (s.deck.phase = .idle ∨ s.deck.phase = .blank ∧ s.deck.flipDone = true) →
     s.deck.nextK = some k → s.due (s.schedS k) = false →
     exec .frameStart s = .next s) ∧
   ∀ (s : State) (k : Int), s.up → (s.deck.phase = .idle ∨ s.deck.phase = .blank ∧ s.deck.flipDone = true) →
     s.deck.nextK = some k → s.due (s.schedS k) = true →
     ∃ t, exec .frameStart s = .next t ∧ t.deck.phase = .line 0 ∧ t.deck.started = true ∧ t.deck.k = k ∧
       t.deck.frameNum = (if s.deck.started then (s.deck.frameNum + 1) % 2 ^ 48 else s.deck.frameNum) ∧
       t.deck.start8 = s.nt.now8 ∧ t.deck.lines = s.ac Reg.DECK_LINES.LINES ∧ t.act = s.act ∧ t.deck.commits = s.deck.commits ∧
       MemSame s t) ∧
  (∀ (s : State) (v : Nat), s.up → s.deck.phase = .line v →
     (s.lineOver v = false → exec .scanLineStart s = .next s) ∧
     (s.lineOver v = true → ∃ t, exec .scanLineStart s = .next t ∧ t.act = s.act ∧ t.deck.frameNum = s.deck.frameNum ∧
       t.deck.commits = s.deck.commits ∧
       t.deck.phase = (if v + 1 < s.deck.lines then .line (v + 1) else .waitLatch) ∧
       t.rd Reg.DECK_SCAN_POS = (if v + 1 < s.deck.lines then word (v + 1) else word 65536) ∧ MemSame s t)) ∧
  (∀ (s : State), s.up → s.deck.phase = .waitLatch → (s.deck.rephased = true ∨ s.due s.deck.latchNT = true) →
     ∃ t, exec .latchPoint s = .next t ∧ t.deck.phase = .blank ∧ t.deck.lastLatch = some s.deck.frameNum ∧
       t.deck.frameNum = s.deck.frameNum ∧ t.deck.latch8 = s.nt.now8 ∧
       t.act = (dueCommits s.deck.latchNT s.deck.commits).foldl (fun p c => applyWords p c.words) s.act ∧
       t.deck.commits.map (·.seq) = (s.deck.commits.drop (dueCommits s.deck.latchNT s.deck.commits).length).map (·.seq) ∧
       (s.get Reg.CAL_STATUS.STATE = 3 ∨ s.get Reg.CAL_STATUS.STATE = 5 → t.cal.cut = [] ∧ ∀ p, p ∈ t.calOpen →
         s.cal.tries.get (fun _ => 0) p < 8 ∧ t.cal.tries.get (fun _ => 0) p = s.cal.tries.get (fun _ => 0) p + 1) ∧
       MemSame s t)

/-! Layers and tables (03). -/

/-- A fence write by the layer's owner sets ADDR and VALID; by the other writer it is ignored, with EV_LAYER_OWNER (03 R61,
R68). No commit is touched either way. -/
def Obligations.LayerFence : Prop :=
  ∀ (r : Req) (n : Nat) (v : Word) (s : State), n < 32 → s.mayWrite r (Reg.LAYER_FENCE n) →
    (s.layerOwner n = s.writerOf r → ∃ t, exec (.fenceWrite r n v) s = .next t ∧ t.get (Reg.LAYER_FENCE.VALID n) = 1 ∧
      t.get (Reg.LAYER_FENCE.ADDR n) = v.toNat % 2 ^ 26 ∧ t = { s with regs := t.regs } ∧
      RegsBut [Reg.LAYER_FENCE n] s t) ∧
    (s.layerOwner n ≠ s.writerOf r → exec (.fenceWrite r n v) s
      = .next (s.post 0x0301 1 (leBytes 1 n ++ leBytes 2 (0x80 * n + 0x58) ++ leBytes 1 (s.writerOf r).code)))

/-- START of a LUT slot that no enabled layer names and no load keeps waiting: the load begins and the slot is no longer
loaded. In every other case the START ends at once with DONE and ERR 2, and the running load goes on (03 R80). START of a
palette: a SLOT above 7 ends with ERR 3, and otherwise the load begins when none runs (03 R80; that a running load refuses
it is the model's reading, log 15). The end of a table load whose bytes are readable, once HBM serves requests (12 R317):
with a CRC that agrees, a LUT slot is loaded with the bytes as little-endian values and LOADED, and a palette waits in its
standby copy while the active one stays; with one that differs, ERR is 1 and no table changes (03 R80). -/
def Obligations.TableLoads : Prop :=
  (∀ (r : Req) (v : Word) (s : State), s.mayWrite r Reg.LAYER_LUT_LOAD →
     (s.layers.load = none → s.lutInUse (v.toNat % 32) = false → ∃ t, exec (.lutLoadStart r v) s = .next t ∧
       t.get Reg.LAYER_LUT_STATUS.BUSY = 1 ∧ bit (t.get Reg.LAYER_LUT_LOADED.LOADED) (v.toNat % 32) = false ∧
       (∃ l, t = { s with regs := t.regs, layers := { s.layers with load := some l } } ∧ l.kind = 0 ∧ l.slot = v.toNat % 32 ∧
         l.crc = s.get Reg.LAYER_LUT_CRC.CRC) ∧ RegsBut [Reg.LAYER_LUT_STATUS, Reg.LAYER_LUT_LOADED] s t) ∧
     (s.layers.load.isSome = true ∨ s.lutInUse (v.toNat % 32) = true → ∃ t, exec (.lutLoadStart r v) s = .next t ∧
       t.get Reg.LAYER_LUT_STATUS.ERR = 2 ∧ t.get Reg.LAYER_LUT_STATUS.DONE = 1 ∧
       t.get Reg.LAYER_LUT_STATUS.BUSY = s.get Reg.LAYER_LUT_STATUS.BUSY ∧ t = { s with regs := t.regs } ∧
       RegsBut [Reg.LAYER_LUT_STATUS] s t)) ∧
  (∀ (r : Req) (v : Word) (s : State), s.mayWrite r Reg.LAYER_LUT_LOAD →
     (7 < v.toNat % 32 → ∃ t, exec (.paletteLoadStart r v) s = .next t ∧ t.get Reg.LAYER_LUT_STATUS.ERR = 3 ∧
       t.get Reg.LAYER_LUT_STATUS.DONE = 1 ∧ t = { s with regs := t.regs } ∧ RegsBut [Reg.LAYER_LUT_STATUS] s t) ∧
     (v.toNat % 32 ≤ 7 → s.layers.load = none → ∃ t, exec (.paletteLoadStart r v) s = .next t ∧
       t.get Reg.LAYER_LUT_STATUS.BUSY = 1 ∧ t.get Reg.LAYER_LUT_LOADED.LOADED = s.get Reg.LAYER_LUT_LOADED.LOADED ∧
       (∃ l, t = { s with regs := t.regs, layers := { s.layers with load := some l } } ∧ l.kind = 1 ∧ l.slot = v.toNat % 32) ∧
       RegsBut [Reg.LAYER_LUT_STATUS] s t)) ∧
  (∀ (s : State) (l : TableLoad) (bs : List Byte), s.up → s.layers.load = some l → s.hbmServes →
     l.kind < 2 → bs = memRead s.hbm (l.src % 2 ^ 34) (if l.kind = 0 then 24576 else 2048) →
     ∃ t, exec (.lutLoadDone .clean) s = .next t ∧ t.get Reg.LAYER_LUT_STATUS.BUSY = 0 ∧ t.get Reg.LAYER_LUT_STATUS.DONE = 1 ∧
       t.layers.load = none ∧ t.layers.pal = s.layers.pal ∧ MemSame s t ∧ t.deck.commits = s.deck.commits ∧
       (crc32c bs ≠ l.crc → t.get Reg.LAYER_LUT_STATUS.ERR = 1 ∧ t.layers.lut = s.layers.lut ∧
         t.layers.palNext = s.layers.palNext) ∧
       (crc32c bs = l.crc → t.get Reg.LAYER_LUT_STATUS.ERR = 0 ∧
         (l.kind = 0 → l.slot < 32 → bit (t.get Reg.LAYER_LUT_LOADED.LOADED) l.slot = true ∧
           ∀ i, i < 12288 → t.layers.lut.get (fun _ => 0) (l.slot * 12288 + i) = leNat ((bs.drop (2 * i)).take 2)) ∧
         (l.kind = 1 → t.layers.lut = s.layers.lut ∧ ∃ e ∈ t.layers.palNext, e.1 = l.slot)))

/-! The combs and cells (05). -/

/-- While a pier has fewer jobs in its buffer than its effective lead and the instant of the line has come, the Deck issues
the job of the first hogel of the line, in order of u, that still needs one: it takes the next slot, and enters the queue of
the comb that serves the pier, which stays in the order of R111; nothing else changes (05 R110, R111). The lowest-numbered
free enabled cell of a comb that is on takes the head of the queue, and every other cell and comb stays. A cell that
completes the job of a hogel whose band is resident writes the values of 04 into the hogel's slot, unless the slot is held,
and waits the throttle level × 256 ns before its next job (05 R111, R123). That a cell writes all values of its hogel at its
completion is the model's choice (log 100), and so is that a layer switched off after the job began counts only if its band
is resident (log 113). A hogel of the line in progress whose job has not written it by its deadline is abandoned: its slot
is held, its job leaves the queue and every cell in service, and the abandoned jobs of the frame are counted (05 R112, 02
R54). One that lacks its uniformity data by then is held and counted as UNI_LATE, whether it has its values or not (07
R180). -/
def Obligations.CellJobCourse : Prop :=
  (∀ (s : State) (p c v u : Nat), s.up → s.deck.dev = .normal → p < 512 → s.deck.phase = .line v → s.combFor p = some c →
     s.get (Reg.COMB_STATUS.POWER c) ≠ 0 → (s.slotsOf p).length < s.effLead p → s.issueDue p v = true → v < s.geoNv p → v < s.ac Reg.DECK_LINES.LINES →
     u < 64 → u < s.geoNh p → s.needsJob p v u = true → s.port.nextU.get (fun _ => 0) p ≤ v * 64 + u →
     (∀ w, w < u → s.port.nextU.get (fun _ => 0) p ≤ v * 64 + w → s.needsJob p v w = false) →
     ∃ t j x, exec (.bandJobIssue p) s = .next t ∧ t.slotsOf p = s.slotsOf p ++ [x] ∧ x.line = v ∧ x.u = u ∧ x.vals = none ∧
       x.hold = false ∧ j.pier = p ∧ j.line = v ∧ j.u = u ∧ j.deadline = s.deadline8 p v u ∧ j.audit = false ∧
       t.cb c = { s.cb c with queue := (t.cb c).queue } ∧ (∀ i, i ∈ (t.cb c).queue ↔ i = j ∨ i ∈ (s.cb c).queue) ∧
       ((s.cb c).queue.Pairwise Job.notAfter → (t.cb c).queue.Pairwise Job.notAfter) ∧
       (∀ d, d ≠ c → t.cb d = s.cb d) ∧ (∀ q, q ≠ p → t.slotsOf q = s.slotsOf q) ∧
       t = { s with port := { s.port with slots := t.port.slots, nextU := t.port.nextU }, combs := t.combs }) ∧
  ((∀ (s : State) (c k : Nat) (j : Job) (js : List Job), s.up → s.deck.dev = .normal → c < 8 → s.get (Reg.COMB_STATUS.POWER c) = 2 →
     (s.cb c).queue = j :: js → k ∈ s.jobCells c j → (∀ i, i < k → i ∉ s.jobCells c j) →
     ∃ t, exec (.cellJobDispatch c) s = .next t ∧ (t.cb c).queue = js ∧ (t.cell c k).work = .job j ∧ (t.cell c k).since8 = s.nt.now8 ∧
       (∀ d i, d * 12 + i ≠ c * 12 + k → t.cell d i = s.cell d i) ∧ (∀ d, d ≠ c → t.cb d = s.cb d) ∧
       t = { s with combs := t.combs, cells := t.cells }) ∧
   (∀ (s : State) (c k : Nat) (j : Job), s.up → s.deck.dev = .normal → c < 8 → k < 12 → (s.cell c k).work = .job j →
     j.audit = false → s.bandReady c j.line (s.cell c k).off = true → s.pastDeadline j = false →
     ∃ t, exec (.cellJobComplete c k .clean) s = .next t ∧ (t.cell c k).work = .idle ∧
       (t.cell c k).freeAt = s.nt.now8 + s.get Reg.THM_THROTTLE.LEVEL * 2048 ∧
       (∀ d i, d * 12 + i ≠ c * 12 + k → t.cell d i = s.cell d i) ∧ (∀ q, q ≠ j.pier → t.slotsOf q = s.slotsOf q) ∧
       t.slotsOf j.pier = (s.slotsOf j.pier).map (fun x => if x.line = j.line ∧ x.u = j.u ∧ x.hold = false then
         { x with vals := some (s.hogelValues (s.ac (Reg.COMB_RECIPE.SLOT c)) j.pier j.u j.line (s.jobOff c j.line (s.cell c k).off)) } else x) ∧
       t = { s with port := { s.port with slots := t.port.slots }, combs := t.combs, cells := t.cells })) ∧
  ((∀ (s : State) (p u v c : Nat) (x : Slot), s.up → s.deck.dev = .normal → p < 512 → s.deck.phase = .line v →
     s.deck.start8 + s.deadline8 p v u ≤ s.nt.now8 → (s.slotsOf p).find? (fun y => y.line == v && y.u == u) = some x →
     x.hold = false → x.vals = none → s.combFor p = some c →
     ∃ t, exec (.jobDeadline p u) s = .next t ∧
       t.slotsOf p = (s.slotsOf p).map (fun y => if y.line = v ∧ y.u = u then { y with hold := true } else y) ∧
       (t.cb c).abandoned = min 0xFFFF ((s.cb c).abandoned + 1) ∧
       (∀ j ∈ (t.cb c).queue, ¬ (j.pier = p ∧ j.line = v ∧ j.u = u ∧ j.audit = false)) ∧
       (∀ j, ¬ (j.pier = p ∧ j.line = v ∧ j.u = u ∧ j.audit = false) → (j ∈ (t.cb c).queue ↔ j ∈ (s.cb c).queue)) ∧
       (∀ k j, k ∈ s.cellsOk c → (t.cell c k).work = .job j → ¬ (j.pier = p ∧ j.line = v ∧ j.u = u ∧ j.audit = false)) ∧
       (∀ d, d ≠ c → t.cb d = s.cb d) ∧ (∀ q, q ≠ p → t.slotsOf q = s.slotsOf q) ∧
       t.get Reg.PORT_COUNT.UNI_LATE = (if (x.uni.join).isSome then s.get Reg.PORT_COUNT.UNI_LATE
         else min 0xFFFF (s.get Reg.PORT_COUNT.UNI_LATE + 1)) ∧
       t = { s with port := { s.port with slots := t.port.slots, uniLate := t.port.uniLate }, combs := t.combs, cells := t.cells
                    regs := t.regs } ∧
       RegsBut [Reg.PORT_COUNT] s t) ∧
   (∀ (s : State) (p u v : Nat) (x : Slot), s.up → s.deck.dev = .normal → p < 512 → s.deck.phase = .line v →
     s.deck.start8 + s.deadline8 p v u ≤ s.nt.now8 → (s.slotsOf p).find? (fun y => y.line == v && y.u == u) = some x →
     x.hold = false → x.vals.isSome = true → (∀ e, x.uni ≠ some (some e)) →
     ∃ t, exec (.jobDeadline p u) s = .next t ∧
       t.slotsOf p = (s.slotsOf p).map (fun y => if y.line = v ∧ y.u = u then { y with hold := true } else y) ∧
       t.get Reg.PORT_COUNT.UNI_LATE = min 0xFFFF (s.get Reg.PORT_COUNT.UNI_LATE + 1) ∧
       t = { s with port := { s.port with slots := t.port.slots, uniLate := t.port.uniLate }, regs := t.regs } ∧
       RegsBut [Reg.PORT_COUNT] s t))

/-- The bands of a comb that is on. A fetch begins for the next line, and the layers that do not fit whole into the cache
are switched off for the rest of the frame (05 R115, R117). A layer whose turn it is and whose rows HBM returns is resident;
one whose rows it cannot is switched off (05 R109, R115, 12 R314). Once the band deadline of the line in progress, of the
next one or, in blanking, of line 0 has come, every layer without its band is switched off (05 R116). -/
def Obligations.PlaneBands : Prop :=
  (∀ (s : State) (c v : Nat), s.up → s.deck.dev = .normal → c < 8 → s.get (Reg.COMB_STATUS.POWER c) = 2 → s.deckRunning = true →
    (s.deck.phase = .blank ∧ v = 0 ∨ s.get (Reg.COMB_STATUS.GAPPED c) = 0 ∧ ∃ w, s.deck.phase = .line w ∧ v = w + 1) →
    (s.cb c).fetchLine ≠ some v → v < s.deck.lines →
    ∃ t, exec (.bandFetchStart c) s = .next t ∧ (t.cb c).fetchLine = some v ∧
      (∀ n, n ∈ t.deck.underrun ↔ n ∈ s.deck.underrun ∨ n ∈ s.fetchLayers ∧ n ∉ s.bandFit c v s.fetchLayers 0) ∧
      (∀ d, d ≠ c → t.cb d = s.cb d) ∧ t.cells = s.cells ∧ t.port = s.port ∧ MemSame s t ∧ RegsBut evtWords s t) ∧
  (∀ (s : State) (c n v : Nat), s.up → c < 8 → n < 32 → 3 ≤ s.get Reg.HBM_STATUS.STATE → (s.cb c).fetchLine = some v →
    s.nextBand c v = some n →
    ∃ t, exec (.bandResident c n .clean) s = .next t ∧ t.cells = s.cells ∧ t.port = s.port ∧ MemSame s t ∧
      RegsBut (Reg.HBM_STATUS :: evtWords) s t ∧
      ((∀ x ∈ s.bandSpans c v n, s.hbmOk x.1 x.2 = true) → t.deck = s.deck ∧
        t.cb c = { s.cb c with resident := (s.cb c).resident ++ [(v, n)] } ∧ (∀ d, d ≠ c → t.cb d = s.cb d)) ∧
      ((∃ x ∈ s.bandSpans c v n, s.hbmOk x.1 x.2 = false) → t.combs = s.combs ∧
        ∀ m, m ∈ t.deck.underrun ↔ m ∈ s.deck.underrun ∨ m = n)) ∧
  (∀ (s : State) (c : Nat), s.up → s.deck.dev = .normal → c < 8 → s.get (Reg.COMB_STATUS.POWER c) = 2 →
    ∃ t, exec (.bandDeadline c) s = .next t ∧
      (∀ n, n ∈ t.deck.underrun ↔ n ∈ s.deck.underrun ∨ n ∈ s.fetchLayers ∧ ∃ v ∈ s.bandLines, ∃ e d : Int,
        (v, n) ∉ (s.cb c).resident ∧ s.jobsStart8 = some e ∧ s.bandDeadline8 c v = some d ∧ e + d ≤ s.nt.now8) ∧
      t.combs = s.combs ∧ t.cells = s.cells ∧ t.port = s.port ∧ MemSame s t ∧ RegsBut evtWords s t)

/-- The audit of a hogel that ends by its deadline. When the recomputation agrees, it is counted and the audit ends; when it
differs, the mismatch is counted and the hogel waits for a third cell (05 R121). When the third cell agrees with one result
only, the cell that disagrees is disabled by its CELL_OFF bit; when it agrees with both, nothing but the event follows (05
R122). The memories of the combs. A waking comb is on when its lost memories are clear (05 R124). A cell that has reloaded
its program is in service again unless CELL_OFF disables it (05 R109). A LUT store word that the scrub finds uncorrectable
is counted and remembered, and the second failure of the same word, at any later time (the model's choice, log 110), makes
the comb fail at the next latch point with cause 1 (05 R109, R125, R127). -/
def Obligations.AuditsAndMemories : Prop :=
  ((∀ (s : State) (c k : Nat) (a : Audit) (j : Job), s.up → s.deck.dev = .normal → c < 8 → k < 12 → (s.cb c).audit = some a →
     a.cell = some k → a.result = none → (s.cell c k).work = .job j → j.audit = true → s.bandReady c j.line a.off = true →
     s.pastDeadline j = false → ∀ f r, r = f.getD (s.hogelValues (s.ac (Reg.COMB_RECIPE.SLOT c)) j.pier j.u j.line a.off) →
     ∃ t, exec (.auditCompare c f) s = .next t ∧ (t.cell c k).work = .idle ∧
       t.get (Reg.COMB_AUDIT.RUN c) = (s.get (Reg.COMB_AUDIT.RUN c) + 1) % 65536 ∧
       (r = a.copied → (t.cb c).audit = none ∧ t.get (Reg.COMB_AUDIT.MISMATCH c) = s.get (Reg.COMB_AUDIT.MISMATCH c)) ∧
       (r ≠ a.copied → (t.cb c).audit = some { a with result := some r } ∧ a.job ∈ (t.cb c).queue ∧
         t.get (Reg.COMB_AUDIT.MISMATCH c) = min 255 (s.get (Reg.COMB_AUDIT.MISMATCH c) + 1)) ∧
       t = { s with regs := t.regs, combs := t.combs, cells := t.cells } ∧ RegsBut [Reg.COMB_AUDIT c] s t) ∧
   (∀ (s : State) (c k m : Nat) (a : Audit) (j : Job) (r x : List Nat), s.up → c < 8 → k ∈ s.cellsOk c →
     (s.cb c).audit = some a → a.cell = some m → m < 12 → a.orig < 12 → a.result = some r → (s.cell c k).work = .job j →
     j.audit = true → s.pastDeadline a.job = false → (∀ i, i < k → i ∈ s.cellsOk c → ∀ l, (s.cell c i).work = .job l → l.audit = false) →
     ∃ t, exec (.auditArbitrate c false (some x)) s = .next t ∧ (t.cell c k).work = .idle ∧ (t.cb c).audit = none ∧
       MemSame s t ∧ RegsBut (Reg.COMB_CTRL c :: evtWords) s t ∧
       (x = a.copied → x = r → t.get (Reg.COMB_CTRL.CELL_OFF c) = s.get (Reg.COMB_CTRL.CELL_OFF c)) ∧
       (x = a.copied → x ≠ r → ∀ i, i < 12 →
         bit (t.get (Reg.COMB_CTRL.CELL_OFF c)) i = (bit (s.get (Reg.COMB_CTRL.CELL_OFF c)) i || decide (i = m))) ∧
       (x ≠ a.copied → x = r → ∀ i, i < 12 →
         bit (t.get (Reg.COMB_CTRL.CELL_OFF c)) i = (bit (s.get (Reg.COMB_CTRL.CELL_OFF c)) i || decide (i = a.orig))) ∧
       (x ≠ a.copied → x ≠ r → a.orig ∈ (t.cb c).suspects ∧ m ∈ (t.cb c).suspects ∧
         t.get (Reg.COMB_CTRL.CELL_OFF c) = s.get (Reg.COMB_CTRL.CELL_OFF c)))) ∧
  ((∀ (s : State) (c : Nat), s.up → c < 8 → s.get (Reg.COMB_STATUS.POWER c) = 1 →
     ∃ t, exec (.combWakeDone c) s = .next t ∧ t.get (Reg.COMB_STATUS.POWER c) = 2 ∧
       t.get (Reg.COMB_STATUS.CELLS_OK c) = s.get (Reg.COMB_STATUS.CELLS_OK c) ∧ t = { s with regs := t.regs } ∧
       RegsBut [Reg.COMB_STATUS c] s t) ∧
   (∀ (s : State) (c k : Nat), s.up → c < 8 → k < 12 → (s.cell c k).progLost = true →
     ∃ t, exec (.cellProgramReload c k) s = .next t ∧ (t.cell c k).progLost = false ∧
       (∀ i, i < 12 → bit (t.get (Reg.COMB_STATUS.CELLS_OK c)) i
         = (bit (s.get (Reg.COMB_STATUS.CELLS_OK c)) i || (decide (i = k) && !(bit (s.get (Reg.COMB_CTRL.CELL_OFF c)) k)))) ∧
       t = { s with regs := t.regs, cells := t.cells } ∧ RegsBut [Reg.COMB_STATUS c] s t) ∧
   (∀ (s : State) (c a : Nat), s.up → c < 8 →
     ∃ t, exec (.lutStoreScrub c (some a)) s = .next t ∧
       t.get (Reg.COMB_ECC.UNCORR c) = min 0xFFFF (s.get (Reg.COMB_ECC.UNCORR c) + 1) ∧
       a ∈ (t.cb c).lutFailed ∧
       (a ∈ (s.cb c).lutFailed → s.combFailed c = false → (s.cb c).failNext = none → (t.cb c).failNext = some 1) ∧
       (a ∉ (s.cb c).lutFailed → (t.cb c).failNext = (s.cb c).failNext) ∧
       (∀ d, d ≠ c → t.cb d = s.cb d) ∧ t.cells = s.cells ∧ MemSame s t ∧ RegsBut (Reg.COMB_ECC c :: evtWords) s t))

/-! The Nectar codec and the clip feeder (06). -/

/-- Every row that the encoder codes, in any format, in INTRA or INTER, with or without runs and from any adaptive state,
the decoder reads back as it was, with the same adaptive state after it, and it stops at the byte where the row ends (06
R131 to R139, R158). A run of linear mode may not pass 4,095 pixels, which is all that the 12-bit escape of R137 can spell.
The mapping of R135, whole: e is x − p modulo 2^n, less 2^n from 2^(n − 1) on; m is 2 e or −2 e − 1 and below 2^n; and the
decoder's inversion of m gives (p + e) mod 2^n, which is x. -/
def Obligations.RowRoundTrip : Prop :=
  (∀ (c : RowCtx) (run : Bool) (sts : List GrState) (row : PixRow) (rest : List Byte), PixRow.fits c.fmt row →
    (c.inter = false → PixRow.fits c.fmt c.up) → row.length ≤ 4096 →
    decodeRow c run row.length sts (bytesToBits ((encodeRow c run sts row).1 ++ rest))
      = some (row, (encodeRow c run sts row).2, bytesToBits rest)) ∧
  (∀ (n x p : Nat) (e : Int), 0 < n → x < 2 ^ n → p < 2 ^ n →
    e = (if 2 ^ (n - 1) ≤ ((x : Int) - p) % 2 ^ n then ((x : Int) - p) % 2 ^ n - 2 ^ n else ((x : Int) - p) % 2 ^ n) →
    (mapErr n x p : Int) = (if 0 ≤ e then 2 * e else -2 * e - 1) ∧ mapErr n x p < 2 ^ n ∧
    (unmapErr n (mapErr n x p) p : Int) = (p + e) % 2 ^ n ∧ unmapErr n (mapErr n x p) p = x)

/-- A unit that may take work, with no block deferred, takes the oldest block of the ring. A block of the open FSN whose
context has not landed starts on the unit. One that opens an FSN, none being open, opens it in the next buffer in turn, BUF0
for the first, when that buffer is free. One that R143 does not accept, or that is older than the open FSN, is dropped and
counted, and changes no layer (06 R143 to R145, R160, R165). The record cache has room; what else a block that starts or
ends leaves are its record in the cache, the rows that HBM opened, and credits announced on the ports (06 R153, 11 R280).
The head of a layer's list that opens a newer FSN. Once no unit works on the layer, an incomplete open FSN is abandoned: its
buffer is free, the EPOCH rises by one and its deferred blocks go; then the newer one opens in the next buffer in turn (06
R144, R147). When none is open, the block proceeds as soon as that buffer is free (06 R145). -/
def Obligations.BlockIntake : Prop :=
  (∀ (s : State) (u : Nat) (b : NecBlock) (rest : List NecBlock), s.up → s.mayTake u → s.noneDeferred → s.nec.ring = b :: rest →
     s.nec.cache.length < 2048 →
     (∀ n, s.blockCheck b = (nrOk, n) → n < 32 → s.ctxBusy (necHdr b.hdr).ctx = false → (s.necL n).isOpen = true →
       (s.necL n).fsn % 2 ^ 32 = (necHdr b.hdr).fsn % 2 ^ 32 →
       (necHdr b.hdr).ctx - s.ac (Reg.LAYER_STREAM.BASE n) ∉ (s.necL n).landed →
       ∃ t, exec (.necBlockTake u) s = .next t ∧ (t.necU u).work = .block n b ∧ (∀ w, w ≠ u → t.necU w = s.necU w) ∧
         t = { s with nec := { s.nec with ring := rest, units := t.nec.units, cache := t.nec.cache }, regs := t.regs, hbm := t.hbm
                      hc := t.hc, mr := t.mr, evt := t.evt, mram := t.mram, boot := t.boot, out := t.out } ∧
         portsSame s t ∧ MemSame s t ∧ RegsBut takeWords s t) ∧
     (∀ n k, s.blockCheck b = (nrOk, n) → n < 32 → s.inFlight n = false → (s.necL n).isOpen = false →
       ((s.necL n).opened = false ∧ k = 0 ∨
         (s.necL n).opened = true ∧ k = ((s.necL n).buf + 1) % 3 ∧ 0 < diff32 (necHdr b.hdr).fsn (s.necL n).fsn) →
       ((s.necL n).getBuf k).st = 0 →
       ∃ t, exec (.necBlockTake u) s = .next t ∧ (t.necU u).work = .block n b ∧ (t.necL n).isOpen = true ∧ (t.necL n).buf = k ∧
         (t.necL n).fsn = (necHdr b.hdr).fsn ∧ (t.necL n).landed = [] ∧ (t.necL n).epoch = (s.necL n).epoch ∧
         ((t.necL n).getBuf k).st = 1 ∧ t.get (Reg.NEC_LAYER_FSN.FSN n) = (necHdr b.hdr).fsn ∧
         (∀ m, m ≠ n → t.necL m = s.necL m) ∧ (∀ w, w ≠ u → t.necU w = s.necU w) ∧
         t = { s with nec := { s.nec with ring := rest, layers := t.nec.layers, units := t.nec.units, cache := t.nec.cache }
                      regs := t.regs, hbm := t.hbm, hc := t.hc, mr := t.mr, evt := t.evt, mram := t.mram, boot := t.boot
                      out := t.out } ∧
         portsSame s t ∧ MemSame s t ∧ RegsBut (necWords n ++ takeWords) s t) ∧
     (b.feeder = false → ((s.blockCheck b).1 ≠ nrOk ∨ (s.blockCheck b).2 < 32 ∧ (s.necL (s.blockCheck b).2).isOpen = true ∧
         diff32 (necHdr b.hdr).fsn (s.necL (s.blockCheck b).2).fsn < 0) →
       ∃ t, exec (.necBlockTake u) s = .next t ∧ t.nec.ring = rest ∧ t.necU u = s.necU u ∧ t.nec.layers = s.nec.layers ∧
         t.get Reg.NEC_COUNT_BLOCKS.COUNT = (s.get Reg.NEC_COUNT_BLOCKS.COUNT + 1) % 2 ^ 32 ∧
         t.get Reg.NEC_COUNT_ERRORS.COUNT = (s.get Reg.NEC_COUNT_ERRORS.COUNT + 1) % 2 ^ 32 ∧ portsSame s t ∧ MemSame s t ∧
         RegsBut ([Reg.NEC_COUNT_BLOCKS, Reg.NEC_COUNT_ERRORS] ++ takeWords) s t)) ∧
  ((∀ (s : State) (u n k : Nat) (b : NecBlock) (rest : List NecBlock), s.up → s.mayTake u → n < 32 → s.nec.cache.length < 2048 →
     (s.necL n).deferred = b :: rest → s.blockCheck b = (nrOk, n) → (s.necL n).isOpen = true → (s.necL n).opened = true →
     s.inFlight n = false → 0 < diff32 (necHdr b.hdr).fsn (s.necL n).fsn → k = ((s.necL n).buf + 1) % 3 → (s.necL n).buf < 3 →
     ((s.necL n).getBuf k).st = 0 →
     ∃ t, exec (.necFsnOpen u n) s = .next t ∧ (t.necU u).work = .block n b ∧ (t.necL n).isOpen = true ∧ (t.necL n).buf = k ∧
       (t.necL n).fsn = (necHdr b.hdr).fsn ∧ (t.necL n).landed = [] ∧ (t.necL n).epoch = ((s.necL n).epoch + 1) % 2 ^ 32 ∧
       ((t.necL n).getBuf (s.necL n).buf).st = 0 ∧ ((t.necL n).getBuf k).st = 1 ∧
       (t.necL n).deferred = rest.filter (fun x => (necHdr x.hdr).fsn != (s.necL n).fsn) ∧
       (∀ m, m ≠ n → t.necL m = s.necL m) ∧ (∀ w, w ≠ u → t.necU w = s.necU w) ∧ t.nec.ring = s.nec.ring ∧ portsSame s t ∧
       MemSame s t ∧ RegsBut (necWords n ++ takeWords) s t) ∧
   (∀ (s : State) (u n k : Nat) (b : NecBlock) (rest : List NecBlock), s.up → s.mayTake u → n < 32 → s.nec.cache.length < 2048 →
     (s.necL n).deferred = b :: rest → s.blockCheck b = (nrOk, n) → (s.necL n).isOpen = false → s.inFlight n = false →
     ((s.necL n).opened = false ∧ k = 0 ∨
       (s.necL n).opened = true ∧ k = ((s.necL n).buf + 1) % 3 ∧ 0 < diff32 (necHdr b.hdr).fsn (s.necL n).fsn) →
     ((s.necL n).getBuf k).st = 0 →
     ∃ t, exec (.necDeferredRelease u n) s = .next t ∧ (t.necU u).work = .block n b ∧ (t.necL n).isOpen = true ∧
       (t.necL n).buf = k ∧ (t.necL n).fsn = (necHdr b.hdr).fsn ∧ (t.necL n).epoch = (s.necL n).epoch ∧
       (t.necL n).deferred = rest ∧ (∀ m, m ≠ n → t.necL m = s.necL m) ∧ (∀ w, w ≠ u → t.necU w = s.necU w) ∧
       t = { s with nec := { s.nec with layers := t.nec.layers, units := t.nec.units, cache := t.nec.cache }, regs := t.regs
                    hbm := t.hbm, hc := t.hc, mr := t.mr, evt := t.evt, mram := t.mram, boot := t.boot, out := t.out } ∧
       portsSame s t ∧ MemSame s t ∧ RegsBut (necWords n ++ takeWords) s t))

/-- The end of a unit's block: it is counted, the unit waits the throttle level × 256 ns, and the unit is idle (06 R164,
R165). A block that decodes without error lands its context, HBM holds what it decoded to, and the buffer is ready, and no
longer open, when that was the last one (06 R146); one of INTER or SKIP without history ends in error, lands nothing and
leaves HBM (06 R148, R149). -/
def Obligations.BlockEnd : Prop :=
  ∀ (s : State) (u n : Nat) (b : NecBlock), s.up → u < 32 → n < 32 → (s.necU u).work = .block n b →
    s.get Reg.HBM_STATUS.FAILED = 0 → s.nec.cache.length < 2048 → 8 ≤ b.size → (necHdr b.hdr).ctx < 2 ^ 18 →
    ∃ t, exec (.necBlockEnd u none) s = .next t ∧ (t.necU u).work = .idle ∧
      (t.necU u).freeAt = s.nt.now8 + s.get Reg.THM_THROTTLE.LEVEL * 2048 ∧ (∀ w, w ≠ u → t.necU w = s.necU w) ∧
      t.get Reg.NEC_COUNT_BLOCKS.COUNT = (s.get Reg.NEC_COUNT_BLOCKS.COUNT + 1) % 2 ^ 32 ∧ t.nec.ring = s.nec.ring ∧
      (∀ m, m ≠ n → t.necL m = s.necL m) ∧ portsSame s t ∧
      (∀ r v pay, s.ctxLoad (necHdr b.hdr).ctx = some (r, v) → s.blockPayload b = some pay →
        (((necHdr b.hdr).mode = 1 ∨ (necHdr b.hdr).mode = 2) →
          r.hasHistory (s.necL n).epoch (necHdr b.hdr).fsn = false →
          t.necL n = s.necL n ∧ (∀ a, t.hbmByte a = s.hbmByte a) ∧
          t.get Reg.NEC_COUNT_ERRORS.COUNT = (s.get Reg.NEC_COUNT_ERRORS.COUNT + 1) % 2 ^ 32) ∧
        (∀ x, ((necHdr b.hdr).mode = 0 ∨ (necHdr b.hdr).mode = 3 ∨
            r.hasHistory (s.necL n).epoch (necHdr b.hdr).fsn = true) → b.size = 24 + (necHdr b.hdr).len →
          x = (v.touchSpans b.spans).decodeBlock (necHdr b.hdr) ⟨r.histAddr, r.histPitch⟩ pay
            (r.startStates (necHdr b.hdr).fmt (necHdr b.hdr).reset)
            (s.cellAddr n (s.necL n).buf (s.cellOf n (necHdr b.hdr).ctx)) (s.ac (Reg.LAYER_PITCH.PITCH n)) →
          x.1 = nrOk → (s.necL n).isOpen = true → (s.necL n).fsn = (necHdr b.hdr).fsn →
          t.get Reg.NEC_COUNT_ERRORS.COUNT = s.get Reg.NEC_COUNT_ERRORS.COUNT ∧ (∀ a, t.hbmByte a = x.2.st.hbmByte a) ∧
          (∀ i, i ∈ (t.necL n).landed ↔
            i ∈ (s.necL n).landed ∨ i = (necHdr b.hdr).ctx - s.ac (Reg.LAYER_STREAM.BASE n)) ∧
          (t.necL n).isOpen = decide ((t.necL n).landed.length ≠ (s.necL n).count) ∧
          ((t.necL n).landed.length = (s.necL n).count → ((t.necL n).getBuf (s.necL n).buf).st = 2)))

/-- Posted jobs. A write of the tail posts descriptors (06 R154). A unit that may take work, when no automatic block waits
or fewer than JOB_UNITS units run jobs, takes the descriptor at the head of what is posted, if its kind is the one that the
command names and no unit works on its context; the unit holds it until the segment ends (06 R153, R154, R157). The end of a
job segment. With the result of the segment as `runJob` gives it: DONE, RESULT, CONSUMED, PRODUCED and ROWS stand in the
descriptor, beside it HBM holds what the segment wrote, the end is counted, as an error unless it is OK or EXHAUSTED, HEAD
advances and the unit waits its throttle pause (06 R154 to R156, R160, R164). A job of a bad kind, or of a context inside a
rotation layer's range, ends with RANGE and writes nothing else to HBM (06 R154, R155). That HEAD advances by one at each
end is the model's reading (log 44), and what CONSUMED says of a segment that ends in SYNTAX is a free value (log 120). -/
def Obligations.CodecJobs : Prop :=
  ((∀ (r : Req) (v : Word) (s : State), s.mayWrite r Reg.NEC_JQ_TAIL → s.actsSup r = true →
     ∃ t, exec (.jobPost r v) s = .next t ∧ t.get Reg.NEC_JQ_TAIL.TAIL = v.toNat % 4096 ∧ t = { s with regs := t.regs } ∧
       RegsBut [Reg.NEC_JQ_TAIL] s t) ∧
   (∀ (s : State) (u : Nat) (d : List Byte) (i : Instr), s.up → s.mayTake u → 0 < s.get Reg.NEC_JQ_SIZE.ENTRIES →
     s.nec.jqTaken ≠ s.get Reg.NEC_JQ_TAIL.TAIL → s.nec.cache.length < 2048 → s.get Reg.HBM_STATUS.FAILED = 0 →
     (s.nec.ring = [] ∧ s.noneDeferred ∨
       s.jobUnits < s.get Reg.NEC_CTRL.JOB_UNITS ∧ (i = .decode u ∨ i = .encode u ∨ i = .resume u)) →
     d = memRead s.hbm ((s.get Reg.NEC_JQ_BASE.ADDR * 64 + 64 * s.nec.jqTaken) % 2 ^ 34) 64 →
     s.ctxBusy (leNat (d.drop 4 |>.take 4) % 2 ^ 18) = false →
     (i = .decode u ∧ leNat (d.take 4) % 16 = 1 ∧ bit (leNat (d.take 4)) 8 = false ∨
       i = .encode u ∧ leNat (d.take 4) % 16 = 2 ∧ bit (leNat (d.take 4)) 8 = false ∨
       i = .resume u ∧ bit (leNat (d.take 4)) 8 = true ∨ i = .necThrottlePauseEnd u) →
     ∃ t, exec i s = .next t ∧ (t.necU u).work = .seg s.nec.jqTaken d ∧
       t.nec.jqTaken = (s.nec.jqTaken + 1) % s.get Reg.NEC_JQ_SIZE.ENTRIES ∧ (∀ w, w ≠ u → t.necU w = s.necU w) ∧
       t = { s with nec := { s.nec with jqTaken := t.nec.jqTaken, units := t.nec.units, cache := t.nec.cache }, regs := t.regs
                    hbm := t.hbm, hc := t.hc, mr := t.mr, evt := t.evt, mram := t.mram, boot := t.boot, out := t.out } ∧
       portsSame s t ∧ MemSame s t ∧ RegsBut takeWords s t)) ∧
  (∀ (s : State) (u i a : Nat) (d : List Byte) (e : JobEnd), s.up → u < 32 → (s.necU u).work = .seg i d → e = s.runJob d →
     a = s.get Reg.NEC_JQ_BASE.ADDR * 64 + 64 * i →
     ∃ t, exec (.necJobEnd u none) s = .next t ∧ (t.necU u).work = .idle ∧
       (t.necU u).freeAt = s.nt.now8 + s.get Reg.THM_THROTTLE.LEVEL * 2048 ∧ (∀ w, w ≠ u → t.necU w = s.necU w) ∧
       t.get Reg.NEC_JQ_HEAD.HEAD = (s.get Reg.NEC_JQ_HEAD.HEAD + 1) % (max 1 (s.get Reg.NEC_JQ_SIZE.ENTRIES)) % 4096 ∧
       t.get Reg.NEC_COUNT_BLOCKS.COUNT = (s.get Reg.NEC_COUNT_BLOCKS.COUNT + 1) % 2 ^ 32 ∧ t.nec.layers = s.nec.layers ∧
       t.nec.ring = s.nec.ring ∧
       t.get Reg.NEC_COUNT_ERRORS.COUNT = (if e.code = nrOk ∨ e.code = nrExhausted then s.get Reg.NEC_COUNT_ERRORS.COUNT
         else (s.get Reg.NEC_COUNT_ERRORS.COUNT + 1) % 2 ^ 32) ∧
       (s.get Reg.HBM_STATUS.FAILED = 0 → a + 64 ≤ 2 ^ 34 →
         leNat (memRead t.hbm (a + 0x30) 4) = 2 ^ 31 + e.code ∧ leNat (memRead t.hbm (a + 0x34) 4) = e.cons % 2 ^ 32 ∧
         leNat (memRead t.hbm (a + 0x38) 4) = e.prod % 2 ^ 32 ∧ leNat (memRead t.hbm (a + 0x3C) 4) = e.rows % 2 ^ 32 ∧
         (e.code = nrOk ∨ e.code = nrExhausted ∨ e.code = nrSpace →
           ∀ b, b < a + 0x30 ∨ a + 0x40 ≤ b → t.hbmByte b = e.st.hbmByte b)) ∧
       (d ≠ [] → (leNat (d.take 4) % 16 ≠ 1 ∧ leNat (d.take 4) % 16 ≠ 2 ∨
           (s.layerOfCtx (leNat (d.drop 4 |>.take 4) % 2 ^ 18)).isSome = true) →
         e.code = nrRange ∧ (a + 64 ≤ 2 ^ 34 → s.nec.cache.length < 2048 →
           ∀ b, b < a + 0x30 ∨ a + 0x40 ≤ b → t.hbmByte b = s.hbmByte b)))

/-- A write of CTX_FLUSH by the supervisor sets FLUSH_BUSY; when the flush is done, every record of the cache that was
modified stands in HBM, none is modified any more, and FLUSH_BUSY is 0 (06 R153). The clip feeder. START by the supervisor
checks the clip: one whose header or first frame breaks R161 is not played, and otherwise the feeder plays from frame 0.
STOP waits for the next latch point. A clip frame whose turn it is enters the ring whole, as blocks of the feeder with the
FSN that R162 gives them, and the hold count starts anew (06 R161, R162). -/
def Obligations.FlushAndClips : Prop :=
  ((∀ (r : Req) (v : Word) (s : State), s.mayWrite r Reg.NEC_CTRL → s.actsSup r = true →
     ∃ t, exec (.ctxFlush r v) s = .next t ∧ t.get Reg.NEC_STATUS.FLUSH_BUSY = 1 ∧ t.get Reg.NEC_CTRL.EN = v.toNat % 2 ∧
       t = { s with regs := t.regs } ∧ RegsBut [Reg.NEC_CTRL, Reg.NEC_STATUS] s t) ∧
   (∀ (s : State), s.up → s.get Reg.NEC_STATUS.FLUSH_BUSY = 1 → s.hbmServes →
     (∀ e ∈ s.nec.cache, e.2.1.length = 1024 ∧ s.ctxAddr e.1 + 1024 ≤ 2 ^ 34) → (s.nec.cache.map (·.1)).Nodup →
     ∃ t, exec .ctxFlushDone s = .next t ∧ t.get Reg.NEC_STATUS.FLUSH_BUSY = 0 ∧
       (∀ e ∈ s.nec.cache, e.2.2 = true → memRead t.hbm (s.ctxAddr e.1) 1024 = e.2.1) ∧
       (∀ a, (∀ e ∈ s.nec.cache, e.2.2 = true → a < s.ctxAddr e.1 ∨ s.ctxAddr e.1 + 1024 ≤ a) → t.hbmByte a = s.hbmByte a) ∧
       t.nec.cache.map (fun e => (e.1, e.2.1)) = s.nec.cache.map (fun e => (e.1, e.2.1)) ∧ (∀ e ∈ t.nec.cache, e.2.2 = false) ∧
       RegsBut (Reg.NEC_STATUS :: hbmWords) s t)) ∧
  ((∀ (r : Req) (v : Word) (s : State), s.mayWrite r Reg.NEC_PLAY_CTRL → s.actsSup r = true → bit v.toNat 30 = false →
     3 ≤ s.get Reg.HBM_STATUS.STATE →
     ∃ t, exec (.playStart r v) s = .next t ∧ t.nec.playClip = s.get Reg.NEC_PLAY_CLIP.ADDR ∧ t.nec.ring = s.nec.ring ∧
       MemSame s t ∧ RegsBut ([Reg.NEC_PLAY_CTRL, Reg.NEC_PLAY_STATUS] ++ hbmWords) s t ∧
       (s.clipHeader (s.get Reg.NEC_PLAY_CLIP.ADDR) = none → t.get Reg.NEC_PLAY_STATUS.STATE = 2) ∧
       (∀ h bs, s.clipHeader (s.get Reg.NEC_PLAY_CLIP.ADDR) = some h → s.clipFrame (s.get Reg.NEC_PLAY_CLIP.ADDR) h 0 = some bs →
         (s.clipFrameOk (leAt h 12 4) true bs = true → t.get Reg.NEC_PLAY_STATUS.STATE = 1 ∧ t.nec.playNext = 0 ∧
           t.nec.playMask = leAt h 12 4) ∧
         (s.clipFrameOk (leAt h 12 4) true bs = false → t.get Reg.NEC_PLAY_STATUS.STATE = 2))) ∧
   (∀ (r : Req) (v : Word) (s : State), s.mayWrite r Reg.NEC_PLAY_CTRL → s.actsSup r = true →
     s.get Reg.NEC_PLAY_STATUS.STATE = 1 →
     ∃ t, exec (.playStop r v) s = .next t ∧ t.nec = { s.nec with playStop := true } ∧
       t = { s with regs := t.regs, nec := t.nec } ∧ RegsBut [Reg.NEC_PLAY_CTRL] s t) ∧
   (∀ (s : State) (h : List Byte) (bs : List NecBlock), s.up → s.get Reg.NEC_PLAY_STATUS.STATE = 1 → s.nec.playHold = 0 →
     s.deck.phase = .blank → s.clipHeader s.nec.playClip = some h → s.nec.playNext < leAt h 8 4 →
     s.clipFrame s.nec.playClip h s.nec.playNext = some bs → s.clipFrameOk s.nec.playMask (s.nec.playNext == 0) bs = true →
     ∃ t, exec .clipFrameQueue s = .next t ∧ t.nec.playNext = s.nec.playNext + 1 ∧
       t.get Reg.NEC_PLAY_STATUS.FRAME = s.nec.playNext % 2 ^ 24 ∧
       t.nec.playHold = (if s.get Reg.NEC_PLAY_CTRL.HOLD = 0 then leAt h 0x10 4 else s.get Reg.NEC_PLAY_CTRL.HOLD) ∧
       t.nec.ring = s.nec.ring ++ bs.map s.renumber ∧ (∀ b ∈ bs, (s.renumber b).feeder = true) ∧
       t = { s with regs := t.regs, hc := t.hc, evt := t.evt, mram := t.mram, boot := t.boot
                    nec := { s.nec with ring := t.nec.ring, playNext := t.nec.playNext, playHold := t.nec.playHold } } ∧
       RegsBut ([Reg.NEC_PLAY_STATUS, Reg.NEC_STATUS, Reg.NEC_RING_FILL] ++ hbmWords) s t))

/-! The port stage, Keystone and the picture checks (07). -/

/-- The fetch of a hogel's uniformity data, once HBM serves requests (12 R317), puts the coefficient record and the base
gain of R178 into the hogel's slot; no other slot and no memory changes (07 R178, R179). A lane takes the hogel whose turn
it is on an ACTIVE pier of its group. With its values and its uniformity data in the slot it is handed to Viaduct as its RAY
packets, whole, with the codes of the first pass whose checks succeed; a slot marked to be held is sent as RAY_HOLD and
counted; and so is a hogel whose check fails again on retry, which marks the lane failed (07 R167, R170, R181, 04 R101, 02
R54). No packet is longer than every window of its class, and nothing else waits in RAY on any pier than before. -/
def Obligations.HogelCourse : Prop :=
  (∀ (s : State) (p u : Nat) (x : Slot), s.up → p < 512 → s.hbmServes →
     (s.slotsOf p).find? (fun y => y.u == u && y.uni.isNone) = some x →
     ∃ t, exec (.uniFetchDone p u .clean) s = .next t ∧ (∀ q, q ≠ p → t.slotsOf q = s.slotsOf q) ∧
       t.slotsOf p = (s.slotsOf p).map (fun y => if y.line = x.line ∧ y.u = u ∧ y.uni = none then { y with uni := some (some
         (memRead s.hbm (s.ac Reg.PORT_UNI_COEF_BASE.ADDR * 256 + p * (s.ac Reg.PORT_UNI_STRIDE.STRIDE * 65536)
             + (x.line * s.geoNh p + u) * (32 * ((3 * s.rays p + 63) / 64))) (32 * ((3 * s.rays p + 63) / 64)),
           leNat (memRead s.hbm (s.ac Reg.PORT_UNI_GAIN_BASE.ADDR * 256 + p * 8192 + (x.line * s.geoNh p + u) * 2) 2))) } else y) ∧
       t = { s with port := { s.port with slots := t.port.slots }, hc := t.hc, regs := t.regs, evt := t.evt, mram := t.mram
                    boot := t.boot } ∧
       MemSame s t ∧ RegsBut hbmWords s t) ∧
  (∀ (s : State) (p v u : Nat) (x : Slot) (ecc : Option Nat) (f : LaneFault), s.up → p < 512 → s.carries p = true →
     s.turn p = some (v, u) → s.keyPath p v u = false → s.holdsWithoutJob p = false → s.noOversize p 0 →
     (s.slotsOf p).find? (fun y => y.line == v && y.u == u) = some x →
     (x.hold = true ∨ ∃ vals d, x.vals = some vals ∧ x.uni = some (some d)) →
     ∃ t, exec (.hogelProcess p ⟨ecc, f⟩) s = .next t ∧ t.handedTo p = v * 64 + u + 1 ∧
       (∀ q c, q ≠ p ∨ c ≠ 0 → t.waiting q c = s.waiting q c) ∧ t.port.slots = s.port.slots ∧ t.act = s.act ∧ MemSame s t ∧
       (x.hold = true → t.waiting p 0 = s.waiting p 0 ++ [(2, s.rayInfo p v u 0 true, [])] ∧ t.held p = s.held p + 1) ∧
       (∀ vals rec base pass, x.hold = false → x.vals = some vals → x.uni = some (some (rec, base)) →
         pass = s.compositePass p vals rec base →
         (∀ cs, pass f.first = some cs → t.waiting p 0 = s.waiting p 0 ++ shapes (s.rayPackets p v u false cs) ∧
           t.held p = s.held p ∧ t.get Reg.PORT_COUNT.RESIDUE = s.get Reg.PORT_COUNT.RESIDUE) ∧
         (∀ cs, pass f.first = none → pass f.retry = some cs →
           t.waiting p 0 = s.waiting p 0 ++ shapes (s.rayPackets p v u false cs) ∧ t.held p = s.held p ∧
           t.get Reg.PORT_COUNT.RESIDUE = min 0xFFFF (s.get Reg.PORT_COUNT.RESIDUE + 1)) ∧
         (pass f.first = none → pass f.retry = none →
           t.waiting p 0 = s.waiting p 0 ++ [(2, s.rayInfo p v u 0 true, [])] ∧ t.held p = s.held p + 1 ∧
           bit (t.get Reg.PORT_STATUS.LANE_FAILED) (s.laneOf (groupOf p)) = true)))

/-- A hogel that an active page covers, or any hogel in KEYSTONE_ONLY, is generated by its lane from the Keystone store
without a slot: every ray takes the palette colour of its index, through the locked set of the pier's width, and an
uncovered one takes the composite (0, 0, 0) (07 R169, R171, R172, R182). It is sent when a pass agrees with the code table,
and held when the retry fails too (07 R181, 17 R419). `ecc` names a page whose word the lane finds uncorrectable; a hogel of
NORMAL that is then uncovered is held (07 R177; that it is, is the model's choice, log 25). The KEY_REQ pair, the
supervisor's pages and the scrubber. A change of level is seen at once, and registers nothing. Once held for the debounce
time, an antivalent value is registered as request or idle and ends an input fault; equal levels set the input fault and
leave the registered request (07 R174). The supervisor's mask is what it writes, and the host's write is ignored (07 R173,
R175, R189). A scrub pass counts, and a present page with an uncorrectable word fails from the next latch point (07 R177).
-/
def Obligations.Keystone : Prop :=
  (∀ (s : State) (p v u : Nat) (ecc : Option Nat) (f : LaneFault) (idx : Option (Nat × Nat)) (tap : List Nat)
     (pass : LaneBad → Option (List Nat)), s.up → p < 512 → s.carries p = true →
     s.turn p = some (v, u) → s.keyPath p v u = true → s.hasLane p = true → s.noOversize p 0 →
     idx = (s.laneEcc p u v ecc).laneKey p u v → tap = (match idx with
       | some e => s.keyColour e
       | none => [0, 0, 0]) →
     pass = s.keyPass p idx tap →
     ∃ t, exec (.keystoneHogelGen p ecc f) s = .next t ∧ t.handedTo p = v * 64 + u + 1 ∧
       (∀ q c, q ≠ p ∨ c ≠ 0 → t.waiting q c = s.waiting q c) ∧ t.port.slots = s.port.slots ∧ t.act = s.act ∧ MemSame s t ∧
       (idx = none → s.deck.dev ≠ .keystoneOnly →
         t.waiting p 0 = s.waiting p 0 ++ [(2, s.rayInfo p v u 0 true, [])] ∧ t.held p = s.held p + 1) ∧
       (idx.isSome = true ∨ s.deck.dev = .keystoneOnly →
         (∀ cs, pass f.first = some cs ∨ pass f.first = none ∧ pass f.retry = some cs →
           t.waiting p 0 = s.waiting p 0 ++ shapes (s.rayPackets p v u true cs) ∧ t.held p = s.held p) ∧
         (pass f.first = none → pass f.retry = none →
           t.waiting p 0 = s.waiting p 0 ++ [(2, s.rayInfo p v u 0 true, [])] ∧ t.held p = s.held p + 1 ∧
           bit (t.get Reg.PORT_STATUS.LANE_FAILED) (s.laneOf (groupOf p)) = true))) ∧
  ((∀ (a b : Bool) (s : State), ¬ (s.key.pinA = a ∧ s.key.pinB = b) →
     ∃ t, exec (.keyReqInput a b) s = .next t ∧ t.get Reg.KEY_STATUS.REQ_A = ofBool a ∧ t.get Reg.KEY_STATUS.REQ_B = ofBool b ∧
       t.get Reg.KEY_STATUS.HW_REQ = s.get Reg.KEY_STATUS.HW_REQ ∧ t.get Reg.KEY_STATUS.ACTIVE = s.get Reg.KEY_STATUS.ACTIVE ∧
       t = { s with regs := t.regs, key := { s.key with pinA := a, pinB := b, since := s.isl, deb := true } } ∧
       RegsBut [Reg.KEY_STATUS] s t) ∧
   (∀ (s : State), s.key.deb = true → s.key.since + 7600000 ≤ s.isl →
     ∃ t, exec .keyReqRegistered s = .next t ∧ t.key.active = s.key.active ∧ MemSame s t ∧ t.act = s.act ∧
       (s.key.pinA ≠ s.key.pinB → t.get Reg.KEY_STATUS.HW_REQ = ofBool s.key.pinA ∧ t.get Reg.KEY_STATUS.INPUT_FAULT = 0) ∧
       (s.key.pinA = s.key.pinB → t.get Reg.KEY_STATUS.HW_REQ = s.get Reg.KEY_STATUS.HW_REQ ∧
         t.get Reg.KEY_STATUS.INPUT_FAULT = 1) ∧
       RegsBut ([Reg.KEY_STATUS, Reg.FS_CAUSE, Reg.FS_STATUS] ++ evtWords) s t) ∧
   (∀ (r : Req) (v : Word) (s : State), s.mayWrite r Reg.KEY_SUP_MASK →
     (r = .sup → ∃ t, exec (.keySupMaskWrite r v) s = .next t ∧ t.get Reg.KEY_SUP_MASK.PAGES = v.toNat % 65536 ∧
       t = { s with regs := t.regs } ∧ RegsBut [Reg.KEY_SUP_MASK] s t) ∧
     (r ≠ .sup → exec (.keySupMaskWrite r v) s = .next s)) ∧
   (∀ (s : State) (ecc crc : Nat) (locked : Bool), s.up →
     ∃ t, exec (.keyScrub ecc crc locked) s = .next t ∧
       t.get Reg.KEY_SCRUB.PASSES = (s.get Reg.KEY_SCRUB.PASSES + 1) % 2 ^ 32 ∧ t.key.active = s.key.active ∧
       t.key.store = s.key.store ∧ t.key.palette = s.key.palette ∧
       (∀ g, g < 16 → bit (s.get Reg.KEY_PAGES.PRESENT) g = true → (bit ecc g = true ∨ s.pageCrcOk g = false) →
         bit (t.key.failNext ||| t.get Reg.KEY_PAGES.FAILED) g = true) ∧
       RegsBut ([Reg.KEY_SCRUB, Reg.FS_CAUSE, Reg.FS_STATUS] ++ evtWords) s t))

/-- Loads of post-blend sets. A START of a set up to 12 begins the load when none runs; otherwise it ends at once with DONE
and its ERR, and the running load goes on. The end of a load whose CRC agrees puts the set into its standby copy and marks
it loaded, and the active copy stays; one whose CRC differs changes no copy (07 R183). The evaluation of a rectangle of the
frame that ended. A hogel without tap values skips it with reason 1 and leaves VALUE; in REPORT mode, VALUE is the CRC over
the taps and RESULT is 3; in EXPECT mode, when no reason to skip holds, RESULT is 1 for a match and 2 for a mismatch, which
is counted (07 R184 to R187). -/
def Obligations.PortChecks : Prop :=
  ((∀ (r : Req) (v : Word) (s : State), s.mayWrite r Reg.PORT_LUT_LOAD → s.actsSup r = true →
     (12 < v.toNat % 16 → ∃ t, exec (.plutLoadStart r v) s = .next t ∧ t.get Reg.PORT_LUT_STATUS.ERR = 3 ∧
       t.get Reg.PORT_LUT_STATUS.DONE = 1 ∧ t.get Reg.PORT_LUT_STATUS.BUSY = s.get Reg.PORT_LUT_STATUS.BUSY ∧
       t = { s with regs := t.regs } ∧ RegsBut [Reg.PORT_LUT_STATUS] s t) ∧
     (v.toNat % 16 ≤ 12 → s.port.load.isSome = true → ∃ t, exec (.plutLoadStart r v) s = .next t ∧
       t.get Reg.PORT_LUT_STATUS.ERR = 2 ∧ t.get Reg.PORT_LUT_STATUS.DONE = 1 ∧
       t.get Reg.PORT_LUT_STATUS.BUSY = s.get Reg.PORT_LUT_STATUS.BUSY ∧
       t = { s with regs := t.regs } ∧ RegsBut [Reg.PORT_LUT_STATUS] s t) ∧
     (v.toNat % 16 ≤ 12 → s.port.load = none → ∃ t, exec (.plutLoadStart r v) s = .next t ∧
       t.get Reg.PORT_LUT_STATUS.BUSY = 1 ∧ (∃ l, t.port = { s.port with load := some l } ∧ l.slot = v.toNat % 16 ∧
         l.src = s.get Reg.PORT_LUT_SRC.ADDR * 256 ∧ l.crc = s.get Reg.PORT_LUT_CRC.CRC) ∧
       t = { s with regs := t.regs, port := t.port } ∧ RegsBut [Reg.PORT_LUT_STATUS] s t)) ∧
   (∀ (s : State) (l : TableLoad) (bs : List Byte), s.up → s.port.load = some l → s.hbmServes → l.slot < 13 →
     bs = memRead s.hbm l.src 6150 →
     ∃ t, exec (.plutLoadDone .clean) s = .next t ∧ t.get Reg.PORT_LUT_STATUS.BUSY = 0 ∧ t.get Reg.PORT_LUT_STATUS.DONE = 1 ∧
       t.port.load = none ∧ t.port.plut = s.port.plut ∧ MemSame s t ∧
       (crc32c bs = l.crc → t.get Reg.PORT_LUT_STATUS.ERR = 0 ∧ bit (t.get Reg.PORT_LUT_LOADED.LOADED) l.slot = true ∧
         ∃ vs, (l.slot, vs) ∈ t.port.plutNext ∧ vs.length = 3075 ∧ ∀ i, i < 3075 → vs.getD i 0 = leNat ((bs.drop (2 * i)).take 2)) ∧
       (crc32c bs ≠ l.crc → t.get Reg.PORT_LUT_STATUS.ERR = 1 ∧ t.port.plutNext = s.port.plutNext ∧
         t.get Reg.PORT_LUT_LOADED.LOADED = s.get Reg.PORT_LUT_LOADED.LOADED))) ∧
  (∀ (s : State) (r : Nat) (w : Rect) (taps : List (Option Tap)), s.up → r < 64 →
     s.port.prevRects.find? (fun e => e.1 == r) = some (r, w) →
     taps = (s.rectHogels w).map (fun e => s.port.prevTap.get noTap (tapKey e)) →
     ∃ t, exec (.crcRectEval r) s = .next t ∧ MemSame s t ∧ t.act = s.act ∧
       t.get (Reg.CRC_RECT_RESULT.FRAME r) = s.port.prevFrame % 2 ^ 24 ∧ (∀ q ∈ t.port.prevRects, q.1 ≠ r) ∧
       RegsBut ([Reg.CRC_RECT_VALUE r, Reg.CRC_RECT_RESULT r, Reg.CRC_COUNT, Reg.FS_CAUSE, Reg.FS_STATUS] ++ evtWords) s t ∧
       (none ∈ taps → t.get (Reg.CRC_RECT_RESULT.RESULT r) = 4 ∧ t.get (Reg.CRC_RECT_RESULT.REASON r) = 1 ∧
         t.rd (Reg.CRC_RECT_VALUE r) = s.rd (Reg.CRC_RECT_VALUE r) ∧
         t.get Reg.CRC_COUNT.SKIPPED = min 0xFFFF (s.get Reg.CRC_COUNT.SKIPPED + 1)) ∧
       (none ∉ taps → t.rd (Reg.CRC_RECT_VALUE r) = word (crc32c (taps.flatMap fun x => (x.map (tapBytes w)).getD []))) ∧
       (none ∉ taps → w.cfg % 4 = 1 → t.get (Reg.CRC_RECT_RESULT.RESULT r) = 3) ∧
       (w.cfg % 4 = 2 → s.skipReason w taps = 0 →
         (crc32c (taps.flatMap fun x => (x.map (tapBytes w)).getD []) = w.exp → t.get (Reg.CRC_RECT_RESULT.RESULT r) = 1) ∧
         (crc32c (taps.flatMap fun x => (x.map (tapBytes w)).getD []) ≠ w.exp → t.get (Reg.CRC_RECT_RESULT.RESULT r) = 2 ∧
           t.get Reg.CRC_COUNT.MISMATCH = min 0xFFFF (s.get Reg.CRC_COUNT.MISMATCH + 1))))

/-! Viaduct (09). -/

/-- A packet of the tile traffic is offered to its class: it waits behind what already waits there, in CTRL and BULK, and no
packet of another class or pier moves (09 R214, R215); one that stands at the head and is longer than every window of its
class is dropped and counted (09 R226). RAY and TIME, which the port stage and the Deck fill, take only what was held back.
A CTRL packet that finds its class idle takes the finish tag of R217. At a block boundary with the line free, the eligible
head with the least finish tag starts at that boundary, becomes the pier's virtual time and leaves its queue; with no
eligible head the pier sends IDLE (09 R218, 08 R192). What is held back has no room yet and no head is longer than every
window. The tags lie within 2^46 of the virtual time, which makes the signed comparison of R217 an order. The end of a
transmission frees the line from its EOP on, and its blocks have left scrambled (08 R192). A pier whose queues are all empty
starts again with V and every Flast at 0 (09 R218). The slot of the hogel whose last packet was sent is released (07 R168).
-/
def Obligations.ViaductPackets : Prop :=
  ((∀ (s : State) (p c info : Nat) (d : List Byte), s.up → p < 512 → (c = 1 ∨ c = 2) → 8 ≤ d.length → d.length ≤ 256 →
     d.length % 8 = 0 →
     (s.noOversize p c → ∃ t, exec (.packetEnqueue p c info d) s = .next t ∧
       t.waiting p c = s.waiting p c ++ [(if c = 1 then 4 else 3, info % 256 * 65536, d)] ∧
       (∀ q e, q ≠ p ∨ e ≠ c → t.waiting q e = s.waiting q e) ∧ (∀ q, (t.vp q).tx = (s.vp q).tx) ∧
       t = { s with vdt := { s.vdt with piers := t.vdt.piers, depth := t.vdt.depth } }) ∧
     (s.waiting p c = [] → s.oversize (groupOf p) c (d.length / 8 + 2) = true →
       ∃ t, exec (.packetEnqueue p c info d) s = .next t ∧ (∀ q e, t.waiting q e = s.waiting q e) ∧
         t.get Reg.VDT_COUNT_OVERSIZE.COUNT = (s.get Reg.VDT_COUNT_OVERSIZE.COUNT + 1) % 2 ^ 32 ∧ MemSame s t ∧
         RegsBut (Reg.VDT_COUNT_OVERSIZE :: evtWords) s t)) ∧
   (∀ (s : State) (p c info : Nat) (d : List Byte), s.up → p < 512 → (c = 0 ∨ c = 3) → s.noOversize p c → s.settled p →
     ∃ t, exec (.packetEnqueue p c info d) s = .next t ∧ (∀ q e, t.waiting q e = s.waiting q e) ∧
       t = { s with vdt := { s.vdt with piers := t.vdt.piers, depth := t.vdt.depth } }) ∧
   (∀ (s : State) (p info : Nat) (d : List Byte), s.up → p < 512 → 8 ≤ d.length → d.length ≤ 256 → d.length % 8 = 0 →
     (s.vp p).q 2 = [] → (∀ o ∈ (s.vp p).offer, o.1 ≠ 2) → (∀ k, (s.vp p).tx ≠ some (2, k)) → s.noOversize p 2 →
     ∀ cost start, cost = max 1 (s.get (Reg.VDT_WFQ.COST 2)) →
     start = (if 0 < diff48 (addNs (s.vp p).v (-((s.get (Reg.VDT_WFQ.BURST 2) * cost : Nat) : Int)))
         ((s.vp p).flast.get (fun _ => 0) 2)
       then addNs (s.vp p).v (-((s.get (Reg.VDT_WFQ.BURST 2) * cost : Nat) : Int)) else (s.vp p).flast.get (fun _ => 0) 2) →
     ∃ t k, exec (.packetEnqueue p 2 info d) s = .next t ∧ (t.vp p).q 2 = [k] ∧ k.payload = d ∧ k.tag = (start + cost) % 2 ^ 48 ∧
       (t.vp p).flast.get (fun _ => 0) 2 = k.tag)) ∧
  (∀ (s : State) (p : Nat), s.up → p < 512 → (s.vp p).tx = none → (s.vp p).eop8 + 330 ≤ s.block8 p → s.lineHeld p = false →
     1 ≤ s.pierState p → s.pierState p ≤ 4 → (∀ c, c < 4 → s.noOversize p c) → s.settled p →
     (∀ c k, c < 4 → s.eligible p c k → (diff48 k.tag (s.vp p).v).natAbs < 2 ^ 46) →
     ((∀ c k, c < 4 → ¬ s.eligible p c k) →
       ∃ t, exec (.vdtSchedule p) s = .next t ∧
         t.out = .pierLine p (lineWords (s.vp p).scr [idleBlock]).1 :: .pierBlock p idleBlock :: s.out ∧ (t.vp p).tx = none ∧
         (∀ q c, t.waiting q c = s.waiting q c) ∧
         t = { s with regs := t.regs, vdt := t.vdt, out := t.out } ∧ RegsBut [Reg.VDT_G_COUNT (groupOf p)] s t) ∧
     ((∃ c k, c < 4 ∧ s.eligible p c k) →
       ∃ t c k x, exec (.vdtSchedule p) s = .next t ∧ c < 4 ∧ s.eligible p c k ∧
         (∀ d y, d < 4 → s.eligible p d y → 0 ≤ diff48 y.tag k.tag) ∧
         (t.vp p).tx = some (c, x) ∧ x.payload = k.payload ∧ x.ptype = k.ptype ∧ (t.vp p).v = k.tag ∧
         (t.vp p).txEnd8 = s.block8 p + k.blocks * 165 ∧
         (c ≠ 3 → t.waiting p c = (s.waiting p c).drop 1) ∧ (∀ q d, q ≠ p ∨ d ≠ c → t.waiting q d = s.waiting q d) ∧
         t.out = .packet p c x.wire :: s.out ∧ MemSame s t ∧ RegsBut [Reg.VDT_G_COUNT (groupOf p)] s t)) ∧
  (∀ (s : State) (p c : Nat) (k : QPkt), s.up → p < 512 → (s.vp p).tx = some (c, k) → (s.vp p).txEnd8 ≤ s.nt.now8 →
     ∃ t, exec (.packetSent p) s = .next t ∧ (t.vp p).tx = none ∧ (t.vp p).eop8 = (s.vp p).txEnd8 ∧
       (t.vp p).queue = (s.vp p).queue ∧ (∀ q, q ≠ p → t.vp q = s.vp q) ∧
       t.out = .pierLine p (lineWords (s.vp p).scr (s.vp p).sending).1 :: s.out ∧
       ((s.vp p).queue = [] → (t.vp p).v = 0 ∧ ∀ d, (t.vp p).flast.get (fun _ => 0) d = 0) ∧
       ((s.vp p).queue ≠ [] → (t.vp p).v = (s.vp p).v ∧ (t.vp p).flast = (s.vp p).flast) ∧
       ((k.ptype ≠ 1 ∧ k.ptype ≠ 2 ∨ k.last = false) → t = { s with vdt := t.vdt, out := t.out }) ∧
       ((k.ptype = 1 ∨ k.ptype = 2) → k.last = true → s.deck.dev ≠ .normal →
         t.slotsOf p = (s.slotsOf p).filter (fun x => !(x.line == k.line && x.u == k.u)) ∧
         t = { s with vdt := t.vdt, out := t.out, port := { s.port with slots := t.port.slots } }) ∧
       t.regs = s.regs)

/-- A cycle of a list that is not tied to the Deck starts with entry 0, and a change of GATE_EN whose time has come takes
effect (09 R221, R222, R455). When the interval of the entry in effect has passed, the next entry of the expanded sequence
takes effect where it ended; the last entry stays (09 R222). The supervisor's writes of the gate lists; the host's are
ignored (09 R234). A change of GATE_EN takes effect at once for a group whose list follows the Deck, while the Deck is
stopped; while the CONFIG section is loaded it waits for the end of the list (09 R455). A word of a bank that is active
while GATE_EN = 1, or that waits for its swap, is not written, with ERR 7; any other takes the written value (09 R230). A
swap request is refused with the first check of R229 that fails, and otherwise waits for its start, at which the other bank
becomes the active one (09 R229, R230). -/
def Obligations.GateLists : Prop :=
  ((∀ (s : State) (g x : Nat) (m : Int), s.up → g < 16 → (s.vg g).nextC = some (m, x) → s.frameSync g (s.bankOf g) = false → s.due x = true →
     ∃ t, exec (.gateCycleStart g) s = .next t ∧ (t.vg g).pos = 0 ∧ (t.vg g).begun8 = s.nt.now8 ∧
       t.get (Reg.VDT_G_STATUS.ENTRY g) = 0 ∧ t.get (Reg.VDT_G_STATUS.ACTIVE g) = s.get (Reg.VDT_G_STATUS.ACTIVE g) ∧
       ((s.vg g).wantAt8 ≤ s.nt.now8 → (t.vg g).on = (s.vg g).wantOn.getD (s.vg g).on ∧ (t.vg g).wantOn = none) ∧
       (s.nt.now8 < (s.vg g).wantAt8 → (t.vg g).on = (s.vg g).on) ∧ (t.vg g).swap = (s.vg g).swap ∧
       (∀ h, h ≠ g → t.vg h = s.vg h) ∧ MemSame s t ∧ t.act = s.act) ∧
   (∀ (s : State) (g e f : Nat), s.up → g < 16 → s.gating g = .list →
     (s.entrySeq g (s.bankOf g))[(s.vg g).pos]? = some e → (s.entrySeq g (s.bankOf g))[(s.vg g).pos + 1]? = some f → f < 64 →
     (s.vg g).begun8 + s.get (Reg.VDT_G_B_E_TIME.INTERVAL g (s.bankOf g) e) * 8 ≤ s.nt.now8 →
     ∃ t, exec (.gateEntryBoundary g) s = .next t ∧
       t.vg g = { s.vg g with pos := (s.vg g).pos + 1
                              begun8 := (s.vg g).begun8 + s.get (Reg.VDT_G_B_E_TIME.INTERVAL g (s.bankOf g) e) * 8 } ∧
       t.get (Reg.VDT_G_STATUS.ENTRY g) = f ∧ (∀ h, h ≠ g → t.vg h = s.vg h) ∧ MemSame s t ∧ t.act = s.act)) ∧
  ((∀ (r : Req) (v : Word) (s : State), s.mayWrite r Reg.VDT_CTRL →
     (s.actsSup r = false → exec (.gateEnWrite r v) s = .next s) ∧
     (s.actsSup r = true → s.get Reg.VDT_CTRL.GATE_EN ≠ v.toNat % 2 →
       ∃ t, exec (.gateEnWrite r v) s = .next t ∧ t.get Reg.VDT_CTRL.GATE_EN = v.toNat % 2 ∧ MemSame s t ∧
         (s.boot.loading = true → t.vdt = s.vdt) ∧
         (s.boot.loading = false → ∀ g, g < 16 → s.frameSync g (s.bankOf g) = true →
           (s.deckRunning = false → (t.vg g).on = (v.toNat % 2 == 1)) ∧
           (s.deckRunning = true → (t.vg g).on = (s.vg g).on ∧ (t.vg g).wantOn = some (v.toNat % 2 == 1))))) ∧
   (∀ (r : Req) (a g b : Nat) (v : Word) (s : State), bankAt a = some (g, b) → s.mayWrite r a → s.actsSup r = true →
     ((b = s.bankOf g ∧ s.get Reg.VDT_CTRL.GATE_EN = 1 ∨ b ≠ s.bankOf g ∧ (s.vg g).swap.isSome = true) →
       ∃ t, exec (.gateBankWrite r a v) s = .next t ∧ t.get (Reg.VDT_G_STATUS.ERR g) = 7 ∧ t.vdt = s.vdt ∧
         RegsBut (Reg.VDT_G_STATUS g :: evtWords) s t) ∧
     (¬ (b = s.bankOf g ∧ s.get Reg.VDT_CTRL.GATE_EN = 1 ∨ b ≠ s.bankOf g ∧ (s.vg g).swap.isSome = true) →
       ∃ t, exec (.gateBankWrite r a v) s = .next t ∧ t.rd a = mergeBits (s.rd a) v (rwMask a) ∧ t = { s with regs := t.regs } ∧
         RegsBut [a] s t)) ∧
   (∀ (r : Req) (g : Nat) (v : Word) (s : State), g < 16 → s.mayWrite r (Reg.VDT_G_SWAP g) → s.actsSup r = true →
     (∀ e, s.bankError g (1 - s.bankOf g) = some e →
       ∃ t, exec (.gateSwapRequest r g v) s = .next t ∧ t.get (Reg.VDT_G_STATUS.ERR g) = e ∧ t.vdt = s.vdt ∧
         RegsBut (Reg.VDT_G_STATUS g :: evtWords) s t) ∧
     (s.bankError g (1 - s.bankOf g) = none → (s.vg g).swap.isSome = true →
       ∃ t, exec (.gateSwapRequest r g v) s = .next t ∧ t.get (Reg.VDT_G_STATUS.ERR g) = 6 ∧ t.vdt = s.vdt ∧
         RegsBut (Reg.VDT_G_STATUS g :: evtWords) s t) ∧
     (s.bankError g (1 - s.bankOf g) = none → (s.vg g).swap = none →
       ∃ t, exec (.gateSwapRequest r g v) s = .next t ∧ t.get (Reg.VDT_G_STATUS.PENDING g) = 1 ∧
         t.get (Reg.VDT_G_STATUS.ACTIVE g) = s.get (Reg.VDT_G_STATUS.ACTIVE g) ∧ (t.vg g).swap.isSome = true ∧
         t = { s with regs := t.regs, vdt := { s.vdt with groups := t.vdt.groups } } ∧ RegsBut [Reg.VDT_G_STATUS g] s t)) ∧
   (∀ (s : State) (g x : Nat) (m : Int) (late : Bool), s.up → g < 16 → (s.vg g).swap = some (some (m, x), late) → s.due x = true →
     ∃ t, exec (.gateSwapStart g) s = .next t ∧
       t.get (Reg.VDT_G_STATUS.ACTIVE g) = 1 - s.get (Reg.VDT_G_STATUS.ACTIVE g) ∧ t.get (Reg.VDT_G_STATUS.PENDING g) = 0 ∧
       t.get (Reg.VDT_G_STATUS.ENTRY g) = 0 ∧ (t.vg g).swap = none ∧ (t.vg g).failed = false ∧ (t.vg g).pos = 0 ∧
       (t.vg g).begun8 = s.nt.now8 ∧ (∀ h, h ≠ g → t.vg h = s.vg h) ∧ MemSame s t))

/-! Pier links and tiles (08). -/

/-- Reverse windows. A free window of a stopped Deck sends the guard, TURN with GRANT = floor((20,000 − 1,733.75 − 2 Cp) /
20.625) blocks and two IDLE blocks, or is skipped when that is less than 8 (08 R199, 09 R223). The tile's TURN ends the
window and forward blocks resume after the preamble and 24 IDLE blocks; a TURN without block lock, with DIR 0 or with a
wrong CRC-8 is ignored (08 R193, R200). Without one the window ends at the latest time as a reverse error, and a period that
used no window counts as one without a valid burst: the third in succession returns an ACTIVE pier to LINKUP (08 R200, R206,
R454). -/
def Obligations.ReverseWindows : Prop :=
  (∀ (s : State) (p : Nat), s.up → p < 512 → s.flag Reg.PIER_CTRL.FREE_TURN = true → s.gating (groupOf p) ≠ .list →
    s.deckRunning = false → s.nt.half % 400000 < 5 → (s.pierState p = 3 ∨ s.pierState p = 4) → s.geoNh p ≠ 0 →
    s.lineHeld p = false → s.echoIsDue p = false → (s.vp p).tx = none → s.nextFlip p = none →
    ((s.pr p).period = some s.periodNow ∨ (s.pr p).period = none ∨ (s.pr p).usedWin = true) →
    (8 ≤ (s.pr p).grantOf 160000 → ∃ t, exec (.freeWindow p) s = .next t ∧
      t.pr p = { s.pr p with
        period := some s.periodNow
        usedWin := true
        win := some ⟨((s.pr p).grantOf 160000).toNat, none,
          s.block8 p + 7830 + (divI (s.pr p).cpTwice (64 * (s.pr p).cpDen)).toNat + ((s.pr p).grantOf 160000).toNat * 165,
          s.block8 p + 160000, [], false⟩ } ∧
      (∀ bs, bs = List.replicate 4 idleBlock ++ [turnBlock ((s.pr p).grantOf 160000).toNat (s.deck.lastLatch.getD 0), idleBlock, idleBlock] →
        t.out = .pierLine p (lineWords (s.vp p).scr bs).1 :: (bs.map (Out.pierBlock p)).reverse ++ s.out) ∧
      (∀ q, q ≠ p → t.pr q = s.pr q ∧ t.vp q = s.vp q) ∧ (∀ c, t.waiting p c = s.waiting p c) ∧
      t = { s with piers := t.piers, vdt := { s.vdt with piers := t.vdt.piers }, out := t.out
                   nt := { s.nt with gridMark := t.nt.gridMark } }) ∧
    ((s.pr p).grantOf 160000 < 8 → ∃ t, exec (.freeWindow p) s = .next t ∧
      t.get (Reg.PIER_ERR.SKIPPED_WIN p) = min (s.get (Reg.PIER_ERR.SKIPPED_WIN p) + 1) 255 ∧ (t.pr p).win = (s.pr p).win ∧
      (∀ q, q ≠ p → t.pr q = s.pr q) ∧ t = { s with regs := t.regs, piers := t.piers } ∧ RegsBut [Reg.PIER_ERR p] s t)) ∧
  (∀ (s : State) (p : Nat) (w : Win) (seen : List BlockSeen) (d : List Byte) (rx : List Bool), s.inBurst p w [] →
    (¬ turnGood seen d → exec (.reverseTurnReceive p ⟨seen, d⟩ rx) s = .next s) ∧
    (turnGood seen d → s.pierState p ≠ 1 → (s.pr p).test = none → (s.vp p).tx = none →
      ∃ t, exec (.reverseTurnReceive p ⟨seen, d⟩ rx) s = .next t ∧
        t.pr p = { s.pr p with win := some { w with turned := true }, missRun := 0, fwdAt := s.nt.now8 } ∧
        t.get (Reg.PIER_STATUS.RX_LOCK p) = 1 ∧ t.pierState p = s.pierState p ∧ (∀ q, q ≠ p → t.pr q = s.pr q ∧ t.vp q = s.vp q) ∧
        (∃ ws, t.out = .pierLine p ws :: List.replicate 24 (.pierBlock p idleBlock) ++ .preamble p :: s.out) ∧
        t = { s with regs := t.regs, piers := t.piers, vdt := { s.vdt with piers := t.vdt.piers }, out := t.out } ∧
        RegsBut [Reg.PIER_STATUS p] s t)) ∧
  (∀ (s : State) (p : Nat) (w : Win) (b : List RevPkt) (seen : List BlockSeen), s.inBurst p w b →
    (s.nt.now8 < w.latest8 → exec (.reverseWindowTimeout ⟨p, seen⟩) s = .next s) ∧
    (w.latest8 ≤ s.nt.now8 → ∃ t, exec (.reverseWindowTimeout ⟨p, seen⟩) s = .next t ∧ (t.pr p).win = none ∧
      t.get (Reg.PIER_ERR.RX_BAD p) = min (s.get (Reg.PIER_ERR.RX_BAD p) + 1) 65535 ∧
      t.get (Reg.PIER_STATUS.RX_LOCK p) = ofBool (lockAfter noLock seen) ∧
      missedOne s t p ∧ (∀ q, q ≠ p → t.pr q = s.pr q) ∧ MemSame s t ∧ RegsBut (Reg.PIER_ERR p :: linkWords p) s t)) ∧
  (∀ (s : State) (p : Nat), s.up → p < 512 → s.deckRunning = false →
    ((s.pr p).period = some s.periodNow → exec (.pierIdlePeriod p) s = .next s) ∧
    ((s.pr p).period ≠ some s.periodNow → ∃ t, exec (.pierIdlePeriod p) s = .next t ∧
      (t.pr p).usedWin = false ∧ (t.pr p).period = some s.periodNow ∧
      ((s.pr p).period = none ∨ (s.pr p).usedWin = true → (t.pr p).missRun = (s.pr p).missRun ∧ t = { s with piers := t.piers }) ∧
      ((s.pr p).period ≠ none → (s.pr p).usedWin = false → missedOne s t p) ∧ (∀ q, q ≠ p → t.pr q = s.pr q) ∧ MemSame s t ∧
      RegsBut (linkWords p) s t))

/-- What a tile sends in a window. A packet that is whole, with a LEN of whole blocks and the right CRC-32C, waits in the
burst; any other is discarded and counted (08 R194, R200). At the TURN that ends the burst the pier takes what waits there.
CTRL_ACK takes every packet up to its SEQ from the resend store; the first FRAME_ACK of a frame that the pier carried
compares its frame CRC (08 R200, 07 R188). An ECHO_REP with the ID of the window's ECHO_REQ gives the sample RX − TX − RES,
and the average waits for the latch point (08 R204). NAK sends the packets from its SEQ again, and one sent 8 times returns
the pier to LINKUP (08 R198). STATUS and READ_DATA show only that a burst was valid. The forms that a whole packet may have
are taken as the model's operands give them (log 52, log 77). At the TURN of its burst DECLARE is kept in PIER_p_DECL and
its companions, and a pier in LINKUP or MISMATCH checks it in the order of 08 R207: with no check that fails it enters
DISCOVER and sends CONFIG with NOW = 1; otherwise it is in MISMATCH with the CAUSE of the first failing check. A pier in
MISMATCH sends DISCOVER once per second (08 R206), at the head of its CTRL queue (the place is the model's choice, log 20).
-/
def Obligations.TileMessages : Prop :=
  ((∀ (s : State) (p : Nat) (w : Win) (b : List RevPkt) (e : RxEnd) (i : Instr) (ptype info : Nat) (d : List Byte) (k : RevPkt),
     s.inBurst p w b → tileSends p e i ptype info d k →
     ∀ whole : Prop, (whole ↔ d.length % 8 = 0 ∧ d.length ≤ 256 ∧ e.cut = false ∧ e.blocks = d.length / 8 ∧
       e.crc = crc32c (sopBytes ptype d.length info ++ d)) →
     (whole → ∃ t, exec i s = .next t ∧ t.pr p = { s.pr p with win := some { w with burst := b ++ [k] } } ∧
       (∀ q, q ≠ p → t.pr q = s.pr q) ∧ t = { s with piers := t.piers }) ∧
     (¬ whole → ∃ t, exec i s = .next t ∧ t.get (Reg.PIER_ERR.RX_BAD p) = min (s.get (Reg.PIER_ERR.RX_BAD p) + 1) 65535 ∧
       t = { s with regs := t.regs } ∧ RegsBut [Reg.PIER_ERR p] s t)) ∧
   (∀ (s : State) (p frame crc ack kept n : Nat) (he fm : Bool) (w : Win) (seen : List BlockSeen) (d : List Byte) (rx : List Bool),
     s.inBurst p w [.ack frame crc ack kept he fm] → turnGood seen d → (s.pr p).test = none → s.pierState p = 3 →
     (∀ e ∈ (s.vp p).unacked, e.2.ptype ≠ 3) → s.deck.lastLatch = some n → (s.pr p).firstF ≤ n → (s.pr p).ackDone ≠ some n →
     frame % 2 ^ 24 = n % 2 ^ 24 → s.alarmCovered p = false →
     ∃ t, exec (.reverseTurnReceive p ⟨seen, d⟩ rx) s = .next t ∧
       (t.vp p).unacked = (s.vp p).unacked.filter (fun e => decide (diff12 ack (e.2.seq.getD 0) < 0)) ∧
       (∀ q, q ≠ p → t.vp q = s.vp q) ∧ (t.pr p).ackDone = some n ∧ t.pierState p = 3 ∧ MemSame s t ∧
       (crc = s.port.crcPrev.get (fun _ => 0) p → t.port.failRun.get (fun _ => 0) p = 0 ∧ RegsBut [Reg.PIER_STATUS p] s t) ∧
       (crc ≠ s.port.crcPrev.get (fun _ => 0) p →
         t.get (Reg.CRC_PIER.MISMATCH p) = min (s.get (Reg.CRC_PIER.MISMATCH p) + 1) 65535 ∧
         t.port.failRun.get (fun _ => 0) p = s.port.failRun.get (fun _ => 0) p + 1 ∧
         RegsBut (Reg.PIER_STATUS p :: Reg.CRC_PIER p :: evtWords) s t)) ∧
   (∀ (s : State) (p id rtt res : Nat) (w : Win) (seen : List BlockSeen) (d : List Byte) (rx : List Bool),
     s.inBurst p w [.echo id rtt res] → turnGood seen d → (s.pr p).test = none → s.pierState p ≠ 1 →
     ∃ t, exec (.reverseTurnReceive p ⟨seen, d⟩ rx) s = .next t ∧ (t.pr p).cpSum = (s.pr p).cpSum ∧ (t.pr p).cpN = (s.pr p).cpN ∧
       (∀ q, q ≠ p → t.pr q = s.pr q) ∧
       (w.echo ≠ some id → (t.pr p).samples = (s.pr p).samples ∧ (t.pr p).cpNext = (s.pr p).cpNext ∧ MemSame s t ∧
         RegsBut [Reg.PIER_STATUS p] s t) ∧
       (w.echo = some id → s.get (Reg.PIER_CABLE.SAMPLES p) < s.echoAvg →
         (t.pr p).samples = ((s.pr p).samples ++ [(rtt : Int) - 2 * (res : Int)]).drop ((s.pr p).samples.length + 1 - s.echoAvg) ∧
         (t.pr p).cpNext = some ((t.pr p).samples.foldl (· + ·) 0, (t.pr p).samples.length) ∧
         t.get (Reg.PIER_CABLE.SAMPLES p) = s.get (Reg.PIER_CABLE.SAMPLES p) + 1 ∧ MemSame s t ∧
         RegsBut [Reg.PIER_STATUS p, Reg.PIER_CABLE p] s t)) ∧
   (∀ (s : State) (p n : Nat) (e : Nat × QPkt) (w : Win) (seen : List BlockSeen) (d : List Byte) (rx : List Bool),
     s.inBurst p w [.nak n] → turnGood seen d → (s.pr p).test = none → s.pierState p ≠ 1 → (s.vp p).unacked = [e] →
     e.1 = 1 ∨ e.1 = 2 → 0 ≤ diff12 (e.2.seq.getD 0) n →
     (8 ≤ e.2.tries → ∃ t, exec (.reverseTurnReceive p ⟨seen, d⟩ rx) s = .next t ∧ t.pierState p = 1 ∧ (∀ q, q ≠ p → t.pr q = s.pr q) ∧
       MemSame s t ∧ RegsBut (linkWords p) s t) ∧
     (e.2.tries < 8 → ∃ t, exec (.reverseTurnReceive p ⟨seen, d⟩ rx) s = .next t ∧ (t.vp p).unacked = [] ∧
       t.waiting p e.1 = (e.2.ptype, e.2.info, e.2.payload) :: s.waiting p e.1 ∧ (∀ q c, q ≠ p ∨ c ≠ e.1 → t.waiting q c = s.waiting q c) ∧
       t.pierState p = s.pierState p ∧ MemSame s t ∧ RegsBut [Reg.PIER_STATUS p] s t)) ∧
   (∀ (s : State) (p k : Nat) (b d : List Byte) (w : Win) (seen : List BlockSeen) (rx : List Bool), s.inBurst p w [.plain k b] →
     turnGood seen d → (s.pr p).test = none → s.pierState p ≠ 1 →
     ∃ t, exec (.reverseTurnReceive p ⟨seen, d⟩ rx) s = .next t ∧ t.get (Reg.PIER_STATUS.RX_LOCK p) = 1 ∧ t.pierState p = s.pierState p ∧
       (t.pr p).missRun = 0 ∧ (∀ q c, t.waiting q c = s.waiting q c) ∧ MemSame s t ∧ RegsBut [Reg.PIER_STATUS p] s t)) ∧
  ((∀ (s : State) (p : Nat) (d : Declared) (w : Win) (seen : List BlockSeen) (b : List Byte) (rx : List Bool), s.inBurst p w [.declare d] →
     turnGood seen b → (s.pr p).test = none → (s.pierState p = 1 ∨ s.pierState p = 4) → s.noOversize p 2 →
     ∃ t, exec (.reverseTurnReceive p ⟨seen, b⟩ rx) s = .next t ∧
       t.get (Reg.PIER_DECL.NH p) = d.nh % 128 ∧ t.get (Reg.PIER_DECL.NV p) = d.nv % 128 ∧ t.get (Reg.PIER_DECL.H p) = d.h % 512 ∧
       t.get (Reg.PIER_DECL.V p) = d.v % 16 ∧ t.get (Reg.PIER_DECLW.WIDTHS p) = d.widths % 8 ∧
       t.get (Reg.PIER_LATMIN.LAT p) = d.latMin % 2 ^ 32 ∧ t.get (Reg.PIER_LATMAX.LAT p) = d.latMax % 2 ^ 32 ∧
       (∀ q, q ≠ p → t.pr q = s.pr q) ∧ MemSame s t ∧
       RegsBut ([Reg.PIER_DECL p, Reg.PIER_DECLW p, Reg.PIER_LATMIN p, Reg.PIER_LATMAX p] ++ linkWords p) s t ∧
       ∀ limits shape width lat : Prop,
         (limits ↔ (1 ≤ d.nh ∧ d.nh ≤ 64) ∧ (1 ≤ d.nv ∧ d.nv ≤ 64) ∧ (1 ≤ d.h ∧ d.h ≤ 256) ∧ (1 ≤ d.v ∧ d.v ≤ 8) ∧
           d.nh * d.nv * d.h * d.v ≤ 2 ^ 20 ∧ d.h * d.v ≤ 1024) →
         (shape ↔ d.nh = s.geoNh p ∧ d.nv = s.geoNv p ∧ d.h = s.geoH p ∧ d.v = s.geoV p) →
         (width ↔ bit d.widths (s.ac (Reg.PORT_PIER_CFG.WIDTH p)) = true) →
         (lat ↔ d.latMin ≤ s.get (Reg.PIER_FLIPLAT.LAT p) ∧ s.get (Reg.PIER_FLIPLAT.LAT p) ≤ d.latMax) →
         (d.version ≠ 1 → t.pierState p = 4 ∧ t.get (Reg.PIER_STATUS.CAUSE p) = 1) ∧
         (d.version = 1 → ¬ limits → t.pierState p = 4 ∧ t.get (Reg.PIER_STATUS.CAUSE p) = 2) ∧
         (d.version = 1 → limits → ¬ shape → t.pierState p = 4 ∧ t.get (Reg.PIER_STATUS.CAUSE p) = 3) ∧
         (d.version = 1 → limits → shape → ¬ width → t.pierState p = 4 ∧ t.get (Reg.PIER_STATUS.CAUSE p) = 4) ∧
         (d.version = 1 → limits → shape → width → ¬ lat → t.pierState p = 4 ∧ t.get (Reg.PIER_STATUS.CAUSE p) = 5) ∧
         (d.version = 1 → limits → shape → width → lat → t.pierState p = 2 ∧ t.get (Reg.PIER_STATUS.CAUSE p) = 0 ∧
           (t.pr p).cfgAcked = false ∧
           t.waiting p 2 = s.waiting p 2 ++ [(3, 2 * 65536, leBytes 1 (s.ac (Reg.PORT_PIER_CFG.WIDTH p)) ++ leBytes 1 1 ++ leBytes 2 0
             ++ leBytes 4 (s.get (Reg.PIER_FLIPLAT.LAT p)) ++ leBytes 8 0)])) ∧
   (∀ (s : State) (p : Nat), s.up → p < 512 →
     (s.pierState p ≠ 4 ∨ s.nt.now8 < (s.pr p).discoverAt + oneSecond → exec (.mismatchRediscover p) s = .next s) ∧
     (s.pierState p = 4 → (s.pr p).discoverAt + oneSecond ≤ s.nt.now8 → (∀ k ∈ (s.vp p).q 2, k.isDiscover = false) →
       (∀ x, (s.vp p).tx = some x → x.2.isDiscover = false) →
       ∃ t, exec (.mismatchRediscover p) s = .next t ∧ t.pr p = { s.pr p with discoverAt := s.nt.now8 } ∧
         t.waiting p 2 = (3, 65536, leBytes 2 p ++ leBytes 1 1 ++ leBytes 5 0) :: s.waiting p 2 ∧
         (t.vp p).unacked = (s.vp p).unacked.filter (fun e => !e.2.isDiscover) ∧
         (∀ q, q ≠ p → t.pr q = s.pr q ∧ t.vp q = s.vp q) ∧ (∀ c, c ≠ 2 → t.waiting p c = s.waiting p c) ∧
         t = { s with piers := t.piers, vdt := { s.vdt with piers := t.vdt.piers, depth := t.vdt.depth } })))

/-- The supervisor's writes of pier registers; the host's are ignored (08 R212). A write of PIER_CTRL or PIER_p_CFG puts
every pier that is not enabled, or has no tile, into DOWN, and one that is enabled out of DOWN into LINKUP, where it sends
DISCOVER (08 R206, R207). A flip latency outside LAT_MIN to LAT_MAX of a pier in DISCOVER or ACTIVE, or one that would raise
PIER_NTF, with PIER_NTF + 100 above a DECK_FLIP_OFFSET, is refused and changes neither PIER_NTF nor Kp; one taken on an
ACTIVE pier is sent in a CONFIG and in force from frame EFF = current + 4 (08 R203, R208). START sends CTRL TEST, from
LINKUP at the head of the CTRL queue (08 R211). A test of a pier: the acknowledgement of CTRL TEST enters TEST, and sends
the pattern of a forward test. The count of the tile ends it in LINKUP; in a reverse test the burst does, whose bits the
pier compares with the pattern (08 R211; the polynomials, start value and way of counting are the model's, log 125). -/
def Obligations.PierCommands : Prop :=
  ((∀ (r : Req) (p : Option Nat) (v : Word) (s : State) (a : Nat), s.up → p.getD 0 < 512 →
     a = (match p with | some q => Reg.PIER_CFG q | none => Reg.PIER_CTRL) → s.mayWrite r a →
     (s.actsSup r = false → exec (.pierEnableWrite r p v) s = .next s) ∧
     (s.actsSup r = true → ∃ t, exec (.pierEnableWrite r p v) s = .next t ∧ t.rd a = mergeBits (s.rd a) v (rwMask a) ∧
       (∀ q, q < 512 →
         ((t.flag Reg.PIER_CTRL.EN && t.flag (Reg.PIER_CFG.EN q)) = true ∧ s.geoNh q ≠ 0 →
           (s.pierState q ≠ 0 → t.pierState q = s.pierState q) ∧
           (s.pierState q = 0 → t.pierState q = 1 ∧
             (((t.vp q).q 2).any QPkt.isDiscover || (t.vp q).tx.any (fun x => x.2.isDiscover)) = true)) ∧
         (¬ ((t.flag Reg.PIER_CTRL.EN && t.flag (Reg.PIER_CFG.EN q)) = true ∧ s.geoNh q ≠ 0) →
           t.pierState q = if s.pierState q = 6 then 6 else 0)) ∧ MemSame s t ∧
       (∀ q c, c ≠ 2 ∨ s.pierState q ≠ 0 → t.waiting q c = s.waiting q c) ∧
       RegsBut ([a, Reg.FS_CAUSE, Reg.FS_STATUS] ++ evtWords ++ (List.range 512).map Reg.PIER_STATUS) s t)) ∧
   (∀ (r : Req) (p : Nat) (v : Word) (s : State), s.up → p < 512 → s.mayWrite r (Reg.PIER_FLIPLAT p) →
     (s.actsSup r = false → exec (.fliplatWrite r p v) s = .next s) ∧
     (s.actsSup r = true → ((s.pierState p = 2 ∨ s.pierState p = 3) ∧
         (v.toNat < s.get (Reg.PIER_LATMIN.LAT p) ∨ s.get (Reg.PIER_LATMAX.LAT p) < v.toNat) ∨
         s.get Reg.PIER_NTF.NTF < s.ntfOf (some (p, v.toNat)) ∧ s.leastFlipOffset < s.ntfOf (some (p, v.toNat)) + 100) →
       ∃ t, exec (.fliplatWrite r p v) s = .next t ∧ t.piers = s.piers ∧ t.vdt = s.vdt ∧ MemSame s t ∧ RegsBut evtWords s t) ∧
     (s.actsSup r = true → s.pierState p = 3 → s.get (Reg.PIER_LATMIN.LAT p) ≤ v.toNat →
       v.toNat ≤ s.get (Reg.PIER_LATMAX.LAT p) → s.noOversize p 2 →
       (s.ntfOf (some (p, v.toNat)) ≤ s.get Reg.PIER_NTF.NTF ∨ s.ntfOf (some (p, v.toNat)) + 100 ≤ s.leastFlipOffset) →
       ∃ t, exec (.fliplatWrite r p v) s = .next t ∧ t.rd (Reg.PIER_FLIPLAT p) = v ∧
         t.get Reg.PIER_NTF.NTF = s.ntfOf (some (p, v.toNat)) % 2 ^ 32 ∧
         t.pr p = { s.pr p with kpNext := (s.pr p).kpNext ++ [(s.deck.frameNum + 4, v.toNat)] } ∧
         t.waiting p 2 = s.waiting p 2 ++ [(3, 2 * 65536, leBytes 1 (s.ac (Reg.PORT_PIER_CFG.WIDTH p)) ++ leBytes 1 0 ++ leBytes 2 0
           ++ leBytes 4 v.toNat ++ leBytes 3 ((s.deck.frameNum + 4) % 2 ^ 24) ++ leBytes 5 0)] ∧
         t = { s with regs := t.regs, piers := t.piers, vdt := t.vdt } ∧ RegsBut [Reg.PIER_FLIPLAT p, Reg.PIER_NTF] s t)) ∧
   (∀ (r : Req) (v : Word) (s : State) (p mode : Nat) (k : Nat × Nat × List Byte), s.up → s.mayWrite r Reg.PIER_TEST → s.actsSup r = true →
     p = fieldOf v Reg.PIER_TEST.PIER → mode = fieldOf v Reg.PIER_TEST.MODE → 1 ≤ mode → mode ≤ 3 → s.pierState p ≠ 0 →
     s.pierState p < 5 → (s.pierState p = 3 → s.deckRunning = false) → s.noOversize p 2 →
     k = (3, 5 * 65536, leBytes 1 mode ++ leBytes 1 (fieldOf v Reg.PIER_TEST.DIR) ++ leBytes 2 0
         ++ leBytes 4 (fieldOf v Reg.PIER_TEST.LEN * 1024)) →
     ∃ t, exec (.pierTestStart r v) s = .next t ∧
       (t.pr p).test = some ⟨fieldOf v Reg.PIER_TEST.DIR == 1, mode, fieldOf v Reg.PIER_TEST.LEN * 1024, false, 0⟩ ∧
       (∀ q, q ≠ p → t.pr q = s.pr q) ∧
       (s.pierState p = 1 → t.waiting p 2 = k :: s.waiting p 2) ∧ (s.pierState p ≠ 1 → t.waiting p 2 = s.waiting p 2 ++ [k]) ∧
       t = { s with regs := t.regs, piers := t.piers, vdt := t.vdt } ∧ RegsBut [Reg.PIER_TEST] s t)) ∧
  ((∀ (s : State) (p frame crc ack kept : Nat) (he fm : Bool) (c : Nat) (k : QPkt) (x : PierTest) (w : Win) (seen : List BlockSeen)
     (d : List Byte) (rx : List Bool), s.inBurst p w [.ack frame crc ack kept he fm] → turnGood seen d →
     (s.vp p).unacked = [(c, k)] → k.ptype = 3 → k.op = 5 → (s.pr p).test = some x → x.running = false →
     0 ≤ diff12 ack (k.seq.getD 0) →
     ∃ t, exec (.reverseTurnReceive p ⟨seen, d⟩ rx) s = .next t ∧ t.pierState p = 5 ∧
       (t.pr p).test = some { x with
         running := true
         from8 := if x.reverse then s.nt.now8 else s.nt.now8 + x.blocks * 165 + 1280 + 24 * 165 } ∧
       (x.reverse = false → Out.pierPattern p x.mode (66 * x.blocks) ∈ t.out) ∧
       (t.vp p).unacked = [] ∧ MemSame s t ∧ RegsBut (linkWords p) s t) ∧
   (∀ (s : State) (p errors bits : Nat) (x : PierTest) (w : Win) (seen : List BlockSeen) (d : List Byte) (rx : List Bool),
     turnGood seen d → (s.pr p).test = some x → x.running = true →
     (x.reverse = false → s.inBurst p w [.result errors bits] → ∃ t, exec (.reverseTurnReceive p ⟨seen, d⟩ rx) s = .next t ∧
       t.pierState p = 1 ∧ (t.pr p).test = none ∧ MemSame s t ∧ RegsBut (linkWords p) s t) ∧
     (x.reverse = true → s.inBurst p w [] → ∃ t, exec (.reverseTurnReceive p ⟨seen, d⟩ rx) s = .next t ∧ t.pierState p = 1 ∧
       (t.pr p).test = none ∧ t.rd (Reg.PIER_TEST_ERR p) = word (patternErrors x.mode rx) ∧ MemSame s t ∧
       RegsBut (Reg.PIER_TEST_ERR p :: linkWords p) s t)))

/-- A pier whose flip is due sends the FLIP block of the frame when its instant has come, with FINE and TAP of 08 R202, or
FINE = 0 and LATE when a time step moved the instant into the past (08 R201 to R203). It sets its tap first (14 R350), and
inside a packet the block stands between two blocks of it (08 R194, 09 R227). FINE lies from 0 to 65 and TAP from 0 to 31
(08 R201, R202). -/
def Obligations.FlipEmission : Prop :=
  (∀ (s : State) (p : Nat), s.up → p < 512 → (s.pr p).flipDue = true → (∀ w, (s.pr p).win = some w → w.turned = true) →
    s.flipCome p = true → s.pierState p = 3 → s.configOpen p (s.deck.frameNum % 2 ^ 24) = false →
    ∃ t b, exec (.flipEmission p) s = .next t ∧
      t.get (Reg.PIER_FLIPPOS.LATE p) = ofBool (s.pr p).flipLate ∧
      ((s.pr p).flipLate = true → t.get (Reg.PIER_FLIPPOS.FINE p) = 0 ∧ t.get (Reg.PIER_FLIPPOS.TAP p) = 0) ∧
      ((s.pr p).flipLate = false →
        t.get (Reg.PIER_FLIPPOS.FINE p) = (s.flipPlace p).2.1 ∧ t.get (Reg.PIER_FLIPPOS.TAP p) = (s.flipPlace p).2.2) ∧
      b = flipBlock (s.deck.frameNum % 2 ^ 24) (t.get (Reg.PIER_FLIPPOS.FINE p))
        (ofBool (s.pr p).flipLate + 2 * ofBool s.deck.repeatF + 4 * ofBool (decide (s.deck.dev = .hold))
          + 8 * ofBool (decide (s.deck.dev = .keystoneOnly))) ∧
      ((s.vp p).tx = none → t.out = .pierLine p (lineWords (s.vp p).scr [b]).1 :: .pierBlock p b ::
        .pierTap p (s.tapSetting p (t.get (Reg.PIER_FLIPPOS.TAP p))) :: s.out) ∧
      ((s.vp p).tx ≠ none → t.out = .pierBlock p b :: .pierTap p (s.tapSetting p (t.get (Reg.PIER_FLIPPOS.TAP p))) :: s.out ∧
        (t.vp p).txEnd8 = (s.vp p).txEnd8 + 165 ∧
        ∃ n, (t.vp p).sending = (s.vp p).sending.take n ++ b :: (s.vp p).sending.drop n) ∧
      t.pr p = { s.pr p with flipDue := false, flipLate := false, fwdAt := max (s.pr p).fwdAt s.nt.now8 } ∧
      (∀ q, q ≠ p → t.pr q = s.pr q ∧ t.vp q = s.vp q) ∧ (∀ c, t.waiting p c = s.waiting p c) ∧
      t = { s with regs := t.regs, piers := t.piers, vdt := { s.vdt with piers := t.vdt.piers }, out := t.out } ∧
      RegsBut [Reg.PIER_FLIPPOS p] s t) ∧
  (∀ (s : State) (p : Nat), (s.flipPlace p).2.1 ≤ 65 ∧ (s.flipPlace p).2.2 ≤ 31)

/-! Network time and clocking (10). -/

/-- A write of the high word of NT_ADJ. Beyond the threshold NT moves by O rounded to the nearest multiple of 0.5 ns, an
exact half toward +∞; EPOCH rises by one and no slew is left. Within it the offset is slewed, or held in holdover and while
another is held (10 R239, R241). What is left shows in NT_SLEW_LEFT in 2^-8 ns. A slew ends when its term of Φ is back at 0
and less than 2^-8 ns is left, and not before. NT_FREQ takes the written offset, clamped to ±51,200,000, and in holdover
holds it for the next lock; a term of Φ follows it (10 R238, R239, R253, R259). What a step does to the next frame start
while no frame is in progress. A start it moved into the past fires at once; one left less than 40,000 ns ahead gives way to
the first start at least that far (02 R34); after a backward step of more than one period the Deck takes the first start at
least 40,000 ns ahead and marks the next frame as repeated (02 R33); a shorter backward step keeps the start (02 R32), and a
late one that it puts ahead again is no longer late. The order of these cases is the model's reading (log 61), and so is a
step of half a nanosecond taken as the whole one below it (log 136). -/
def Obligations.TimeCorrection : Prop :=
  (∀ (r : Req) (v : Word) (s : State) (o : Int), s.mayWrite r (Reg.NT_ADJ + 4) → s.actsSup r = true → s.nt.gateStep = none →
     o = signed 64 (s.nt.adjLo + 2 ^ 32 * v.toNat) →
     (s.stepThresh * 65536 < o.natAbs → ∃ t, exec (.ntAdj r v) s = .next t ∧
       ((t.nt.sec * 2000000000 + t.nt.half : Nat) : Int)
         = Int.emod ((s.nt.sec * 2000000000 + s.nt.half : Nat) + Int.fdiv (o + 2 ^ 14) (2 ^ 15)) (2 ^ 48 * 2000000000) ∧
       t.get Reg.NT_STATUS.EPOCH = (s.get Reg.NT_STATUS.EPOCH + 1) % 65536 ∧ t.get Reg.NT_STATUS.SLEWING = 0 ∧
       t.get Reg.NT_STATUS.PENDING = 0 ∧ t.slewLeft = 0 ∧ t.nt.slew = none ∧ t.nt.held = none ∧
       t.nt.now8 = s.nt.now8 ∧ t.clk = s.clk ∧ t.act = s.act ∧ MemSame s t) ∧
     (o.natAbs ≤ s.stepThresh * 65536 → s.clk.state ≠ .holdover → s.nt.held = none → ∃ t, exec (.ntAdj r v) s = .next t ∧
       t.nt = { s.nt with slew := some (o * 1562500), held := none } ∧ t.get Reg.NT_STATUS.SLEWING = 1 ∧
       t.slewLeft = word (unsignedOf 32 (Int.fdiv o 256)) ∧ t = { s with regs := t.regs, nt := t.nt } ∧
       RegsBut [Reg.NT_STATUS] s t) ∧
     (o.natAbs ≤ s.stepThresh * 65536 → (s.clk.state = .holdover ∨ s.nt.held.isSome = true) → ∃ t, exec (.ntAdj r v) s = .next t ∧
       t.nt = { s.nt with slew := none, held := some (o * 1562500) } ∧ t.get Reg.NT_STATUS.PENDING = 1 ∧ t.get Reg.NT_STATUS.SLEWING = 0 ∧
       t.slewLeft = word (unsignedOf 32 (Int.fdiv o 256)) ∧ t = { s with regs := t.regs, nt := t.nt } ∧ RegsBut [Reg.NT_STATUS] s t)) ∧
  ((∀ (s : State) (l : Int), s.up → s.nt.slew = some l →
     (s.nt.slewPhi = 0 → l.natAbs < 400000000 → ∃ t, exec .ntSlewEnd s = .next t ∧ t.nt = { s.nt with slew := none } ∧
       t.get Reg.NT_STATUS.SLEWING = 0 ∧ t = { s with regs := t.regs, nt := t.nt } ∧ RegsBut [Reg.NT_STATUS] s t) ∧
     (s.nt.slewPhi ≠ 0 ∨ 400000000 ≤ l.natAbs → exec .ntSlewEnd s = .next s)) ∧
   (∀ (r : Req) (v : Word) (s : State) (f : Int), s.mayWrite r Reg.NT_FREQ → s.actsSup r = true →
     f = max (-51200000) (min 51200000 (signed 32 v.toNat)) →
     ∃ t, exec (.ntFreqWrite r v) s = .next t ∧ t.get Reg.NT_FREQ.FREQ = unsignedOf 32 f ∧
       t.nt = (if s.clk.state = .holdover then { s.nt with freqHeld := some f } else { s.nt with freq := f, freqHeld := none }) ∧
       t = { s with regs := t.regs, nt := t.nt } ∧ RegsBut [Reg.NT_FREQ] s t)) ∧
  (∀ (r : Req) (v : Word) (s : State) (o h : Int) (j : Int), s.mayWrite r (Reg.NT_ADJ + 4) → s.actsSup r = true →
     s.deck.dev ≠ .safeHalt → s.nt.gateStep = none → o = signed 64 (s.nt.adjLo + 2 ^ 32 * v.toNat) →
     s.stepThresh * 65536 < o.natAbs → h = Int.fdiv (Int.fdiv (o + 2 ^ 14) (2 ^ 15)) 2 → s.deck.busy = false → s.deck.nextK = some j →
     ∃ t, exec (.ntAdj r v) s = .next t ∧ t.deck.lastStep = h ∧
       (0 < h → diff48 (s.schedS j) t.nt48 < 0 → t.deck.nextK = some j ∧ t.deck.startLate = true) ∧
       (0 < h → 0 ≤ diff48 (s.schedS j) t.nt48 → diff48 (s.schedS j) t.nt48 < 40000 →
         t.deck.nextK = some (s.firstIndex (t.nt48 + 40000)) ∧ t.deck.startLate = false) ∧
       (0 < h → 40000 ≤ diff48 (s.schedS j) t.nt48 → t.deck.nextK = some j ∧ t.deck.startLate = false) ∧
       (h < 0 → (s.ac Reg.DECK_PERIOD_NUM.NUM : Int) < -h * (s.ac Reg.DECK_PERIOD_DEN.DEN : Nat) →
         t.deck.nextK = some (s.firstIndex (t.nt48 + 40000)) ∧ t.deck.repeatNext = true ∧ t.deck.startLate = false) ∧
       (h < 0 → -h * (s.ac Reg.DECK_PERIOD_DEN.DEN : Nat) ≤ (s.ac Reg.DECK_PERIOD_NUM.NUM : Int) →
         t.deck.nextK = some j ∧ t.deck.repeatNext = s.deck.repeatNext ∧
         t.deck.startLate = (s.deck.startLate && decide (diff48 (s.schedS j) t.nt48 < 0))))

/-- A write of the last word of NT_SET sets SEC and NS with FRAC 0; it is a step, whatever the old value was; an NS of 10^9
or more makes it ineffective (10 R240). -/
def Obligations.TimeSet : Prop :=
  ∀ (r : Req) (v : Word) (s : State) (w : Nat), s.mayWrite r (Reg.NT_SET + 8) → s.actsSup r = true → s.nt.gateStep = none →
    w = s.nt.set0 + 2 ^ 32 * s.nt.set1 + 2 ^ 64 * v.toNat →
    (1000000000 ≤ bits w 16 32 → exec (.ntSet r v) s = .next s) ∧
    (bits w 16 32 < 1000000000 → ∃ t, exec (.ntSet r v) s = .next t ∧ t.nt.sec = bits w 48 48 ∧ t.nt.half = 2 * bits w 16 32 ∧
      t.get Reg.NT_STATUS.SET = 1 ∧ t.get Reg.NT_STATUS.EPOCH = (s.get Reg.NT_STATUS.EPOCH + 1) % 65536 ∧
      t.nt.now8 = s.nt.now8 ∧ t.clk = s.clk ∧ t.act = s.act ∧ MemSame s t)

/-- The alarms: ARM takes the target in NT_ALARMn_LO and HI, and LATE when it lies in the past; DISARM takes it back; an
alarm whose target has come sets FIRED and LATE, and with a PERIOD arms itself again a PERIOD of at least 10,000 ns later
(10 R243, R245). PPS_OUT rises within a cycle of CLK_TIME after one of its instants and falls WIDTH × 10 µs later (10 R246).
TIME frames. One leaves with its SOF on lane 0 behind IDLE blocks, with SEQ 0xFFFF, out of M1 behind 32 IDLE blocks (11
R273, R276, R277); with an event message it gives an entry with the corrected timestamp, the EPOCH and the three fields of
its message, unless 32 entries wait: then it is dropped and counted (10 R248, R249, R251). One that arrives whole goes to
the receive ring behind its prefix (10 R250); one with a wrong CRC, or beyond 16 that wait, is dropped and counted (11 R278,
R279); how many have been processed since the last one is an operand (log 97). A read of word 0 of NT_TXQx takes the oldest
entry (10 R251). -/
def Obligations.AlarmsAndFrames : Prop :=
  ((∀ (r : Req) (n : Nat) (v : Word) (s : State), n < 8 → s.mayWrite r (Reg.NT_ALARM_CTRL n) → s.actsSup r = true →
     (∃ t, exec (.ntAlarmArm r n v) s = .next t ∧
       t.nt = { s.nt with armed := t.nt.armed } ∧
       t.nt.armed.get noAlarm n = some (s.get (Reg.NT_ALARM_LO.T n) + 2 ^ 32 * s.get (Reg.NT_ALARM_HI.T n),
         s.due (s.get (Reg.NT_ALARM_LO.T n) + 2 ^ 32 * s.get (Reg.NT_ALARM_HI.T n))) ∧
       (∀ m, m ≠ n → t.nt.armed.get noAlarm m = s.nt.armed.get noAlarm m) ∧ t.get (Reg.NT_ALARM_CTRL.ARMED n) = 1 ∧
       t.get (Reg.NT_ALARM_CTRL.NOTIFY n) = fieldOf v (Reg.NT_ALARM_CTRL.NOTIFY n) ∧
       t.get (Reg.NT_ALARM_CTRL.FIRED n) = (if bit v.toNat 1 then 0 else s.get (Reg.NT_ALARM_CTRL.FIRED n)) ∧
       t = { s with regs := t.regs, nt := t.nt } ∧ RegsBut [Reg.NT_ALARM_CTRL n] s t) ∧
     (∃ t, exec (.ntAlarmDisarm r n v) s = .next t ∧ t.nt = { s.nt with armed := t.nt.armed } ∧ t.nt.armed.get noAlarm n = none ∧
       (∀ m, m ≠ n → t.nt.armed.get noAlarm m = s.nt.armed.get noAlarm m) ∧ t.get (Reg.NT_ALARM_CTRL.ARMED n) = 0 ∧
       t = { s with regs := t.regs, nt := t.nt } ∧ RegsBut [Reg.NT_ALARM_CTRL n] s t)) ∧
   (∀ (n T : Nat) (late : Bool) (s : State), s.up → n < 8 → s.nt.armed.get noAlarm n = some (T, late) →
     (s.due T = false → exec (.ntAlarmFire n) s = .next s) ∧
     (s.due T = true → ∃ t, exec (.ntAlarmFire n) s = .next t ∧ t.get (Reg.NT_ALARM_CTRL.FIRED n) = 1 ∧
       t.get (Reg.NT_ALARM_CTRL.LATE n) = ofBool late ∧
       (s.get (Reg.NT_ALARM_PERIOD.PERIOD n) = 0 → t.nt.armed.get noAlarm n = none ∧ t.get (Reg.NT_ALARM_CTRL.ARMED n) = 0) ∧
       (∀ per, per = s.get (Reg.NT_ALARM_PERIOD.PERIOD n) → per ≠ 0 →
         t.nt.armed.get noAlarm n = some ((T + max per 10000) % 2 ^ 48, s.due ((T + max per 10000) % 2 ^ 48)) ∧
         t.get (Reg.NT_ALARM_CTRL.ARMED n) = 1) ∧
       (∀ m, m ≠ n → t.nt.armed.get noAlarm m = s.nt.armed.get noAlarm m) ∧ MemSame s t ∧
       RegsBut (Reg.NT_ALARM_CTRL n :: evtWords) s t)) ∧
   (∀ s : State, s.up → (s.get Reg.NT_PPS_CFG.MODE = 1 ∨ s.get Reg.NT_PPS_CFG.MODE = 2) → s.nt.ppsHigh = false →
     ((∃ l ∈ s.ppsLags, 0 ≤ l ∧ l < 5) → exec .ppsOutRise s = .next { s with
       nt := { s.nt with ppsHigh := true, ppsFallAt := s.nt.now8 + max 1 (s.get Reg.NT_PPS_CFG.WIDTH) * 80000 }
       out := .pin "PPS_OUT" true :: s.out }) ∧
     ((∀ l ∈ s.ppsLags, l < 0 ∨ 5 ≤ l) → exec .ppsOutRise s = .next s)) ∧
   (∀ s : State, s.up → s.nt.ppsHigh = true → s.nt.ppsFallAt ≤ s.nt.now8 →
     exec .ppsOutFall s = .next { s with nt := { s.nt with ppsHigh := false }, out := .pin "PPS_OUT" false :: s.out })) ∧
  ((∀ (s : State) (x stamp : Nat) (msg : List Byte), s.up → x < 2 → s.mrState x = mrActive →
     ((s.mp x).m2Want = true → exec (.timeFrameTransmit x msg stamp) s = .next s) ∧
     ((s.mp x).m2Want = false → ∃ t, exec (.timeFrameTransmit x msg stamp) s = .next t ∧ MemSame s t ∧
       t.out = .frame x 4 (onLanes (s.mp x).lane (List.replicate ((8 - (s.mp x).lane) % 8) idleBlock
           ++ frameBlocks 4 true true 0xFFFF msg)) :: s.wakeOut x ++ s.out ∧
       (ptpIsEvent msg = false → t.txq x = s.txq x) ∧
       (ptpIsEvent msg = true → (s.txq x).length < 32 →
         t.txq x = s.txq x ++ [txqEntry (stamp + s.get (Reg.NT_LAT_TX.LAT x) * 256) (s.get Reg.NT_STATUS.EPOCH) msg] ∧
         t.get (Reg.NT_TXQ_STAT.LEVEL x) = (s.txq x).length + 1 ∧ RegsBut [Reg.NT_TXQ_STAT x, Reg.MR_STATUS x] s t) ∧
       (ptpIsEvent msg = true → 32 ≤ (s.txq x).length → t.txq x = s.txq x ∧
         t.get (Reg.NT_TXQ_STAT.DROPPED x) = min (s.get (Reg.NT_TXQ_STAT.DROPPED x) + 1) 65535 ∧
         RegsBut (Reg.NT_TXQ_STAT x :: Reg.MR_STATUS x :: evtWords) s t))) ∧
   (∀ (s : State) (x stamp done : Nat) (e : RxEnd) (msg : List Byte), s.up → x < 2 → s.mrState x = mrActive →
     ∀ (c w : Nat) (whole : Prop), c = crc32 (sofBytes 4 true true msg.length 0xFFFF ++ msg) → w = (s.mp x).timeWait - done →
     (whole ↔ e.cut = false ∧ e.crc = c ∧ e.blocks = ceilDiv msg.length 8 ∧ 1 ≤ msg.length ∧ msg.length ≤ 512) →
     (whole → w < 16 → ∃ t d, exec (.timeFrameReceive x msg stamp done e) s = .next t ∧ d.length = 16 ∧
       t.nt = { s.nt with rxRing := s.nt.rxRing ++ [d ++ msg] } ∧ leAt d 0 1 = x ∧ leAt d 1 1 = ofBool (ptpIsEvent msg) ∧
       leAt d 2 2 = s.get Reg.NT_STATUS.EPOCH ∧ t.mp x = { s.mp x with timeWait := w + 1 } ∧ t = { s with nt := t.nt, mr := t.mr } ∧
       (ptpIsEvent msg = true → stamp < 2 ^ 32 * 1000000000 * 65536 →
         (leAt d 4 4 * 1000000000 + leAt d 8 4) * 65536 + leAt d 12 2 = stamp - s.get (Reg.NT_LAT_RX.LAT x) * 256)) ∧
     (e.cut = false → e.crc ≠ c → ∃ t, exec (.timeFrameReceive x msg stamp done e) s = .next t ∧
       t.get (Reg.MR_COUNT_CRC.CRC x) = min (s.get (Reg.MR_COUNT_CRC.CRC x) + 1) 65535 ∧ t.mp x = { s.mp x with timeWait := w } ∧
       t = { s with regs := t.regs, mr := t.mr } ∧ RegsBut [Reg.MR_COUNT_CRC x] s t) ∧
     (¬ whole → (e.cut = true ∨ e.crc = c) → ∃ t, exec (.timeFrameReceive x msg stamp done e) s = .next t ∧
       t.mp x = { s.mp x with timeWait := w } ∧ t = { s with mr := t.mr }) ∧
     (whole → 16 ≤ w → ∃ t, exec (.timeFrameReceive x msg stamp done e) s = .next t ∧
       t.get (Reg.MR_COUNT_DROP.OTHER x) = min (s.get (Reg.MR_COUNT_DROP.OTHER x) + 1) 255 ∧ t.mp x = { s.mp x with timeWait := w } ∧
       t = { s with regs := t.regs, mr := t.mr } ∧ RegsBut [Reg.MR_COUNT_DROP x] s t)) ∧
   (∀ (r : Req) (s : State) (x : Nat), x < 2 → s.mayRead r (Reg.NT_TXQ x) →
     ∃ t, exec (.ntTxqRead r x) s = .next t ∧ t.txq x = (s.txq x).drop 1 ∧ (∀ y, y < 2 → y ≠ x → t.txq y = s.txq y) ∧
       ((s.txq x).length ≤ 32 → t.get (Reg.NT_TXQ_STAT.LEVEL x) = ((s.txq x).drop 1).length) ∧ MemSame s t ∧
       RegsBut [Reg.NT_TXQ_STAT x] s t))

/-- The ADPLL: SEARCH with its codes found acquires, on the stored codes if they are there and their check passes, with FINE
centred and the measured phase error to be removed modulo 10 ns; ACQUIRE locks when the error has rested within 20 ps for
1,000 reference cycles after the phase slew, and lets a held rate and offset take effect; a fast hop moves MEDIUM by one
toward the side on which FINE left its range, and FINE, a free value there (log 147), by the stored step (10 R254, R255,
R257, R259). A reference that is found invalid freezes the codes in HOLDOVER, and the other one is acquired at once when it may be used; a qualified PRIMARY leaves
HOLDOVER; REVERT returns to PRIMARY after 10 s (10 R258). The interpolation of stored codes, the sign of the phase error,
and what is left of a slew at holdover are the model's readings (logs 131 to 133). The clock checks of the safety island: a
DCO judged beyond ±1,000 ppm, a count over 10 µs off by more than 1 from the ratio of 10 R236 on a clock not gated by
design, or the island's own oscillator off by more than 2 % against CLK_TIME and the valid reference, enters SAFE_HALT: the
clocks stop, every pier with a tile is SILENT and FS_FAULT_N is asserted. Any other judgement changes nothing (10 R260,
R261, 08 R206; without a valid reference the oscillator is judged on CLK_TIME alone, the model's choice, log 137). -/
def Obligations.Clocks : Prop :=
  ((∀ (s : State) (c m : Nat) (check : Bool) (e : Int), s.up → s.clk.state = .search → s.refOk s.clk.ref = true →
     ∃ t, exec (.adpllCodesFound ⟨c, m⟩ check e) s = .next t ∧
       t.clk = { s.clk with state := .acquire, frac := 0, found := t.clk.found, quietAt := s.isl
                            phaseLeft := (5000 - Int.emod (e + 5000) 10000) * 102400000 } ∧
       t.get Reg.CLK_STATUS.STATE = 2 ∧ t.get Reg.CLK_DCO.FINE = 512 ∧
       (s.bandCodes = none ∨ check = false → t.get Reg.CLK_DCO.COARSE = c % 64 ∧ t.get Reg.CLK_DCO.MEDIUM = m % 128 ∧
         t.clk.found = some (c % 64, m % 128, s.tj)) ∧
       (∀ b, s.bandCodes = some b → check = true → t.get Reg.CLK_DCO.COARSE = b.1 % 64 ∧ t.get Reg.CLK_DCO.MEDIUM = b.2 % 128 ∧
         t.clk.found = s.clk.found) ∧ t.nt = s.nt ∧
       MemSame s t ∧ RegsBut ([Reg.CLK_DCO, Reg.CLK_STATUS] ++ evtWords) s t) ∧
   (∀ (s : State) (e : Int), s.up → s.clk.state = .acquire → s.boot.hbmWait = false →
     (20 < e.natAbs ∨ s.phaseDone = false ∨ s.isl < s.clk.quietAt + 80000 → exec (.adpllLocked e) s = .next s) ∧
     (e.natAbs ≤ 20 → s.phaseDone = true → s.clk.quietAt + 80000 ≤ s.isl → ∃ t, exec (.adpllLocked e) s = .next t ∧
       t.clk = { s.clk with state := .locked } ∧ t.get Reg.CLK_STATUS.STATE = 3 ∧
       t.get Reg.CLK_STATUS.PHASE_ERR = unsignedOf 16 e ∧
       t.nt.freq = s.nt.freqHeld.getD s.nt.freq ∧ t.nt.freqHeld = none ∧
       (∀ o, s.nt.held = some o → t.nt.held = none ∧ t.nt.slew = some o ∧ t.get Reg.NT_STATUS.PENDING = 0 ∧
         t.get Reg.NT_STATUS.SLEWING = 1) ∧
       (s.nt.held = none → t.nt.slew = s.nt.slew) ∧ MemSame s t ∧
       RegsBut ([Reg.CLK_STATUS, Reg.NT_STATUS] ++ evtWords) s t)) ∧
   (∀ s : State, s.up → s.clk.state = .locked ∨ s.clk.state = .acquire →
     ∃ t, ∃ f : Nat, exec .adpllFastHop s = .next t ∧ (f < 128 ∨ 896 < f ∧ f < 1024) ∧
       t.get Reg.CLK_DCO.MEDIUM = (if f < 128 then s.get Reg.CLK_DCO.MEDIUM - 1 else min 127 (s.get Reg.CLK_DCO.MEDIUM + 1)) ∧
       (t.get Reg.CLK_DCO.FINE : Int) = max 0 (min 1023 (if f < 128 then (f : Int) + s.medStep else (f : Int) - s.medStep)) ∧
       t.get Reg.CLK_DCO.COARSE = s.get Reg.CLK_DCO.COARSE ∧
       t.get Reg.CLK_COUNT.HOPS = (s.get Reg.CLK_COUNT.HOPS + 1) % 65536 ∧ t = { s with regs := t.regs, free := t.free } ∧
       RegsBut [Reg.CLK_DCO, Reg.CLK_COUNT] s t) ∧
   (∀ (s : State) (ref : Bool) (why : RefFault) (e : Int), s.up → s.refOk ref = true → s.clk.ref = ref → s.clk.state = .locked →
     ∀ bad : Prop, (bad ↔ (∃ n, why = .edges n ∧ 4 ≤ n) ∨ (∃ n, why = .cycles n ∧ (n < 990 ∨ 1010 < n)) ∨
       (∃ p, why = .phase p ∧ 1000 < p.natAbs)) →
     (¬ bad → exec (.refLoss ⟨ref, why, e⟩) s = .next s) ∧
     (bad → ∃ t, exec (.refLoss ⟨ref, why, e⟩) s = .next t ∧ t.refOk ref = false ∧ t.refOk (!ref) = s.refOk (!ref) ∧
       t.get Reg.CLK_COUNT.REF_LOSS = min (s.get Reg.CLK_COUNT.REF_LOSS + 1) 255 ∧
       t.get Reg.CLK_COUNT.HOLDOVERS = min (s.get Reg.CLK_COUNT.HOLDOVERS + 1) 255 ∧
       (s.refUsable (!ref) = true → t.clk.ref = !ref ∧ t.clk.state = .acquire) ∧
       (s.refUsable (!ref) = false → t.clk.ref = ref ∧ t.clk.state = .holdover) ∧
       t.nt = { s.nt with slew := none, held := s.nt.slew.orElse fun _ => s.nt.held } ∧ t.deck = s.deck ∧ MemSame s t ∧
       RegsBut ([Reg.CLK_STATUS, Reg.CLK_COUNT, Reg.CLK_HOLDTIME, Reg.NT_STATUS] ++ evtWords) s t)) ∧
   (∀ (s : State) (ref : Bool) (e : Int) (since : Nat), s.up → s.refOk ref = false → s.clk.state = .holdover →
     since = (if ref then s.clk.mraSince else s.clk.refclkSince) → (ref = s.primaryRef ∨ s.flag Reg.CLK_REF_CFG.FALLBACK_EN = true) →
     (s.isl < since + 80000000 → exec (.refQualified ⟨ref, e⟩) s = .next s) ∧
     (since + 80000000 ≤ s.isl → ∃ t, exec (.refQualified ⟨ref, e⟩) s = .next t ∧ t.refOk ref = true ∧ t.clk.ref = ref ∧
       t.clk.state = .acquire ∧ t.get Reg.CLK_STATUS.REF = ofBool ref ∧ t.nt = s.nt ∧ t.deck = s.deck ∧ MemSame s t ∧
       RegsBut ([Reg.CLK_STATUS, Reg.CLK_HOLDTIME] ++ evtWords) s t)) ∧
   (∀ s : State, s.up → s.flag Reg.CLK_REF_CFG.REVERT = true → s.clk.ref ≠ s.primaryRef → s.refOk s.primaryRef = true →
     (if s.primaryRef then s.clk.mraSince else s.clk.refclkSince) + 10 * oneSecond ≤ s.isl → s.clk.state = .locked →
     ∃ t, exec .refRevert s = .next t ∧ t.clk.ref = s.primaryRef ∧ t.clk.state = .acquire ∧
       t.get Reg.CLK_COUNT.HOLDOVERS = min (s.get Reg.CLK_COUNT.HOLDOVERS + 1) 255 ∧
       t.nt = { s.nt with slew := none, held := s.nt.slew.orElse fun _ => s.nt.held } ∧ t.deck = s.deck ∧ MemSame s t ∧
       RegsBut ([Reg.CLK_STATUS, Reg.CLK_COUNT, Reg.CLK_HOLDTIME, Reg.NT_STATUS] ++ evtWords) s t)) ∧
  ((∀ (s : State) (ppm : Int), s.up →
     (-1000 ≤ ppm → ppm ≤ 1000 → exec (.dcoCheck ppm) s = .next s) ∧
     (ppm < -1000 ∨ 1000 < ppm → ∃ t, exec (.dcoCheck ppm) s = .next t ∧ t.deck.dev = .safeHalt ∧ t.clk.state = .off ∧
       t.fs.faultLow = true ∧ t.get Reg.DECK_STATE.CUR = 3 ∧ t.get Reg.CLK_STATUS.STATE = 0 ∧
       (∀ p, p < 512 → s.geoNh p ≠ 0 → t.pierState p = 6) ∧ t.nt = s.nt ∧ MemSame s t ∧
       RegsBut ([Reg.DECK_STATE, Reg.CLK_STATUS, Reg.FS_STATUS, Reg.PWR_AVS] ++ evtWords ++ (List.range 512).map Reg.PIER_STATUS) s t)) ∧
   (∀ (s : State) (c k o : Nat), s.up → c < 6 →
     ∀ (n : Int) (gated bad : Prop), n = [16000, 9000, 8000, 8000, 16000, 2000].getD c 0 →
     (gated ↔ c = 0 ∧ ∀ m, m < 8 → s.get (Reg.COMB_STATUS.POWER m) = 0 ∨ s.get (Reg.COMB_STATUS.POWER m) = 3) →
     (bad ↔ (c < 5 ∧ ¬ gated ∧ (k < n - 1 ∨ n + 1 < k)) ∨
       (c = 5 ∧ (k < 1960 ∨ 2040 < k) ∧ (s.refOk s.clk.ref = false ∨ o < 1960 ∨ 2040 < o))) →
     (¬ bad → exec (.clockMonitorWindow c k o) s = .next s) ∧
     (bad → ∃ t, exec (.clockMonitorWindow c k o) s = .next t ∧ t.deck.dev = .safeHalt ∧
       t.clk.state = .off ∧ t.fs.faultLow = true ∧ t.get Reg.DECK_STATE.CUR = 3 ∧
       (∀ p, p < 512 → s.geoNh p ≠ 0 → t.pierState p = 6) ∧ MemSame s t ∧
       RegsBut ([Reg.DECK_STATE, Reg.CLK_STATUS, Reg.FS_STATUS, Reg.PWR_AVS] ++ evtWords ++ (List.range 512).map Reg.PIER_STATUS) s t)))

/-! The Moror link layer (11). -/

/-- Training. A valid clock takes DETECT to LOCK. In EQ the presets P0 to P7 are requested in turn, and of the eight the one
whose smallest FOM is highest is kept, the lower number on a tie. EQ with EQ_DONE in both directions goes to DESKEW, DESKEW
with the lanes aligned to CONFIG, and CONFIG with equal versions and complementary roles to ACTIVE, where SEQ starts at 0.
The clock is valid within 1 % of 7.2 GHz over 10 µs, and the lanes are aligned when the AMs of one slot arrive within 200 UI
(11 R268 to R272, R278). A training state longer than 2 ms returns to DETECT (11 R270). What each state does with a block of
another state is the model's reading (log 64). -/
def Obligations.MororTraining : Prop :=
  (∀ (s : State) (x n : Nat), s.up → x < 2 → s.mrState x = mrDetect →
    (n < 71280 ∨ 72720 < n → exec (.mrClockDetect ⟨x, n⟩) s = .next s) ∧
    (71280 ≤ n → n ≤ 72720 → ∃ t, exec (.mrClockDetect ⟨x, n⟩) s = .next t ∧ t.mrState x = mrLock ∧ (∀ y, y ≠ x → t.mp y = s.mp y) ∧
      t = { s with regs := t.regs, mr := t.mr } ∧ RegsBut [Reg.MR_STATUS x] s t)) ∧
  (∀ (s : State) (x : Nat) (foms : List Nat) (ms : List (List Nat)), s.up → x < 2 → s.mrState x = mrEq → (s.mp x).eqDone = false →
    ms = (s.mp x).foms ++ [foms] →
    ∃ t, exec (.mrEqPresetDone x foms) s = .next t ∧ t.mrState x = mrEq ∧ (t.mp x).foms = ms ∧ (∀ y, y ≠ x → t.mp y = s.mp y) ∧
      t = { s with regs := t.regs, mr := t.mr } ∧ RegsBut (Reg.MR_EQ x :: (List.range 8).map (Reg.MR_LANE x)) s t ∧
      (ms.length < 8 → (t.mp x).eqDone = false ∧ t.get (Reg.MR_EQ.RX_PRESET x) = ms.length) ∧
      (ms.length = 8 → ∃ k, k < 8 ∧ (t.mp x).eqDone = true ∧ (t.mp x).preset = some k ∧ t.get (Reg.MR_EQ.RX_PRESET x) = k ∧
        t.get (Reg.MR_EQ.RX_FOM x) = leastFom (ms.getD k []) ∧
        ∀ i, i < 8 → leastFom (ms.getD i []) ≤ leastFom (ms.getD k []) ∧
          (leastFom (ms.getD i []) = leastFom (ms.getD k []) → k ≤ i))) ∧
  (∀ (s : State) (x : Nat) (seen : List BlockSeen) (d : List Byte) (foms skews : List Nat) (ams : List (List Byte × Nat)), s.up → x < 2 →
    tsOk d → lockAfter noLock seen = true → amSkews ams = some skews →
    (s.mrState x = mrEq → (s.mp x).eqDone = true → bits (d.getD 0 0).toNat 0 4 = mrEq → bit (d.getD 1 0).toNat 7 = true →
      ∃ t, exec (.mrTsReceive x ⟨seen, d⟩ foms ams) s = .next t ∧ t.mrState x = mrDeskew ∧ MemSame s t) ∧
    (x = 0 → s.mrState 0 = mrDeskew → aligned skews = true →
      ∃ t, exec (.mrTsReceive 0 ⟨seen, d⟩ foms ams) s = .next t ∧ t.mrState 0 = mrConfig ∧ MemSame s t ∧
        ∀ l, l < 8 → t.get (Reg.MR_LANE.SKEW 0 l) = skews.getD l 0) ∧
    (x = 0 → s.mrState 0 = mrConfig → bits (d.getD 0 0).toNat 0 4 = mrConfig → (d.getD 2 0).toNat = 4 * 1 + 1 →
      ∃ t, exec (.mrTsReceive 0 ⟨seen, d⟩ foms ams) s = .next t ∧ t.mrState 0 = mrActive ∧ t.mrHost 0 = false ∧
        t.get (Reg.MR_STATUS.VERSION 0) = 1 ∧ (t.mp 0).txSeq = 0 ∧ (t.mp 0).rxSeq = 0 ∧ (t.mp 0).replay = [] ∧ MemSame s t)) ∧
  (∀ (s : State) (x : Nat), s.up → x < 2 → mrDetect ≤ s.mrState x → s.mrState x ≤ mrConfig → s.get (Reg.MR_STATUS.PARKED x) = 0 →
    (s.mp x).since + 16000000 < s.isl →
    ∃ t, exec (.mrTrainTimeout x) s = .next t ∧ t.mrState x = mrDetect ∧ (∀ y, y ≠ x → t.mp y = s.mp y) ∧ MemSame s t ∧
      RegsBut (Reg.MR_STATUS x :: evtWords) s t)

/-- Loss and repair of a link. Without a valid received clock an ACTIVE port goes to DETECT and loses its replay buffer,
credits, open SCENE block and pending requests; the loss of block lock on a lane enters RECOVERY, unless M1 has idled the
lanes, which keeps them and gives up after 20 µs (11 R268, R270, R273, R278, R293). RETRAIN leaves for DETECT and ends a
test loop, EN = 0 for DISABLED with the same losses, EN = 1 takes DISABLED to DETECT; the host's writes are ignored (11
R270, R293, R295). Under AUTO port B declares device end once port A has been out of ACTIVE for HOLD ms (11 R292). Loss of
the clock in training, and AUTO after reset, are the model's readings (log 64, log 68). -/
def Obligations.MororLoss : Prop :=
  (∀ (s : State) (x n : Nat) (seen : List (List BlockSeen)), s.up → x < 2 → s.mrState x = mrActive →
    (clockValid n = false → ∃ t, exec (.mrLinkLoss x seen n) s = .next t ∧ t.mrState x = mrDetect ∧ lostLink t x ∧
      t.get (Reg.MR_COUNT_LINK.DOWN x) = min (s.get (Reg.MR_COUNT_LINK.DOWN x) + 1) 255 ∧ MemSame s t) ∧
    (clockValid n = true → (lanesLost seen = 0 ∨ s.get (Reg.MR_STATUS.PM_RX x) = 1) → exec (.mrLinkLoss x seen n) s = .next s) ∧
    (clockValid n = true → lanesLost seen ≠ 0 → s.get (Reg.MR_STATUS.PM_RX x) ≠ 1 →
      ∃ t, exec (.mrLinkLoss x seen n) s = .next t ∧ t.mrState x = mrRecovery ∧
      (t.mp x).replay = (s.mp x).replay ∧ (t.mp x).txSeq = (s.mp x).txSeq ∧ (t.mp x).rxSeq = (s.mp x).rxSeq ∧
      (t.mp x).limit = (s.mp x).limit ∧ (t.mp x).used = (s.mp x).used ∧
      t.get (Reg.MR_COUNT_LINK.RECOVERY x) = min (s.get (Reg.MR_COUNT_LINK.RECOVERY x) + 1) 255 ∧
      (∀ y, y ≠ x → t.mp y = s.mp y) ∧ t = { s with regs := t.regs, mr := t.mr } ∧
      RegsBut [Reg.MR_STATUS x, Reg.MR_COUNT_LINK x] s t)) ∧
  (∀ (s : State) (x : Nat), s.up → x < 2 → s.mrState x = mrRecovery → (s.mp x).since + 160000 ≤ s.isl →
    ∃ t, exec (.mrRecoveryTimeout x) s = .next t ∧ t.mrState x = mrDetect ∧ lostLink t x ∧ MemSame s t) ∧
  (∀ (r : Req) (x : Nat) (v : Word) (s : State), x < 2 → s.mayWrite r (Reg.MR_CTRL x) →
    (s.actsSup r = false → exec (.mrRetrain r x v) s = .next s ∧ exec (.mrPortEnable r x v) s = .next s) ∧
    (s.actsSup r = true → bit v.toNat 0 = true →
      (∃ t, exec (.mrRetrain r x v) s = .next t ∧ t.mrState x = mrDetect ∧
        (s.mrState x = mrLoop → (t.mp x).test = none) ∧ (s.mrState x = mrActive → lostLink t x) ∧ MemSame s t) ∧
      (bit v.toNat 31 = false → bit v.toNat 30 = false → ∃ t, exec (.mrPortEnable r x v) s = .next t ∧
        t.mrState x = (if s.mrState x = mrDisabled then mrDetect else s.mrState x) ∧ t.get (Reg.MR_CTRL.EN x) = 1 ∧
        (∀ y, y ≠ x → t.mp y = s.mp y) ∧ t = { s with regs := t.regs, mr := t.mr } ∧
        RegsBut [Reg.MR_CTRL x, Reg.MR_STATUS x] s t)) ∧
    (s.actsSup r = true → bit v.toNat 0 = false → ∃ t, exec (.mrPortEnable r x v) s = .next t ∧ t.mrState x = mrDisabled ∧
      (s.mrState x = mrActive → lostLink t x) ∧ MemSame s t)) ∧
  (∀ s : State, s.up → s.roleAuto = true → s.mrState 0 ≠ mrActive →
    (s.mp 0).outAt + max 1 (s.get (Reg.MR_CTRL.HOLD 1)) * 8000000 ≤ s.isl →
    ∃ t, exec .mrRoleHoldExpiry s = .next t ∧ (t.mp 1).declare = 0 ∧ t.mp 0 = s.mp 0 ∧ MemSame s t)

/-- Replay. An LCB takes every frame up to its ACK from the replay buffer and sets the limit of its class (11 R278, R279).
When the oldest frame has waited 8 µs, every unacknowledged frame is sent again in SEQ order, and the fourth replay without
an advance of the ACK enters RECOVERY (11 R278). -/
def Obligations.MororReplay : Prop :=
  (∀ (s : State) (x : Nat) (d : List Byte), s.up → x < 2 → s.mrState x = mrActive → d.length = 7 →
    crc8 (d.take 6) = (d.getD 6 0).toNat → bit (leAt d 0 2) 12 = false → (s.mp x).m2Sent = false → (s.mp x).wait = [] → (s.mp x).regQ = [] →
    ∃ t, exec (.mrLcbReceive x d) s = .next t ∧
      (t.mp x).replay = (s.mp x).replay.filter (fun f => decide (diff12 (leAt d 0 2 % 4096) f.seq < 0)) ∧
      (leAt d 2 1 % 16 ∈ [1, 2, 3, 5, 6] → byClass (t.mp x).limit (leAt d 2 1 % 16) = leAt d 3 3) ∧
      (∀ c, c ≠ leAt d 2 1 % 16 → byClass (t.mp x).limit c = byClass (s.mp x).limit c) ∧ (t.mp x).used = (s.mp x).used ∧
      (t.mp x).txSeq = (s.mp x).txSeq ∧ t.mrState x = mrActive ∧ MemSame s t) ∧
  (∀ (s : State) (x : Nat) (f : MrFrame) (fs : List MrFrame), s.up → x < 2 → s.mrState x = mrActive → (s.mp x).replay = f :: fs →
    f.sentAt + 64000 ≤ s.isl →
    ∃ t, exec (.mrReplayTimer x) s = .next t ∧
      t.out = framesOut x (s.mp x).lane (f :: fs) ++ s.wakeOut x ++ s.out ∧
      (t.mp x).replay = (f :: fs).map (fun g => { g with sentAt := s.isl }) ∧ (t.mp x).runs = (s.mp x).runs + 1 ∧
      (t.mp x).used = (s.mp x).used ∧ t.mrState x = (if (s.mp x).runs < 3 then mrActive else mrRecovery) ∧
      t.get (Reg.MR_COUNT_LINK.REPLAY x) = min (s.get (Reg.MR_COUNT_LINK.REPLAY x) + 1) 65535 ∧
      (∀ y, y ≠ x → t.mp y = s.mp y) ∧ t = { s with regs := t.regs, mr := t.mr, out := t.out } ∧
      RegsBut [Reg.MR_STATUS x, Reg.MR_COUNT_LINK x] s t)

/-- Power states. A transmitter with nothing to send for M1_IDLE ns sends EIE and enters M1, and leaves it with 32 IDLE
blocks to send the frame that waits; the receiver leaves M1 when it regains lock on every lane (11 R273). M2_REQ stops new
frames unless the port itself would refuse M2; once every frame is acknowledged EIE with target 2 leaves; a partner's EIE
with target 2 ends in M2 unless the port refuses, and either clock that starts leads to DETECT (11 R274). What becomes of
unacknowledged frames and what ends M1 are the model's readings (log 66). Test loops. START of a near-end loop on an enabled
port enters LOOP, one of a far-end loop trains anew to request it; an ACTIVE port loses its link, and a DISABLED one starts
no test (11 R270, R275, R293). STOP, or the end of DURATION, shows the errors that the checkers of the lanes count and
returns the port to DETECT; a granted loop without data for 10 µs ends in DETECT (11 R275). Where a test ends, the patterns
and the way of counting are the model's (logs 68, 125, 130). -/
def Obligations.MororPowerAndTests : Prop :=
  ((∀ (s : State) (x : Nat), s.up → x < 2 → s.mrState x = mrActive →
     (s.get (Reg.MR_PM_CFG.M1_IDLE x) ≠ 0 → s.get (Reg.MR_STATUS.PM_TX x) = 0 → (s.mp x).wait = [] → (s.mp x).m2Want = false →
       (s.mp x).idleAt + s.get (Reg.MR_PM_CFG.M1_IDLE x) * 8 ≤ s.isl →
       ∃ t, exec (.mrM1Entry x) s = .next t ∧ t.get (Reg.MR_STATUS.PM_TX x) = 1 ∧ t.out = .blocks x none [eieBlock 1] :: s.out ∧
         t = { s with regs := t.regs, mr := t.mr, out := t.out } ∧ RegsBut [Reg.MR_STATUS x] s t) ∧
     (s.get (Reg.MR_STATUS.PM_TX x) = 1 → (s.mp x).regQ = [] →
       ((s.mp x).wait = [] → exec (.mrM1Exit x) s = .next s) ∧
       (∀ f, (s.mp x).wait = [f] → (s.mp x).mayStart f = true → f.cls ∈ [1, 2, 3, 5, 6] → (s.mp x).m2Want = false →
         ∃ t, exec (.mrM1Exit x) s = .next t ∧ t.get (Reg.MR_STATUS.PM_TX x) = 0 ∧ (t.mp x).wait = [] ∧
         t.out = framesOut x (s.mp x).lane [{ f with seq := (s.mp x).txSeq }] ++ .blocks x none (List.replicate 32 idleBlock) :: s.out ∧
         t = { s with regs := t.regs, mr := t.mr, out := t.out } ∧ RegsBut [Reg.MR_STATUS x, Reg.MR_CREDIT x f.cls] s t)) ∧
     (∀ seen : List (List BlockSeen), s.get (Reg.MR_STATUS.PM_RX x) = 1 →
       (∀ l, l < 8 → lockAfter noLock (seen.getD l []) = true) → ∃ t, exec (.mrM1LockRegain ⟨x, seen⟩) s = .next t ∧ t.get (Reg.MR_STATUS.PM_RX x) = 0 ∧ t.mrState x = mrActive ∧
         t = { s with regs := t.regs } ∧ RegsBut [Reg.MR_STATUS x] s t) ∧
     ((s.mp x).m2Want = true → (s.mp x).m2Sent = false → (s.mp x).replay = [] →
       ∃ t, exec (.mrM2EieSend x) s = .next t ∧ (t.mp x).m2Sent = true ∧ t.out = .blocks x none [eieBlock 2] :: s.wakeOut x ++ s.out ∧
         t = { s with regs := t.regs, mr := t.mr, out := t.out } ∧ RegsBut [Reg.MR_STATUS x] s t) ∧
     (∀ (d : List Byte) (refuses : Prop), d.length = 7 → crc8 (d.take 6) = (d.getD 6 0).toNat →
       (refuses ↔ s.get (Reg.MR_PM_CFG.M2_EN x) = 0 ∨ x = 0 ∧ s.clk.ref = true ∧ s.clk.state ≠ .off) →
       ((d.getD 0 0).toNat = 1 → ∃ t, exec (.mrEieReceive x d) s = .next t ∧ t.get (Reg.MR_STATUS.PM_RX x) = 1 ∧
         t = { s with regs := t.regs } ∧ RegsBut [Reg.MR_STATUS x] s t) ∧
       ((d.getD 0 0).toNat = 2 → refuses → (s.mp x).m2Sent = false → exec (.mrEieReceive x d) s = .next s) ∧
       ((d.getD 0 0).toNat = 2 → ¬ refuses → ∃ t, exec (.mrEieReceive x d) s = .next t ∧ t.mrState x = mrM2 ∧
         (t.mp x).m2Want = false ∧ (t.mp x).m2Sent = false ∧
         ((s.mp x).m2Sent = false → .blocks x none [eieBlock 2] ∈ t.out) ∧ MemSame s t ∧
         RegsBut ([Reg.MR_STATUS 0, Reg.MR_STATUS 1, Reg.MR_COUNT_DROP 0, Reg.MR_COUNT_DROP 1] ++ evtWords) s t))) ∧
   (∀ (r : Req) (x : Nat) (v : Word) (s : State), x < 2 → s.mayWrite r (Reg.MR_CTRL x) → s.actsSup r = true →
     s.mrState x = mrActive → bit v.toNat 0 = true → bit v.toNat 31 = false →
     ∃ t, exec (.m2Req r x v) s = .next t ∧ t.mp x = (if s.m2Refused x then s.mp x else { s.mp x with m2Want := true }) ∧
       t.mrState x = mrActive ∧
       t = { s with regs := t.regs, mr := t.mr } ∧ RegsBut [Reg.MR_CTRL x] s t) ∧
   (∀ (s : State) (x : Nat), s.up → x < 2 → s.mrState x = mrM2 →
     ∃ t, exec (.mrM2Exit x) s = .next t ∧ t.mrState x = mrDetect ∧ t = { s with regs := t.regs, mr := t.mr } ∧
       RegsBut [Reg.MR_STATUS x] s t)) ∧
  ((∀ (r : Req) (x : Nat) (v : Word) (s : State) (loop : Nat), x < 2 → s.mayWrite r (Reg.MR_TEST x) → s.actsSup r = true →
     loop = fieldOf v (Reg.MR_TEST.LOOP x) → loop ≠ 0 → (s.mp x).test = none →
     (s.mrState x = mrDisabled → ∃ t, exec (.mrTestStart r x v) s = .next t ∧ t = { s with regs := t.regs } ∧
       RegsBut [Reg.MR_TEST x] s t) ∧
     (s.mrState x ≠ mrDisabled → ∃ t, exec (.mrTestStart r x v) s = .next t ∧ t.mrState x = (if loop = 3 then mrDetect else mrLoop) ∧
       (t.mp x).test.map (fun k => (k.loop, k.running, k.start)) = some (loop, decide (loop ≠ 3), s.isl) ∧
       (∀ l, l < 8 → t.get (Reg.MR_LANE.TEST_ERR x l) = 0) ∧ (s.mrState x = mrActive → lostLink t x) ∧ MemSame s t)) ∧
   (∀ (x : Nat) (s : State) (k : MrTest) (rx : List (List Bool)) (i : Instr), s.up → x < 2 → (s.mp x).test = some k → s.mrState x = mrLoop →
     ((∃ (r : Req) (v : Word), i = .mrTestStop r x v rx ∧ s.mayWrite r (Reg.MR_TEST x) ∧ s.actsSup r = true ∧ bit v.toNat 31 = false) ∨
       i = .mrTestDurationEnd x rx ∧ s.get (Reg.MR_TEST.DURATION x) ≠ 0 ∧ k.running = true ∧
         k.start + s.get (Reg.MR_TEST.DURATION x) * 8000000 ≤ s.isl) →
     ∃ t, exec i s = .next t ∧ t.mrState x = mrDetect ∧ (t.mp x).test = none ∧
       (∀ l, l < 8 → t.get (Reg.MR_LANE.TEST_ERR x l) = min 65535 (laneErrors k.pattern (rx.getD l []))) ∧ (∀ y, y ≠ x → t.mp y = s.mp y) ∧ MemSame s t ∧
       RegsBut ([Reg.MR_TEST x, Reg.MR_STATUS x] ++ (List.range 8).map (Reg.MR_LANE x) ++ evtWords) s t) ∧
   (∀ (s : State) (x : Nat), s.up → x < 2 → s.mrState x = mrLoop → (s.mp x).granted = true → (s.mp x).since + 80000 ≤ s.isl →
     ∃ t, exec (.mrLoopExit x) s = .next t ∧ t.mrState x = mrDetect ∧ (t.mp x).granted = false ∧
       t = { s with regs := t.regs, mr := t.mr } ∧ RegsBut [Reg.MR_STATUS x] s t))

/-! The classes of the Moror link (11). -/

/-- SCENE frames. A frame in order joins the open block of its port; a block whose last frame completes 24 + PAYLOAD_LEN
bytes goes to the end of the input ring, whose bytes lie in HBM (12 R301; their place in the region is the model's choice,
log 119); a frame with FIRST = 0 and no open block, or a byte count that differs, drops the block and counts it (11 R282). A
frame with a wrong CRC is counted and answered with a NAK, and one that is cut short or of a wrong length is discarded (11
R277, R278; that no NAK answers it is the model's reading, log 138). CTRL records. A WRITE of one shadow word writes it as
HOST; one of a word that a record may not address is skipped and answered with ADDRESS. COMMIT acts as a GO of HOST and
answers with the SEQ, CANCEL acts as DECK_COMMIT.CANCEL of HOST, MARK answers with its VALUE (11 R283, R286). A frame in
order with one MARK record does the same; a frame with a SEQ ahead is discarded with a NAK (11 R278, R283). The words that a
record may address are those of log 74. -/
def Obligations.SceneAndCtrl : Prop :=
  (∀ (s : State) (x seq : Nat) (first last : Bool) (d b : List Byte) (e : RxEnd), s.up →
     (s.expects x 1 seq d.length false → frameWhole e 1 seq first last d → s.hbmServes →
       (first = true ∧ (s.mp x).scene = none ∧ b = d ∨ first = false ∧ ∃ o, (s.mp x).scene = some o ∧ b = o ++ d) →
       ∃ t, exec (.sceneFrameReceive x seq first last d e) s = .next t ∧ (t.mp x).rxSeq = (seq + 1) % 4096 ∧
         t.deck = s.deck ∧ t.layers = s.layers ∧
         (last = false → (t.mp x).scene = some b ∧ t.nec = s.nec ∧ MemSame s t) ∧
         (last = true → 24 ≤ b.length → b.length = 24 + (necHdr b).len →
           (t.mp x).scene = none ∧
           t.nec = { s.nec with ring := s.nec.ring ++ [(⟨b.take 24, b.length, s.ringPlace b.length, false⟩ : NecBlock)] } ∧
           (∀ a, (∀ y ∈ s.ringPlace b.length, ∀ i, i < y.2 → a ≠ (y.1 + i) % hbmSize) → t.hbmByte a = s.hbmByte a) ∧
           (((s.ringPlace b.length).map (·.2)).sum = b.length → (∀ y ∈ s.ringPlace b.length, y.1 + y.2 ≤ hbmSize) →
             t.readSpans (s.ringPlace b.length) = some b) ∧
           (∀ a, t.tcmByte a = s.tcmByte a) ∧ ∀ a, ¬ inLog a → t.mramByte a = s.mramByte a) ∧
         (last = true → b.length < 24 ∨ b.length ≠ 24 + (necHdr b).len →
           (t.mp x).scene = none ∧ t.nec = s.nec ∧ MemSame s t ∧
           t.get (Reg.MR_COUNT_DROP.SCENE_BAD x) = min (s.get (Reg.MR_COUNT_DROP.SCENE_BAD x) + 1) 65535)) ∧
     (s.expects x 1 seq d.length false → frameWhole e 1 seq first last d → first = false → (s.mp x).scene = none →
       ∃ t, exec (.sceneFrameReceive x seq first last d e) s = .next t ∧ t.nec = s.nec ∧ (t.mp x).scene = none ∧
         t.get (Reg.MR_COUNT_DROP.SCENE_BAD x) = min (s.get (Reg.MR_COUNT_DROP.SCENE_BAD x) + 1) 65535 ∧ MemSame s t) ∧
     (x < 2 → s.mrState x = mrActive → (s.mp x).m2Sent = false →
       (e.cut = false → e.crc ≠ crc32 (sofBytes 1 first last d.length seq ++ d) → (s.mp x).nak = none →
         ∃ t, exec (.sceneFrameReceive x seq first last d e) s = .next t ∧ (t.mp x).rxSeq = (s.mp x).rxSeq ∧
         (t.mp x).scene = (s.mp x).scene ∧ (t.mp x).nak = some ((s.mp x).rxSeq, s.isl) ∧
         t.get (Reg.MR_COUNT_CRC.CRC x) = min (s.get (Reg.MR_COUNT_CRC.CRC x) + 1) 65535 ∧
         t.get (Reg.MR_COUNT_CRC.NAK x) = min (s.get (Reg.MR_COUNT_CRC.NAK x) + 1) 65535 ∧
         t = { s with regs := t.regs, mr := t.mr, out := t.out } ∧ RegsBut [Reg.MR_STATUS x, Reg.MR_COUNT_CRC x] s t) ∧
       (e.cut = true ∨ e.crc = crc32 (sofBytes 1 first last d.length seq ++ d) ∧
           (e.blocks ≠ ceilDiv d.length 8 ∨ lenOk 1 d.length = false) →
         exec (.sceneFrameReceive x seq first last d e) s = .next s))) ∧
  ((∀ (s : State) (x a : Nat) (v : Word), s.up → x < 2 → s.upstream x = true →
     (a / 2 ^ 24 = 0x11 ∨ a / 2 ^ 24 = 0x13 ∨ a / 2 ^ 24 = 0x15 → ctrlAddr a = true →
       ∃ t, exec (.write x a [v]) s = .next t ∧ t.rd a = mergeBits (s.rd a) v (rwsMask a) ∧
         t.dirty.get clean a = some .host ∧ (∀ b, b ≠ a → t.dirty.get clean b = s.dirty.get clean b) ∧ t.act = s.act ∧
         RegsBut (a :: evtWords) s t ∧ MemSame s t ∧ t.mr = s.mr) ∧
     (ctrlAddr a = false → ∀ item, item = telemItem 2 0xFFFF (leBytes 1 1 ++ leBytes 1 3 ++ leBytes 2 0 ++ leBytes 4 0) →
       s.canSend x 5 item → ∃ t, exec (.write x a [v]) s = .next t ∧ t.out = s.frameOut x 5 true true item :: s.out ∧
         t = { s with regs := t.regs, mr := t.mr, out := t.out } ∧ RegsBut [Reg.MR_STATUS x, Reg.MR_CREDIT x 5] s t)) ∧
   (∀ (s : State) (x tag target : Nat) (timed : Bool) (u : State), s.up → x < 2 → s.upstream x = true → target < 2 ^ 48 →
     u = s.commitGo .host tag (if timed then some target else none) →
     ∀ item, item = telemItem 2 0xFFFF
         (leBytes 1 2 ++ leBytes 1 0 ++ leBytes 2 (u.get Reg.DECK_COMMIT_SEQ.LAST) ++ leBytes 4 (tag % 256)) →
       s.canSend x 5 item → ∃ t, exec (.commit x tag timed target) s = .next t ∧ t.out = s.frameOut x 5 true true item :: u.out ∧
         t = { u with regs := t.regs, mr := t.mr, out := t.out } ∧ RegsBut [Reg.MR_STATUS x, Reg.MR_CREDIT x 5] u t) ∧
   (∀ (s : State) (x : Nat) (v : Word), s.up → x < 2 → s.upstream x = true → s.mayWrite .portA Reg.DECK_COMMIT →
     s.actsSup .portA = false → exec (.cancel x) s = exec (.deckCommitCancel .portA v) s) ∧
   (∀ (s : State) (x v : Nat), s.up → x < 2 → s.upstream x = true →
     ∀ item, item = telemItem 2 0xFFFF (leBytes 1 4 ++ leBytes 1 0 ++ leBytes 2 0 ++ leBytes 4 v) → s.canSend x 5 item →
       (∃ t, exec (.mark x v) s = .next t ∧ t.out = s.frameOut x 5 true true item :: s.out ∧ (t.mp x).txSeq = ((s.mp x).txSeq + 1) % 4096 ∧
         (t.mp x).replay = (s.mp x).replay ++ [⟨5, true, true, (s.mp x).txSeq, item, s.isl⟩] ∧
         t = { s with regs := t.regs, mr := t.mr, out := t.out } ∧ RegsBut [Reg.MR_STATUS x, Reg.MR_CREDIT x 5] s t) ∧
       (∀ seq d e, d = leBytes 1 4 ++ leBytes 1 1 ++ leBytes 2 0 ++ leBytes 4 v → s.expects x 2 seq 8 false → frameWhole e 2 seq true true d →
         ∃ t, exec (.ctrlFrameReceive x seq d e) s = .next t ∧ s.sends t x 5 true true item ∧ (t.mp x).rxSeq = (seq + 1) % 4096 ∧
           t = { s with regs := t.regs, mr := t.mr, out := t.out } ∧ RegsBut [Reg.MR_STATUS x, Reg.MR_CREDIT x 5] s t)) ∧
   (∀ (s : State) (x seq : Nat) (d : List Byte) (e : RxEnd), s.up → x < 2 → s.mrState x = mrActive → (s.mp x).m2Sent = false →
     frameWhole e 2 seq true true d → lenOk 2 d.length = true → 0 < diff12 seq (s.mp x).rxSeq → (s.mp x).nak = none →
     ∃ t, exec (.ctrlFrameReceive x seq d e) s = .next t ∧ (t.mp x).rxSeq = (s.mp x).rxSeq ∧
       t.get (Reg.MR_COUNT_CRC.NAK x) = min (s.get (Reg.MR_COUNT_CRC.NAK x) + 1) 65535 ∧
       t = { s with regs := t.regs, mr := t.mr, out := t.out } ∧ RegsBut [Reg.MR_STATUS x, Reg.MR_COUNT_CRC x] s t))

/-- REG requests of one word on a device end. A READ of a layer register that the port may read answers with its word; a
WRITE of a comb shadow that it may write writes it and then answers; a word that it may not access completes nothing, and
STATUS tells why (11 R284, R285). The order of the reasons is the model's (log 118). The rights of a port are those of log
72 and log 73. -/
def Obligations.RegRequests : Prop :=
  (∀ (s : State) (x seq tag a : Nat) (e : RxEnd) (f : HbmFind), s.up → s.expects x 3 seq 12 false → (s.mp x).regQ = [] →
    a < 2 ^ 32 → tag < 65536 → frameWhole e 3 seq true true (regRequest 1 tag 1 a []) →
    (a / 2 ^ 24 = 0x12 → isActiveView a = false → s.mayRead (portReq x) a →
      s.canSend x 3 (regResponse 1 0 tag 1 a [s.rd a]) →
      ∃ t, exec (.read x seq tag 1 a e f) s = .next t ∧ s.sends t x 3 true true (regResponse 1 0 tag 1 a [s.rd a]) ∧
        (t.mp x).regQ = [] ∧ t = { s with regs := t.regs, mr := t.mr, out := t.out } ∧
        RegsBut [Reg.MR_STATUS x, Reg.MR_CREDIT x 3] s t) ∧
    (∀ c, s.refusal (portReq x) a false = c → c ≠ accOk → regionOf a ≠ .hbm → s.canSend x 3 (regResponse 1 c tag 0 a []) →
      ∃ t, exec (.read x seq tag 1 a e f) s = .next t ∧ s.sends t x 3 true true (regResponse 1 c tag 0 a []) ∧
        t = { s with regs := t.regs, mr := t.mr, out := t.out } ∧ RegsBut [Reg.MR_STATUS x, Reg.MR_CREDIT x 3] s t)) ∧
  (∀ (s : State) (x seq tag a : Nat) (v : Word) (e : RxEnd), s.up → s.expects x 3 seq 16 false → (s.mp x).regQ = [] →
    a < 2 ^ 32 → tag < 65536 → frameWhole e 3 seq true true (regRequest 2 tag 1 a [v]) →
    (a / 2 ^ 24 = 0x13 → rwsMask a ≠ 0 → isActiveView a = false → s.mayWrite (portReq x) a →
      s.canSend x 3 (regResponse 2 0 tag 1 a []) →
      ∃ t, exec (.regWrite x seq tag a [v] e) s = .next t ∧ s.sends t x 3 true true (regResponse 2 0 tag 1 a []) ∧
        t.rd a = mergeBits (s.rd a) v (rwsMask a) ∧ t.dirty.get clean a = some (s.writerOf (portReq x)) ∧ t.act = s.act ∧
        MemSame s t ∧ RegsBut ([a, Reg.MR_STATUS x, Reg.MR_CREDIT x 3] ++ evtWords) s t) ∧
    (∀ c, s.refusal (portReq x) a true = c → c ≠ accOk → regionOf a ≠ .hbm → s.canSend x 3 (regResponse 2 c tag 0 a []) →
      ∃ t, exec (.regWrite x seq tag a [v] e) s = .next t ∧ s.sends t x 3 true true (regResponse 2 c tag 0 a []) ∧
        t = { s with regs := t.regs, mr := t.mr, out := t.out } ∧ RegsBut [Reg.MR_STATUS x, Reg.MR_CREDIT x 3] s t))

/-- The relay. The inner frame of a RELAY frame on port A is sent on port B while that is host end and ACTIVE, and dropped
and counted otherwise (11 R288, R289). A frame other than TIME that arrives on port B as host end is wrapped and sent on
port A, TELEM of a tile, taken at the TURN of its burst, and events go to the upstream port (11 R286, R289). What the relay
drops beside R288 is the model's reading (log 75). -/
def Obligations.RelayAndTelem : Prop :=
  (∀ (s : State) (seq c n : Nat) (f l : Bool) (inner : List Byte) (e : RxEnd), s.up → s.upstream 0 = true → c ∈ [1, 2, 3, 5] →
    n = inner.length → s.expects 0 6 seq (n + 8) false → n < 1024 → frameWhole e 6 seq true true (relayWrap c f l inner) →
    (s.mrHost 1 = true → s.canSend 1 c inner →
      ∃ t, exec (.relayFrameReceive 0 seq (relayWrap c f l inner) e) s = .next t ∧ s.sends t 1 c f l inner ∧
        (t.mp 0).rxSeq = (seq + 1) % 4096 ∧ (t.mp 1).replay = (s.mp 1).replay ++ [⟨c, f, l, (s.mp 1).txSeq, inner, s.isl⟩] ∧
        t = { s with regs := t.regs, mr := t.mr, out := t.out } ∧
        RegsBut [Reg.MR_STATUS 0, Reg.MR_STATUS 1, Reg.MR_CREDIT 1 c] s t) ∧
    (s.mrState 1 ≠ mrActive →
      ∃ t, exec (.relayFrameReceive 0 seq (relayWrap c f l inner) e) s = .next t ∧ (t.mp 0).rxSeq = (seq + 1) % 4096 ∧
        (t.mp 1).wait = (s.mp 1).wait ∧
        t.get (Reg.MR_COUNT_DROP.RELAY 0) = min (s.get (Reg.MR_COUNT_DROP.RELAY 0) + 1) 255 ∧ MemSame s t)) ∧
  (∀ (s : State) (seq c : Nat) (f l : Bool) (d : List Byte) (e : RxEnd), s.up → s.mrHost 1 = true →
    s.expects 1 c seq d.length (bit (leAt d 0 1) 7) → c ≠ 4 → c ≠ 6 → frameWhole e c seq f l d →
    d.length < 1024 → s.upstream 0 = true → s.canSend 0 6 (relayWrap c f l d) →
    ∃ t, exec (.portBFrameReceive c seq f l d e) s = .next t ∧ s.sends t 0 6 true true (relayWrap c f l d) ∧
      (t.mp 1).rxSeq = (seq + 1) % 4096 ∧ t = { s with regs := t.regs, mr := t.mr, out := t.out } ∧
      RegsBut [Reg.MR_STATUS 0, Reg.MR_STATUS 1, Reg.MR_CREDIT 0 6] s t) ∧
  (∀ (s : State) (p kind x : Nat) (w : Win) (seen : List BlockSeen) (b d item : List Byte) (rx : List Bool), s.inBurst p w [.tile kind d] →
    turnGood seen b → (s.pr p).test = none → s.pierState p ≠ 1 → 0x80 ≤ kind → kind ≤ 0xFF →
    s.upPort = some x → item = telemItem 3 p (leBytes 1 kind ++ leBytes 3 0 ++ padWord d) → s.canSend x 5 item →
    ∃ t, exec (.reverseTurnReceive p ⟨seen, b⟩ rx) s = .next t ∧ t.out.head? = some (s.frameOut x 5 true true item) ∧
      (∀ q c, t.waiting q c = s.waiting q c) ∧
      t = { s with regs := t.regs, piers := t.piers, vdt := t.vdt, mr := t.mr, out := t.out } ∧
      RegsBut [Reg.PIER_STATUS p, Reg.MR_STATUS x, Reg.MR_CREDIT x 5] s t) ∧
  (∀ (s : State) (r : EvRec) (rs : List EvRec) (x : Nat), s.up → s.evt.hostQ = r :: rs → s.upPort = some x →
    s.canSend x 5 (telemItem 1 0xFFFF r.bytes) →
    ∃ t, exec .eventHostSend s = .next t ∧ t.out = s.frameOut x 5 true true (telemItem 1 0xFFFF r.bytes) :: s.out ∧
      t.evt = { s.evt with hostQ := rs } ∧ t = { s with regs := t.regs, mr := t.mr, evt := t.evt, out := t.out } ∧
      RegsBut [Reg.MR_STATUS x, Reg.MR_CREDIT x 5] s t)

/-! The HBM controller (12). -/

/-- The upkeep of HBM in operation. A refresh that falls due is issued with every one behind it, unless a level-0 request
waits for its bank: then it falls behind, and never more than 8 do; the bank rotates over 32, and each refresh closes its
bank (R304, R305). A request that has waited is raised by one level, and the scrubber's not above level 2 (R302). The
temperature report halves tREFI from 85 °C and restores it below 82 °C (R306). Self-refresh is entered with SR_EN = 1 after
SR_IDLE µs without a request: every bank is precharged, and the PHY's clock stops; it is left on a request (R307, R308). A
scrub step opens the row of its burst and moves on by 32 bytes. A clean burst, and one whose parity error the repeat
repairs, change nothing else. Damage that a codeword reaches is corrected, written back and counted, other damage fails the
pseudo-channel with cause 1, and a second parity error fails it with cause 2 (R312 to R315). The damage a read finds comes
as an operand (log 22); which symbol of the codeword a byte is, and that the entry into self-refresh is one step, are the
model's choices (logs 115, 116). -/
def Obligations.HbmUpkeep : Prop :=
  (∀ (pc : Nat) (busy : Bool) (s : State), s.up → pc < 16 → s.get Reg.HBM_STATUS.STATE = 3 →
    s.hc.behind.get (fun _ => 0) pc < 8 → ∃ t, exec (.hbmRefresh pc busy) s = .next t ∧
      t.hc.behind.get (fun _ => 0) pc = (if busy then min 7 (s.hc.behind.get (fun _ => 0) pc + 1) else 0) ∧
      t.hc.refBank.get (fun _ => 0) pc = (s.hc.refBank.get (fun _ => 0) pc
        + (if busy then (if s.hc.behind.get (fun _ => 0) pc = 7 then 1 else 0) else s.hc.behind.get (fun _ => 0) pc + 1)) % 32 ∧
      (∀ q, q ≠ pc → t.hc.behind.get (fun _ => 0) q = s.hc.behind.get (fun _ => 0) q ∧
        t.hc.refBank.get (fun _ => 0) q = s.hc.refBank.get (fun _ => 0) q) ∧
      (s.hc.refBank.get (fun _ => 0) pc < 32 → ∀ b, b < 32 → t.openRow (32 * pc + b) =
        if (b + 32 - s.hc.refBank.get (fun _ => 0) pc) % 32
          < (if busy then (if s.hc.behind.get (fun _ => 0) pc = 7 then 1 else 0) else s.hc.behind.get (fun _ => 0) pc + 1)
        then none else s.openRow (32 * pc + b)) ∧
      (s.hc.refBank.get (fun _ => 0) pc < 32 → ∀ b, b < 32 * pc ∨ 32 * pc + 32 ≤ b → t.openRow b = s.openRow b) ∧
      t = { s with hc := { s.hc with behind := t.hc.behind, refBank := t.hc.refBank, rows := t.hc.rows } }) ∧
  (∀ (src : Nat) (s : State), s.up → src ≤ 11 → ∃ t, exec (.hbmRequestAging src) s = .next t ∧
      t.waitLevel src = (if src = 10 then min 2 (s.waitLevel src) else s.waitLevel src - 1) ∧
      (∀ q, q ≠ src → t.waitLevel q = s.waitLevel q) ∧ t = { s with hc := { s.hc with aged := t.hc.aged } }) ∧
  (∀ (x : Nat) (s : State), s.up → 3 ≤ s.get Reg.HBM_STATUS.STATE → x < 256 → ∃ t, exec (.hbmTempRead x) s = .next t ∧
      t.get Reg.HBM_TEMP.TEMP = x ∧ t.get Reg.HBM_TEMP.VALID = 1 ∧
      t.get Reg.HBM_STATUS.HOT = (if 85 ≤ signed 8 x then 1 else if signed 8 x < 82 then 0 else s.get Reg.HBM_STATUS.HOT) ∧
      t.get Reg.HBM_STATUS.STATE = s.get Reg.HBM_STATUS.STATE ∧ t.hc = s.hc ∧
      RegsBut ([Reg.HBM_TEMP, Reg.HBM_STATUS] ++ evtWords) s t ∧ MemSame s t) ∧
  (∀ (s : State), s.up → s.get Reg.HBM_STATUS.STATE = 3 → s.get Reg.HBM_PM_CFG.SR_EN = 1 →
    (s.isl < s.hc.lastReq + 8000 * max 1 (s.get Reg.HBM_PM_CFG.SR_IDLE) → exec .hbmSrEntry s = .next s) ∧
    (s.hc.lastReq + 8000 * max 1 (s.get Reg.HBM_PM_CFG.SR_IDLE) ≤ s.isl →
      ∃ t, exec .hbmSrEntry s = .next t ∧ t.get Reg.HBM_STATUS.STATE = 4 ∧
        t.hc = { s.hc with rows := [], srAt := s.isl, phyOff := true } ∧
        RegsBut (Reg.HBM_STATUS :: evtWords) s t ∧ MemSame s t)) ∧
  (∀ (s : State), s.up → s.get Reg.HBM_STATUS.STATE = 4 →
    ∃ t, exec .hbmSrExit s = .next t ∧ t.get Reg.HBM_STATUS.STATE = 3 ∧ t.hc = { s.hc with phyOff := false } ∧
      RegsBut (Reg.HBM_STATUS :: evtWords) s t ∧ MemSame s t) ∧
  (∀ (f : HbmFind) (s : State), s.up → s.get Reg.HBM_STATUS.STATE = 3 → s.get Reg.HBM_SCRUB_CFG.EN = 1 →
    ∃ t, exec (.hbmScrub f) s = .next t ∧
      t.hc.scrubPos = (if s.hc.scrubPos + 32 < hbmSize then s.hc.scrubPos + 32 else 0) ∧
      t.get Reg.HBM_SCRUB_STATUS.PASSES = (s.get Reg.HBM_SCRUB_STATUS.PASSES
        + if s.hc.scrubPos + 32 < hbmSize then 0 else 1) % 2 ^ 16 ∧
      (s.hc.scrubPos % 32 = 0 → s.hc.scrubPos < hbmSize →
        t.openRow (s.bankKey s.hc.scrubPos) = some (hbmRow s.hc.scrubPos)) ∧
      (∀ a, t.tcmByte a = s.tcmByte a) ∧ (∀ a, ¬ inLog a → t.mramByte a = s.mramByte a) ∧
      (f = .clean ∨ f = .parity false ∨ s.hbmFailed s.hc.scrubPos = true → MemSame s t ∧ RegsBut [Reg.HBM_SCRUB_STATUS] s t) ∧
      (f = .parity true → s.hbmFailed s.hc.scrubPos = false → MemSame s t ∧ t.deck.hbmCause = true ∧
        t.get (Reg.HBM_PC_STATUS.CAUSE (s.hbmPc s.hc.scrubPos)) = 2 ∧ t.hbmFailed s.hc.scrubPos = true ∧
        t.get (Reg.HBM_PC_STATUS.FAILED (s.hbmPc s.hc.scrubPos)) = 1) ∧
      (∀ errs, f = .damaged errs → rsDecode (s.damaged s.hc.scrubPos errs) = none → s.hbmFailed s.hc.scrubPos = false →
        MemSame s t ∧ t.deck.hbmCause = true ∧ t.get (Reg.HBM_PC_STATUS.CAUSE (s.hbmPc s.hc.scrubPos)) = 1 ∧
        t.hbmFailed s.hc.scrubPos = true ∧ t.get (Reg.HBM_PC_STATUS.FAILED (s.hbmPc s.hc.scrubPos)) = 1) ∧
      (∀ errs w n, f = .damaged errs → rsDecode (s.damaged s.hc.scrubPos errs) = some (w, n) →
        s.hbmFailed s.hc.scrubPos = false → t.hbmFailed s.hc.scrubPos = false ∧
        (∀ i, i < 32 → t.hbmByte (burstOf s.hc.scrubPos + i) = byte (w.getD i 0)) ∧
        (∀ a, a < burstOf s.hc.scrubPos ∨ burstOf s.hc.scrubPos + 32 ≤ a → t.hbmByte a = s.hbmByte a) ∧
        t.get (Reg.HBM_PC_ECC.CORR (s.hbmPc s.hc.scrubPos)) = min (s.get (Reg.HBM_PC_ECC.CORR (s.hbmPc s.hc.scrubPos))
          + if n = 0 then 0 else 1) 65535))

/-- The training of HBM. HBM_GO of the released supervisor starts phase 6, and the training once the ADPLL is LOCKED (16
R394). A setting works whose least eye is at least MIN_EYE, and at least 1. When training and wipe are complete, every byte
of every pseudo-channel that works reads 0 but those of a store that waited, the others are failed, and phase 7 starts
(R309, R317). A write of HBM_TRAIN_REQ by the supervisor makes the named pseudo-channels due and no other (R310). A pause
closes the rows of the pseudo-channel that is next, issues the refreshes it is behind and retrains it (R304): a setting that
works is counted and clears MARGINAL; without one it stays due, and after the third failed retry it is MARGINAL and no
longer due (R311). -/
def Obligations.HbmTraining : Prop :=
  (∀ (r : Req) (v : Word) (s : State), s.up → s.mayWrite r Reg.SYS_BOOT_CTRL → s.actsSup r = true → s.sup.released = true →
    s.get Reg.HBM_STATUS.STATE = 0 → s.boot.hbmWait = false → s.pwr.stageOff.contains 2 = false →
    ∃ t, exec (.hbmGo r v) s = .next t ∧ t.get Reg.SYS_BOOT_CTRL.RESCUE_NEXT = bits v.toNat 30 1 ∧
      t.get Reg.SYS_BOOT_STATUS.PHASE = (if s.boot.rescue then s.get Reg.SYS_BOOT_STATUS.PHASE else 6) ∧
      (s.clk.state = .locked → t.get Reg.HBM_STATUS.STATE = 1 ∧ t.boot = s.boot) ∧
      (s.clk.state ≠ .locked → t.get Reg.HBM_STATUS.STATE = 0 ∧ t.boot = { s.boot with hbmWait := true }) ∧
      t = { s with regs := t.regs, boot := t.boot } ∧
      RegsBut [Reg.SYS_BOOT_CTRL, Reg.SYS_BOOT_STATUS, Reg.HBM_STATUS] s t) ∧
  (∀ (eyes : List Nat) (us : Nat) (s : State), s.up → s.get Reg.HBM_STATUS.STATE = 1 ∨ s.get Reg.HBM_STATUS.STATE = 2 →
    (s.mp 0).regQ = [] → (s.mp 1).regQ = [] → s.nec.playReq = false →
    s.blt.cur.isSome = true ∨ s.get Reg.BLT_CTRL.EN = 0 ∨ s.get Reg.BLT_Q_HEAD.HEAD = s.get Reg.BLT_Q_TAIL.TAIL →
    s.hc.waiting.length ≤ 1 → (∀ q ∈ s.hc.waiting, q.addr + q.data.length ≤ hbmSize) → us < 2 ^ 32 →
    ∃ t, exec (.hbmWipeDone eyes us) s = .next t ∧ t.get Reg.HBM_STATUS.STATE = 3 ∧ t.get Reg.HBM_WIPE_TIME.US = us ∧
      t.get Reg.SYS_BOOT_STATUS.PHASE = (if s.boot.rescue then s.get Reg.SYS_BOOT_STATUS.PHASE else 7) ∧ t.hc.waiting = [] ∧
      (∀ pc, pc < 16 → bit (t.get Reg.HBM_STATUS.FAILED) pc = (bit (s.get Reg.HBM_STATUS.FAILED) pc
        || decide (eyes.getD pc 0 < max 1 (s.get Reg.HBM_TRAIN_CFG.MIN_EYE)))) ∧
      (∀ q ∈ s.hc.waiting, ∀ i, i < q.data.length → t.hbmFailed (q.addr + i) = false →
        t.hbmByte (q.addr + i) = q.data.getD i 0) ∧
      (∀ a, t.hbmFailed a = false → (∀ q ∈ s.hc.waiting, a < q.addr ∨ q.addr + q.data.length ≤ a) → t.hbmByte a = 0) ∧
      t.tcm = s.tcm) ∧
  (∀ (r : Req) (v : Word) (s : State), s.mayWrite r Reg.HBM_TRAIN_REQ → s.actsSup r = true →
    ∃ t, exec (.hbmTrainReq r v) s = .next t ∧
      (∀ pc, pc < 16 → t.hc.due.get (fun _ => none) pc
        = if bit v.toNat pc = true ∧ s.hc.due.get (fun _ => none) pc = none then some 3 else s.hc.due.get (fun _ => none) pc) ∧
      t = { s with hc := { s.hc with due := t.hc.due, fails := t.hc.fails } }) ∧
  (∀ (pc eye : Nat) (s : State), s.up → s.get Reg.HBM_STATUS.STATE = 3 → s.get Reg.HBM_TRAIN_CFG.EN = 1 →
    s.pauseDue = true → s.trainTriggers.trainNext = some pc →
    ∃ t, exec (.hbmRetrainPause eye) s = .next t ∧ MemSame s t ∧
      (∀ b, b < 32 → t.openRow (32 * pc + b) = none) ∧ t.hc.behind.get (fun _ => 0) pc = 0 ∧
      (max 1 (s.get Reg.HBM_TRAIN_CFG.MIN_EYE) ≤ eye → t.get (Reg.HBM_PC_STATUS.MARGINAL pc) = 0 ∧ t.get (Reg.HBM_PC_STATUS.RETRIES pc) = 0 ∧
        t.get (Reg.HBM_PC_STATUS.TRAINS pc) = min (s.get (Reg.HBM_PC_STATUS.TRAINS pc) + 1) 65535 ∧
        t.hc.due.get (fun _ => none) pc = none ∧ RegsBut [Reg.HBM_PC_STATUS pc] s t) ∧
      (eye < max 1 (s.get Reg.HBM_TRAIN_CFG.MIN_EYE) → s.trainTriggers.hc.fails.get (fun _ => 0) pc < 3 →
        t.hc.due.get (fun _ => none) pc = s.trainTriggers.hc.due.get (fun _ => none) pc ∧
        t.hc.fails.get (fun _ => 0) pc = s.trainTriggers.hc.fails.get (fun _ => 0) pc + 1 ∧
        t.get (Reg.HBM_PC_STATUS.MARGINAL pc) = s.get (Reg.HBM_PC_STATUS.MARGINAL pc)) ∧
      (eye < max 1 (s.get Reg.HBM_TRAIN_CFG.MIN_EYE) → s.trainTriggers.hc.fails.get (fun _ => 0) pc = 3 →
        t.hc.due.get (fun _ => none) pc = none ∧ t.get (Reg.HBM_PC_STATUS.MARGINAL pc) = 1 ∧
        t.get (Reg.HBM_PC_STATUS.RETRIES pc) = 3))

/-! Start-up, resets and the life cycle (16). -/

/-- A power-on reset, SYSRST_N and SYS_RESET with its key, while no life-cycle operation is pending. MRAM, fuses and flash
are kept; every memory and queue is cleared, the Deck is in HOLD without a frame, the registers of the render blocks have
their reset values, FS_FAULT_N is asserted and THERM_TRIP_N cleared, a codec job, a blit and rescue programming are lost,
and start-up is in phase 1, or stopped after the fuse read in the start mode hold. A power-on reset leaves the rails of
stage 1, a system reset the rails as they are, and RESCUE_NEXT (R393, R394, R398, R400, 01 R20). No page of Keystone is
active (07 R189). That the queue of commands outlasts a reset is the model's choice (log 2). -/
def Obligations.Resets : Prop :=
  ∀ (r : Req) (v : Word) (e : BootIn) (c : Instr) (s : State), s.boot.lcRec.op = 0 →
    (c = .powerOnReset e ∨ c = .sysrstPin e ∨ (c = .sysrst r v e ∧ s.mayWrite r Reg.SYS_RESET ∧ bits v.toNat 16 16 = 0x5A17 ∧
      bit v.toNat 0 = true ∧ (r = .sup ∨ ((r = .portA ∨ r = .portB) ∧ (s.boot.lc = .test ∨ s.boot.lc = .service))))) →
    ∃ t, exec c s = .next t ∧ t.mram = s.mram ∧ t.boot.fuses = s.boot.fuses ∧ t.boot.flash = s.boot.flash ∧
      t.boot.lc = resolveLc s.boot.fuses s.boot.lcRec ∧ t.pending = s.pending ∧ t.hbm = [] ∧ t.tcm = [] ∧ t.deck = resetDeck ∧
      t.evt.eseq = 0 ∧ t.evt.supQ = [] ∧ t.evt.hostQ = [] ∧ t.nec = State.reset.nec ∧ t.blt.cur = none ∧ t.boot.prog = none ∧
      t.sup.released = false ∧ t.thm.sensor = 0 ∧ t.fs.faultLow = true ∧ t.fs.thermTrip = false ∧ t.act = [] ∧ t.dirty = [] ∧
      (∀ a, a / 2 ^ 24 ∈ [0x11, 0x12, 0x13, 0x14, 0x15, 0x16, 0x17, 0x18, 0x1A, 0x1B, 0x1C, 0x1D] → a ≠ Reg.KEY_STATUS →
        t.rd a = resetWord a) ∧ t.get Reg.KEY_STATUS.ACTIVE = 0 ∧
      (c = .powerOnReset e → t.pwr.on = [0, 1] ∧ t.rd Reg.SYS_RESET_CAUSE = 1 ∧
        t.get Reg.SYS_BOOT_STATUS.PHASE = if startMode e.mode false = 4 then 11 else 1) ∧
      (c ≠ .powerOnReset e → t.pwr.on = s.pwr.on ∧
        t.get Reg.SYS_BOOT_CTRL.RESCUE_NEXT = s.get Reg.SYS_BOOT_CTRL.RESCUE_NEXT ∧
        t.rd Reg.SYS_RESET_CAUSE = (if c = .sysrstPin e then 2 else if r = .sup then 4 else 8) ∧
        t.get Reg.SYS_BOOT_STATUS.PHASE
          = if startMode e.mode (s.flag Reg.SYS_BOOT_CTRL.RESCUE_NEXT) = 4 then 11 else 1)

/-- The end of phase 4. With a slot that passes R390 the supervisor is released into phase 5 and the watchdog starts; in the
start mode RESCUE, and when no slot passes, the rescue firmware runs in phase 9, and in RETIRED in phase 10, with port A
enabled. The events that arose before are posted now (R390, R392 to R394, R405, 15 R381). SHA-384 and ECDSA are opaque (log
7). -/
def Obligations.SupervisorRelease : Prop :=
  (∀ (s : State) (u : Nat), s.boot.loading = true → s.sup.released = false → s.boot.mode ≤ 2 → s.deck.dev ≠ .safeHalt →
    s.boot.lc ≠ .retired → (s.trySlots (slotOrder s.boot.mode s.boot.lcRec)).find? (fun e => e.2 == bootOk) = some (u, bootOk) →
    ∃ t, exec .supervisorRelease s = .next t ∧ t.sup.released = true ∧ t.sup.wdtOn = true ∧ t.sup.wdtAt = t.isl ∧
      t.sup.wdtWarned = false ∧ t.get Reg.SYS_BOOT_STATUS.PHASE = 5 ∧ t.boot.loading = false ∧ t.boot.events = []) ∧
  (∀ (s : State), s.boot.loading = true → s.sup.released = false → s.boot.mode ≤ 3 → s.deck.dev ≠ .safeHalt →
    s.boot.lc = .retired ∨ s.boot.mode = 3 ∨
      (s.trySlots (slotOrder s.boot.mode s.boot.lcRec)).find? (fun e => e.2 == bootOk) = none →
    ∃ t, exec .supervisorRelease s = .next t ∧ t.boot.rescue = true ∧ t.sup.released = true ∧ t.sup.wdtOn = true ∧
      t.get Reg.SYS_BOOT_STATUS.PHASE = (if s.boot.lc = .retired then 10 else 9) ∧ t.get (Reg.MR_CTRL.EN 0) = 1 ∧
      t.boot.loading = false ∧ t.deck = s.deck ∧ MemSame s t ∧ t.boot.flash = s.boot.flash ∧ t.boot.fuses = s.boot.fuses)

/-- The nine operations of LC_CMD. Without the right to give one, nothing happens (R409). One that R402 refuses changes
nothing but the result code and its event. An accepted one is recorded with a system reset 1 ms later and programs nothing
yet; SET_SLOT and CONFIRM_SLOT change the life-cycle record at once and cause no reset (R401, R402). The reset 1 ms after
LC_CMD carries the recorded operation out: its MRAM regions are wiped and no other byte of MRAM changes, its fuses are
programmed unless the majority of a bit cannot be reached, no operation is left pending, and the state is that of fuses and
record (R400, R401, R404). Before that millisecond has passed nothing happens (R402). That an abandoned operation programs
none of its fuses is the model's choice (log 19). -/
def Obligations.LifeCycleOperations : Prop :=
  (∀ (r : Req) (arg op : Nat) (c : Instr) (s : State), s.mayWrite r Reg.LC_CMD → arg < 256 →
     (c, op) ∈ [(Instr.field r arg, 1), (Instr.enterService r arg, 2), (Instr.leaveService r arg, 3), (Instr.retire r arg, 4),
       (Instr.advanceRollback r arg, 5), (Instr.revokeKey r arg, 6), (Instr.programKeys r arg, 7), (Instr.setSlot r arg, 8),
       (Instr.confirmSlot r arg, 9)] →
     (s.lcRight r op = false → exec c s = .next s) ∧
     (s.lcRight r op = true → s.lcCheck op (s.lcArg op arg) ≠ 0 → ∃ t, exec c s = .next t ∧
       t.get Reg.LC_RESULT.CODE = s.lcCheck op (s.lcArg op arg) ∧ t.boot.lcRec = s.boot.lcRec ∧ t.boot.fuses = s.boot.fuses ∧
       t.boot.lcResetAt = s.boot.lcResetAt ∧ RegsBut (Reg.LC_RESULT :: evtWords) s t ∧ MemSame s t) ∧
     (s.lcRight r op = true → s.lcCheck op (s.lcArg op arg) = 0 →
       (lcAllowed op s.boot.lc = true ∧ s.get Reg.KEY_STATUS.HW_REQ = 0 ∧ s.boot.lcRec.op = 0) ∧
       ∃ t, exec c s = .next t ∧ t.get Reg.LC_RESULT.CODE = 0 ∧ t = { s with regs := t.regs, boot := t.boot } ∧
         t.boot = { s.boot with lcRec := t.boot.lcRec, lcResetAt := t.boot.lcResetAt } ∧
         RegsBut [Reg.LC_RESULT, Reg.LC_STATE, Reg.LC_FUSE, Reg.LC_SLOT, Reg.SYS_BOOT_STATUS] s t ∧
         (op ≤ 7 → t.boot.lcRec = { s.boot.lcRec with op := op, arg := s.lcArg op arg, hashes := t.boot.lcRec.hashes } ∧
           t.boot.lcResetAt = some (s.isl + 8000000) ∧ t.get Reg.LC_STATE.PENDING = op) ∧
         (op = 8 → t.boot.lcRec = { s.boot.lcRec with preferred := arg % 2, trial := bit arg 1 } ∧
           t.boot.lcResetAt = s.boot.lcResetAt) ∧
         (op = 9 → s.boot.rescue = false → t.boot.lcRec
           = { s.boot.lcRec with confirmed := setBit s.boot.lcRec.confirmed (s.get Reg.SYS_BOOT_STATUS.SLOT), trial := false, tries := 0 } ∧
           t.boot.lcResetAt = s.boot.lcResetAt))) ∧
  (∀ (e : BootIn) (t0 : Nat) (s : State), s.boot.lcResetAt = some t0 →
     (s.isl < t0 → exec (.lcCmdReset e) s = .next s) ∧
     (t0 ≤ s.isl → s.boot.lcRec.op ≠ 0 → ∃ t, exec (.lcCmdReset e) s = .next t ∧ t.boot.lcRec.op = 0 ∧
       (e.fuseFails = false → t.boot.fuses = lcFuses s.boot.lcRec s.boot.fuses) ∧
       (e.fuseFails = true → t.boot.fuses = s.boot.fuses) ∧
       t.boot.lc = resolveLc t.boot.fuses t.boot.lcRec ∧ t.get Reg.LC_STATE.STATE = t.boot.lc.code ∧
       t.rd Reg.SYS_RESET_CAUSE = 16 ∧ t.boot.lcResetAt = none ∧ t.boot.flash = s.boot.flash ∧ t.hbm = [] ∧ t.tcm = [] ∧
       ∀ a, t.mramByte a =
         if (0x220000 ≤ a ∧ a < 0x800000 ∧ s.boot.lcRec.op ∈ [1, 2, 3, 4]) ∨
             (s.boot.lcRec.op = 4 ∧ ((0xE0000 ≤ a ∧ a < 0x100000) ∨ (0x200000 ≤ a ∧ a < 0x210000)))
         then 0 else s.mramByte a))

/-- RESCUE takes a staged image only if it passes R390: then the slot is being programmed; otherwise the failure is shown
and nothing is programmed. Programming that ends well leaves the image in the slot, the other slot as it was, the slot
preferred and on trial, and resets the device; a failure leaves both (R405). The end of phase 7: a section whose digest
agrees stands in its reserved region, and phase 8 begins (R387, R394). Without a host the supervisor commits and sets RUN,
which ends phase 8 (R406). -/
def Obligations.RescueAndLateStart : Prop :=
  ((∀ (r : Req) (v : Word) (s : State), s.mayWrite r Reg.SYS_RESCUE → s.boot.rescue = true → s.boot.lc ≠ .retired →
     s.boot.prog = none → s.deck.dev ≠ .safeHalt → ∃ t, exec (.rescueStart r v) s = .next t ∧
       t.get Reg.SYS_RESCUE.SLOT = bits v.toNat 24 1 ∧ t.boot.flash = s.boot.flash ∧
       (s.checkStaged = bootOk → t.boot.prog = some (bits v.toNat 24 1) ∧ t.get Reg.SYS_RESCUE.STATE = 2) ∧
       (s.checkStaged ≠ bootOk → t.boot = s.boot ∧ t.get Reg.SYS_RESCUE.STATE = 5 ∧ t.get Reg.SYS_RESCUE.RESULT = s.checkStaged) ∧
       t = { s with regs := t.regs, boot := t.boot } ∧ RegsBut [Reg.SYS_RESCUE] s t) ∧
   (∀ (result : Nat) (e : BootIn) (slot : Nat) (s : State), s.boot.prog = some slot → s.deck.dev ≠ .safeHalt → slot < 2 → s.memWf →
     (result % 256 ≠ 0 → ∃ t, exec (.rescueProgramDone result e) s = .next t ∧ t.boot = { s.boot with prog := none } ∧
       t.get Reg.SYS_RESCUE.STATE = 5 ∧ t.get Reg.SYS_RESCUE.RESULT = result % 256 ∧ t = { s with regs := t.regs, boot := t.boot } ∧
       RegsBut [Reg.SYS_RESCUE] s t) ∧
     (result % 256 = 0 → leAt (memRead s.hbm 8 4) 0 4 ≤ slotSize → ∃ t, exec (.rescueProgramDone result e) s = .next t ∧
       t.boot.lcRec.preferred = slot ∧ t.boot.lcRec.trial = true ∧ t.rd Reg.SYS_RESET_CAUSE = 32 ∧ t.boot.prog = none ∧
       (∀ i, i < leAt (memRead s.hbm 8 4) 0 4 → t.boot.flash.get zeroByte (slot * slotSize + i) = s.hbmByte i) ∧
       ∀ a, a < slot * slotSize ∨ (slot + 1) * slotSize ≤ a → t.boot.flash.get zeroByte a = s.boot.flash.get zeroByte a))) ∧
  ((∀ (s : State), s.up → s.get Reg.SYS_BOOT_STATUS.PHASE = 7 → ∃ t, exec .bootHbmLoadDone s = .next t ∧
     t.get Reg.SYS_BOOT_STATUS.PHASE = 8 ∧ t.tcm = s.tcm ∧ t.boot.flash = s.boot.flash ∧
     (∀ ty x b, hbmTypes.filter (fun k => (findSection s.boot.header k).isSome) = [ty] → findSection s.boot.header ty = some x →
       Config.sha384 (x.bytes s.boot.flash (s.get Reg.SYS_BOOT_STATUS.SLOT * slotSize)) = x.digest →
       s.rsvBase (hbmPlace x).1 = some b → s.get Reg.HBM_STATUS.FAILED = 0 → b + (hbmPlace x).2 + x.size ≤ hbmSize →
       ∀ i, i < x.size → t.hbmByte (b + (hbmPlace x).2 + i)
         = s.boot.flash.get zeroByte (s.get Reg.SYS_BOOT_STATUS.SLOT * slotSize + x.offset + i))) ∧
   (∀ (clip : Option Nat) (s : State), s.up → s.sup.released = true → s.boot.rescue = false → s.deck.running = false →
     ∃ t, exec (.hostlessStart clip) s = .next t ∧ t.deck.running = true ∧ t.get Reg.DECK_CTRL.RUN = 1 ∧
       t.deck.nextK = some (s.firstIndex (addNs s.nt48 40000)) ∧
       t.get Reg.DECK_COMMIT_SEQ.LAST = nextSeq (s.get Reg.DECK_COMMIT_SEQ.LAST) ∧ t.act = s.act ∧ MemSame s t ∧
       t.get Reg.SYS_BOOT_STATUS.PHASE
         = (if s.get Reg.SYS_BOOT_STATUS.PHASE = 8 then 12 else s.get Reg.SYS_BOOT_STATUS.PHASE) ∧
       ∀ a, clip = some a → t.get Reg.NEC_PLAY_CLIP.ADDR = a % 2 ^ 26))

/-! The blitter (13). -/

/-- A burst of the descriptor in progress, while HBM serves, no pseudo-channel has failed, the reads find nothing, and no
pixel reads a byte of the destination extent: each pixel of the burst holds FG (FILL), its source pixel (COPY), the
converted source pixel (CONVERT), and FG or BG by its bit, or what it held before where the bit is 0 and TRANSP is set
(EXPAND, TEXT). No byte outside the extent changes, and the pause begins (R320, R323 to R325, R330). That one command runs
one burst, and its place after the pixels so far, are the model's reading (log 26). -/
def Obligations.BlitterBurst : Prop :=
  ∀ (s : State) (c : BltRun) (cmd : Instr), s.up → s.blt.cur = some c → c.done = false → c.waiting = false →
    s.blt.pauseTo ≤ s.nt.now8 → s.hbmServes → s.bltCheck c = 0 → c.pos < c.total →
    (cmd, c.kind) ∈ [(Instr.fill .clean, 1), (.copy .clean, 2), (.convert .clean, 3), (.expand .clean, 4), (.text .clean, 5)] →
    (∀ x y, x < c.wd → y < c.hd → (c.reads x y).2 = 0 ∨ (c.reads x y).1 + (c.reads x y).2 ≤ c.dst + c.dy * c.fld 0x10 4 ∨
      extentEnd c.dst (c.fld 0x10 4) c.dstFmt c.dx c.dy c.wd c.hd ≤ (c.reads x y).1) →
    ∃ t, exec cmd s = .next t ∧
      (∃ n, c.pos < n ∧ n ≤ c.total ∧ t.blt.cur = some { c with pos := n, done := decide (c.total ≤ n) } ∧
        (n < c.total → s.burstBits ≤ (n - c.pos) * bltBits c.dstFmt + c.pos * bltBits c.dstFmt % s.burstBits) ∧
        ∀ i, c.pos ≤ i → i < n →
          t.pixelWord (c.dst + (c.dy + (c.place i).2) * c.fld 0x10 4) c.dstFmt (c.dx + (c.place i).1)
            = (match c.kind with
              | 1 => c.fld 0x30 5
              | 2 => s.pixelWord (c.src + (c.sy + (c.place i).2) * c.fld 0x28 4) c.srcFmt (c.sx + (c.place i).1)
              | 3 => convertPix c.srcFmt (s.pixelWord (c.src + (c.sy + (c.place i).2) * c.fld 0x28 4) c.srcFmt (c.sx + (c.place i).1))
              | _ => if s.sourceBit c (c.place i).1 (c.place i).2 then c.fld 0x30 5
                else if bit (c.fld 0 4) 6 then
                  s.pixelWord (c.dst + (c.dy + (c.place i).2) * c.fld 0x10 4) c.dstFmt (c.dx + (c.place i).1)
                else c.fld 0x35 5) % 2 ^ fmtBits c.dstFmt) ∧
      (∀ a, a < c.dst + c.dy * c.fld 0x10 4 ∨ extentEnd c.dst (c.fld 0x10 4) c.dstFmt c.dx c.dy c.wd c.hd ≤ a →
        t.hbmByte a = s.hbmByte a) ∧
      t.blt.pauseTo = s.nt.now8 + (s.get Reg.BLT_CFG.GAP + s.get Reg.THM_THROTTLE.LEVEL * 256) * 8 ∧
      t = { s with regs := t.regs, hbm := t.hbm, hc := t.hc, blt := t.blt, evt := t.evt, mram := t.mram, boot := t.boot } ∧
      (∀ a, ¬ inLog a → t.mramByte a = s.mramByte a) ∧ RegsBut (Reg.BLT_STATUS :: hbmWords) s t

/-- The pixel of FILL, COPY and CONVERT, as R323 gives them: FG; the source pixel word; and the converted source pixel, each
colour component from C8A8 to C12A4 as c8 × 16 + (c8 >> 4), which is the LUT index of R77, with alpha (a8 + 8) div 17, from
C12A4 to C8A8 as (c12 × 255 + 2047) div 4095 with alpha a4 × 17, and an index from P4 to P8 unchanged. Both roundings are to
the nearest integer and meet no tie. A CONVERT of any other pair, with a kind that is known, is refused with RESULT 2,
FORMAT. -/
def Obligations.BlitterConversions : Prop :=
  (∀ (s : State) (c : BltRun) (x y : Nat), c.kind = 1 → s.bltValue c x y = some (c.fld 0x30 5)) ∧
  (∀ (s : State) (c : BltRun) (x y : Nat), c.kind = 2 →
    s.bltValue c x y = some (s.pixelWord (c.src + (c.sy + y) * c.fld 0x28 4) c.srcFmt (c.sx + x))) ∧
  (∀ (s : State) (c : BltRun) (x y : Nat), c.kind = 3 →
    s.bltValue c x y = some (convertPix c.srcFmt (s.pixelWord (c.src + (c.sy + y) * c.fld 0x28 4) c.srcFmt (c.sx + x)))) ∧
  (∀ (s : State) (c : BltRun), c.kind = 3 → (c.srcFmt, c.dstFmt) ∉ [(1, 0), (0, 1), (3, 2)] → s.bltCheck c = 2) ∧
  (∀ c0 c1 c2 a, c0 < 256 → c1 < 256 → c2 < 256 → a < 256 →
    convertPix 1 (c0 + c1 * 2 ^ 8 + c2 * 2 ^ 16 + a * 2 ^ 24)
      = (c0 * 16 + c0 / 16) + (c1 * 16 + c1 / 16) * 2 ^ 12 + (c2 * 16 + c2 / 16) * 2 ^ 24 + (a + 8) / 17 * 2 ^ 36) ∧
  (∀ c0 c1 c2 a, c0 < 4096 → c1 < 4096 → c2 < 4096 → a < 16 →
    convertPix 0 (c0 + c1 * 2 ^ 12 + c2 * 2 ^ 24 + a * 2 ^ 36)
      = (c0 * 255 + 2047) / 4095 + (c1 * 255 + 2047) / 4095 * 2 ^ 8 + (c2 * 255 + 2047) / 4095 * 2 ^ 16 + a * 17 * 2 ^ 24) ∧
  (∀ w, convertPix 3 w = w) ∧
  (∀ c, c < 256 → c * 16 + c / 16 = (c <<< 4) ||| (c >>> 4)) ∧
  (∀ a, a < 256 → 2 * ((17 * ((a + 8) / 17) : Nat) - (a : Int)).natAbs < 17) ∧
  (∀ c, c < 4096 → 2 * ((4095 * ((c * 255 + 2047) / 4095) : Nat) - ((c * 255 : Nat) : Int)).natAbs < 4095)

/-- The descriptor queue. A post by the supervisor, and the end of a pause, take the descriptor at HEAD when the blitter is
free: it is checked before it writes anything, and waits when it is to (R326, R328, R331). Before the wipe of HBM its read
is held, and nothing is taken (12 R317). The wait ends at its point, or when the Deck is stopped. A descriptor with nothing
left to write ends: its fence is written for a layer of the supervisor, then its STATUS word, HEAD moves on, and it is
counted; an error sets ERR and, with STOP_ON_ERR, clears EN (R327, R331). ABORT ends the descriptor in progress with ABORT
and clears EN (R332). When the fence is written is the model's reading (log 30). -/
def Obligations.BlitterQueue : Prop :=
  (∀ (r : Req) (v : Word) (s : State), s.up → s.mayWrite r Reg.BLT_Q_TAIL →
    (s.actsSup r = false → exec (.bltPost r v) s = .next s) ∧
    (s.actsSup r = true → ∃ t, exec (.bltPost r v) s = .next t ∧ t.get Reg.BLT_Q_TAIL.TAIL = v.toNat % 1024 ∧
      t.get Reg.BLT_Q_HEAD.HEAD = s.get Reg.BLT_Q_HEAD.HEAD ∧
      t = { s with regs := t.regs, blt := t.blt, hc := t.hc, evt := t.evt, mram := t.mram, boot := t.boot } ∧ MemSame s t ∧
      RegsBut ([Reg.BLT_Q_TAIL, Reg.BLT_STATUS] ++ hbmWords) s t ∧
      (s.get Reg.HBM_STATUS.STATE < 3 → t = { s with regs := t.regs } ∧ RegsBut [Reg.BLT_Q_TAIL] s t) ∧
      (s.blt.cur = none → s.get Reg.BLT_CTRL.EN = 1 → 16 ≤ s.bltSize → s.get Reg.BLT_Q_HEAD.HEAD ≠ v.toNat % 1024 →
        s.blt.pauseTo ≤ s.nt.now8 → s.hbmServes → tookBlt s t))) ∧
  (∀ (s : State), s.up → (s.nt.now8 < s.blt.pauseTo ∨ s.get Reg.HBM_STATUS.STATE < 3 → exec .bltBurstPauseEnd s = .next s) ∧
    (s.blt.pauseTo ≤ s.nt.now8 → s.blt.cur = none → s.get Reg.BLT_CTRL.EN = 1 → 16 ≤ s.bltSize →
      s.get Reg.BLT_Q_HEAD.HEAD ≠ s.get Reg.BLT_Q_TAIL.TAIL → s.hbmServes →
      ∃ t, exec .bltBurstPauseEnd s = .next t ∧ tookBlt s t ∧
        t = { s with regs := t.regs, blt := t.blt, hc := t.hc, evt := t.evt, mram := t.mram, boot := t.boot } ∧ MemSame s t ∧
        RegsBut (Reg.BLT_STATUS :: hbmWords) s t)) ∧
  (∀ (s : State) (c : BltRun), s.up → s.blt.cur = some c → c.waiting = true → c.go = true ∨ s.deckRunning = false →
    ∃ t, exec .bltWaitStart s = .next t ∧ t.blt = { s.blt with cur := some { c with waiting := false } } ∧
      t.get Reg.BLT_STATUS.WAITING = 0 ∧ t = { s with regs := t.regs, blt := t.blt } ∧ RegsBut [Reg.BLT_STATUS] s t) ∧
  (∀ (s : State) (c : BltRun), s.up → s.blt.cur = some c → c.done = true → s.get Reg.HBM_STATUS.FAILED = 0 →
    s.bltAddr c.index + 64 ≤ hbmSize → c.result < 256 → c.rows < 2 ^ 15 →
    ∃ t, exec .bltDescriptorEnd s = .next t ∧ t.get Reg.BLT_Q_HEAD.HEAD = (c.index + 1) % max 1 s.bltSize % 1024 ∧
      t.get Reg.BLT_STATUS.RESULT = c.result ∧ t.get Reg.BLT_COUNT.DONE = (s.get Reg.BLT_COUNT.DONE + 1) % 65536 ∧
      leNat (memRead t.hbm (s.bltAddr c.index + 0x3C) 4) = 2 ^ 31 + ofBool c.crossed * 2 ^ 30 + c.rows * 2 ^ 15 + c.result ∧
      (∀ a, a < s.bltAddr c.index + 0x3C ∨ s.bltAddr c.index + 0x40 ≤ a → t.hbmByte a = s.hbmByte a) ∧
      (bit (c.fld 0 4) 7 = true → t.get Reg.BLT_IRQ.DONE = 1) ∧
      (c.result ≠ 0 → t.get Reg.BLT_IRQ.ERR = 1 ∧ t.get Reg.BLT_COUNT.ERRORS = min (s.get Reg.BLT_COUNT.ERRORS + 1) 65535 ∧
        (s.get Reg.BLT_CTRL.STOP_ON_ERR = 1 → t.get Reg.BLT_CTRL.EN = 0)) ∧
      (c.result = 0 → t.get Reg.BLT_IRQ.ERR = s.get Reg.BLT_IRQ.ERR ∧ t.get Reg.BLT_COUNT.ERRORS = s.get Reg.BLT_COUNT.ERRORS) ∧
      (c.fence < 32 → c.checked = false → s.layerOwner c.fence = .supervisor →
        t.get (Reg.LAYER_FENCE.ADDR c.fence) = c.dst / 256 % 2 ^ 26 ∧ t.get (Reg.LAYER_FENCE.VALID c.fence) = 1) ∧
      (32 ≤ c.fence ∨ c.checked = true → ∀ n, n < 32 → t.rd (Reg.LAYER_FENCE n) = s.rd (Reg.LAYER_FENCE n))) ∧
  (∀ (r : Req) (v : Word) (s : State), s.up → s.mayWrite r Reg.BLT_CTRL → s.actsSup r = true →
    ∃ t, exec (.abort r v) s = .next t ∧ t.get Reg.BLT_CTRL.EN = 0 ∧
      t.get Reg.BLT_CTRL.STOP_ON_ERR = bits v.toNat 1 1 ∧ t.blt.cur = none ∧ t.blt.pauseTo = s.blt.pauseTo ∧
      ∀ c, s.blt.cur = some c → t.get Reg.BLT_STATUS.RESULT = 7 ∧ t.get Reg.BLT_IRQ.ERR = 1 ∧
        t.get Reg.BLT_Q_HEAD.HEAD = (c.index + 1) % max 1 s.bltSize % 1024)

/-! Temperature, calibration and power (14). -/

/-- A sample of the diode, 10 ms or in fast sampling 1 ms after the last (R336): the channels less their converter offsets, Tj as their mean rounded down (R335), a sensor failure
latched (R337), each limit reached at Tj ≥ limit and cleared below its hysteresis (R338), the level 7 at once on a sensor
failure or CRITICAL and otherwise moved by at most one step (R340), the level in effect in both registers, THERM_TRIP_N
with, while no page of Keystone is active, the wait for the power-down and the shedding of all layers by the supervisor
(R342, R343), and SAFE_HALT from 128 °C while both channels are valid (R344). -/
def Obligations.ThermalSample : Prop :=
  ∀ (a b : Int) (stuckA stuckB : Bool) (s : State), s.up → s.thm.lt ≤ 7 →
    (∀ u, s.thm.sampleAt = some u → u + (if s.get Reg.THM_STATUS.FAST = 1 then 8000000 else 80000000) ≤ s.isl) →
    ∃ t, exec (.thmSample a b stuckA stuckB) s = .next t ∧
      t.get Reg.THM_TEMP.CH_A = unsignedOf 16 (a - s.calValue qOffA) ∧
      t.get Reg.THM_TEMP.CH_B = unsignedOf 16 (b - s.calValue qOffB) ∧
      t.get Reg.THM_TJ.TJ = unsignedOf 16 (Int.fdiv (a - s.calValue qOffA + (b - s.calValue qOffB)) 2) ∧
      t.thm.sensor = (if s.thm.sensor ≠ 0 then s.thm.sensor
        else sensorCode (a - s.calValue qOffA) (b - s.calValue qOffB) stuckA stuckB) ∧
      (∀ x ∈ [(Reg.THM_LIMITS.WARN, s.thm.warn, t.thm.warn), (Reg.THM_LIMITS.THROTTLE, s.thm.throttle, t.thm.throttle),
          (Reg.THM_LIMITS.CRITICAL, s.thm.critical, t.thm.critical)],
        (signed 8 (s.get x.1) * 64 ≤ t.tj → x.2.2 = true) ∧
        (t.tj < (signed 8 (s.get x.1) - (max 1 (s.get Reg.THM_CFG.HYST) : Nat)) * 64 → x.2.2 = false) ∧
        (t.tj < signed 8 (s.get x.1) * 64 → (signed 8 (s.get x.1) - (max 1 (s.get Reg.THM_CFG.HYST) : Nat)) * 64 ≤ t.tj →
          x.2.2 = x.2.1)) ∧
      (t.thm.sensor ≠ 0 ∨ t.thm.critical = true → t.thm.lt = 7) ∧
      (t.thm.sensor = 0 → t.thm.critical = false → t.thm.throttle = true → s.thm.upAt = none → s.thm.lt < 7 →
        t.thm.lt = s.thm.lt + 1) ∧
      (t.thm.sensor = 0 → t.thm.critical = false →
        t.thm.lt = s.thm.lt ∨ t.thm.lt = s.thm.lt + 1 ∨ t.thm.lt + 1 = s.thm.lt) ∧
      t.get Reg.THM_THROTTLE.LEVEL = max t.thm.lt (s.get Reg.THM_THROTTLE.FORCE) ∧
      t.get Reg.COMB_THROTTLE.LEVEL = t.get Reg.THM_THROTTLE.LEVEL ∧
      t.fs.thermTrip = (decide (t.thm.sensor ≠ 0) || t.thm.critical) ∧
      (t.fs.thermTrip = true → s.fs.thermTrip = false → s.key.active = 0 → t.thm.tripAt = some s.isl ∧
        (s.sup.released = true → t.get Reg.DECK_SHED_CFG.FORCE_ALL = 1)) ∧
      t.deck.dev = (if t.thm.sensor = 0 ∧ 128 * 64 ≤ t.tj then .safeHalt else s.deck.dev) ∧ MemSame s t

/-- The controls of the thermal block. THM_LIMITS takes a write of the supervisor that keeps WARN ≤ THROTTLE ≤ CRITICAL ≤
115 °C, and ignores any other (R338). FORCE sets the least level in effect (R340). 100 ms after a trip without Keystone the
rails go off, unless Keystone has become active (R342). A power-down switches them off in reverse order, then VDD_CORE and
VDD_IO; the safety island keeps its pins, and MRAM its bytes (R356). -/
def Obligations.ThermalControls : Prop :=
  (∀ (r : Req) (v : Word) (s : State), s.mayWrite r Reg.THM_LIMITS →
    (s.actsSup r = true ∧ signed 8 (bits v.toNat 0 8) ≤ signed 8 (bits v.toNat 8 8) ∧
        signed 8 (bits v.toNat 8 8) ≤ signed 8 (bits v.toNat 16 8) ∧ signed 8 (bits v.toNat 16 8) ≤ 115 →
      ∃ t, exec (.thmLimitsWrite r v) s = .next t ∧ t.get Reg.THM_LIMITS.WARN = bits v.toNat 0 8 ∧
        t.get Reg.THM_LIMITS.THROTTLE = bits v.toNat 8 8 ∧ t.get Reg.THM_LIMITS.CRITICAL = bits v.toNat 16 8 ∧
        t = { s with regs := t.regs } ∧ RegsBut [Reg.THM_LIMITS] s t) ∧
    (¬ (s.actsSup r = true ∧ signed 8 (bits v.toNat 0 8) ≤ signed 8 (bits v.toNat 8 8) ∧
        signed 8 (bits v.toNat 8 8) ≤ signed 8 (bits v.toNat 16 8) ∧ signed 8 (bits v.toNat 16 8) ≤ 115) →
      exec (.thmLimitsWrite r v) s = .next s)) ∧
  (∀ (r : Req) (v : Word) (s : State), s.mayWrite r Reg.THM_THROTTLE → s.thm.lt ≤ 7 →
    (s.actsSup r = false → exec (.thmForceWrite r v) s = .next s) ∧
    (s.actsSup r = true → ∃ t, exec (.thmForceWrite r v) s = .next t ∧ t.get Reg.THM_THROTTLE.FORCE = bits v.toNat 8 3 ∧
      t.get Reg.THM_THROTTLE.LEVEL = max s.thm.lt (bits v.toNat 8 3) ∧ t.get Reg.COMB_THROTTLE.LEVEL = max s.thm.lt (bits v.toNat 8 3) ∧
      t.thm = s.thm ∧ RegsBut ([Reg.THM_THROTTLE, Reg.COMB_THROTTLE] ++ evtWords) s t ∧ MemSame s t)) ∧
  (∀ (t0 : Nat) (s : State), s.up → s.thm.tripAt = some t0 →
    (s.isl < t0 + 800000000 → exec .thmPowerdownWait s = .next s) ∧
    (t0 + 800000000 ≤ s.isl → s.key.active ≠ 0 → ∃ t, exec .thmPowerdownWait s = .next t ∧
      t = { s with thm := { s.thm with tripAt := none } }) ∧
    (t0 + 800000000 ≤ s.isl → s.key.active = 0 → s.sup.released = true → exec .thmPowerdownWait s = exec .powerDown s)) ∧
  (∀ (s : State), s.up → s.sup.released = true → ∃ t, exec .powerDown s = .next t ∧ t.pwr.down = true ∧ t.pwr.on = [] ∧
    t.out = .pmbus (pmbusBytes 0 1 false [0]) :: .pmbus (pmbusBytes 1 1 false [0]) ::
      ((s.pwr.on.filter fun r => decide (2 ≤ r)).map fun r => Out.pmbus (pmbusBytes r 1 false [0])) ++ s.out ∧
    t.fs = s.fs ∧ t.mram = s.mram ∧ t.hbm = [] ∧ t.tcm = [] ∧ t.boot.fuses = s.boot.fuses ∧ t.boot.flash = s.boot.flash ∧
    t.pending = s.pending)

/-- A field run. A request of the supervisor makes it due, or is merged into the one in progress; a due run starts while the
ADPLL is LOCKED, and no sooner than MIN_INTERVAL after the last; each pass measures the piers that are up, each in a free
interval of 40 µs, and a measurement that a window cuts waits for the next frame; pass 2 follows 1 s after pass 1 (R349 to
R351). That the measurements of the chip belong to the start of the run is the model's choice (log 33). The judgement of a
field run and the store of its record. An accepted quantity takes the mean of its measurements less the anchor value at the
run's own Tj, a rejected one keeps its D, and one rejected quantity rejects its pier (R347, R352). The record goes to the
slot that does not hold the newer copy, and is then in force (R353). The anchor values are opaque (log 23). -/
def Obligations.Calibration : Prop :=
  ((∀ (r : Req) (v : Word) (s : State), s.mayWrite r Reg.CAL_CFG →
     (s.actsSup r = false → exec (.calReq r v) s = .next s) ∧
     (s.actsSup r = true → ∃ t, exec (.calReq r v) s = .next t ∧ t.get Reg.CAL_CFG.PERIOD = bits v.toNat 16 8 ∧
       t.get Reg.CAL_CFG.MIN_INTERVAL = bits v.toNat 8 8 ∧ t.get Reg.CAL_CFG.STEP = bits v.toNat 0 5 ∧
       t.cal = (if s.get Reg.CAL_STATUS.STATE < 2 then { s.cal with due := some (s.cal.due.getD 3) } else s.cal) ∧
       t = { s with regs := t.regs, cal := t.cal } ∧ RegsBut [Reg.CAL_CFG, Reg.CAL_STATUS] s t)) ∧
   (∀ (ms : List (Int × Int)) (tr : Nat) (s : State), s.up → s.calTrigger = some tr → s.get Reg.CAL_STATUS.STATE < 2 →
     ((∃ t0, s.cal.lastAt = some t0 ∧ s.isl < t0 + max 1 (s.get Reg.CAL_CFG.MIN_INTERVAL) * 8000000000) →
       exec (.calRunStart ms) s = .next s) ∧
     ((∀ t0, s.cal.lastAt = some t0 → t0 + max 1 (s.get Reg.CAL_CFG.MIN_INTERVAL) * 8000000000 ≤ s.isl) →
       ∃ t, exec (.calRunStart ms) s = .next t ∧ RegsBut [Reg.CAL_STATUS] s t ∧ t = { s with regs := t.regs, cal := t.cal } ∧
         (s.clk.state ≠ .locked → t.get Reg.CAL_STATUS.STATE = 1 ∧ t.cal = s.cal) ∧
         (s.clk.state = .locked → t.cal.startAt = some s.isl ∧ t.cal.lastAt = some s.isl ∧ t.cal.trigger = tr ∧
           t.cal.runTj = s.tj ∧ t.cal.d = s.cal.d ∧ t.cal.slot0 = s.cal.slot0 ∧ t.cal.slot1 = s.cal.slot1 ∧
           (t.calOpen ≠ [] → t.get Reg.CAL_STATUS.STATE = 3) ∧
           ∀ i, i < 4 → t.cal.m1.get (fun _ => none) (qTdc + i) = some (ms.getD i (0, 0)).1 ∧
             t.cal.m2.get (fun _ => none) (qTdc + i) = some (ms.getD i (0, 0)).2))) ∧
   (∀ (p : Nat) (vals : Option (List Int)) (s : State), s.up → p < 512 → p ∈ s.calOpen → p ∉ s.cal.cut →
     (s.get Reg.CAL_STATUS.STATE = 3 ∨ s.get Reg.CAL_STATUS.STATE = 5) →
     ∃ t, exec (.calPierMeasure p vals) s = .next t ∧ t = { s with regs := t.regs, cal := t.cal } ∧ RegsBut [Reg.CAL_STATUS] s t ∧
       (∀ l, vals = some l → s.calFree p = false → t = s) ∧
       (∀ l, vals = some l → s.calFree p = true → t.cal.done = s.cal.done ++ [p] ∧ t.cal.reject = s.cal.reject ∧
         ∀ i, i < 48 → (s.get Reg.CAL_STATUS.STATE = 3 → t.cal.m1.get (fun _ => none) (48 * p + i) = some (l.getD i 0)) ∧
           (s.get Reg.CAL_STATUS.STATE = 5 → t.cal.m2.get (fun _ => none) (48 * p + i) = some (l.getD i 0))) ∧
       (vals = none → t = { s with cal := { s.cal with cut := if s.deckRunning then p :: s.cal.cut else s.cal.cut } })) ∧
   (∀ (p : Nat) (vals : Option (List Int)) (s : State), p ∈ s.cal.cut → exec (.calPierMeasure p vals) s = .next s) ∧
   (∀ (s : State), s.up → s.get Reg.CAL_STATUS.STATE = 4 →
     (s.isl < s.cal.gapAt + 8000000000 → exec .calIntervalEnd s = .next s) ∧
     (s.cal.gapAt + 8000000000 ≤ s.isl → ∃ t, exec .calIntervalEnd s = .next t ∧ t.get Reg.CAL_STATUS.STATE = 5 ∧
       t = { s with regs := t.regs, cal := { s.cal with done := [], tries := [], cut := [] } } ∧ RegsBut [Reg.CAL_STATUS] s t))) ∧
  ((∀ (s : State), s.up → s.get Reg.CAL_STATUS.STATE = 5 → s.calOpen = [] → (∀ p ∈ s.cal.done, p < 512) →
     ∃ t r, exec .calJudge s = .next t ∧ t.get Reg.CAL_STATUS.STATE = 6 ∧ t.cal.store = some r ∧ t.cal.d = s.cal.d ∧
       t.cal.slot0 = s.cal.slot0 ∧ t.cal.slot1 = s.cal.slot1 ∧ r.tm = s.cal.runTj ∧
       r.seq = ((s.cal.field.map (·.seq)).getD 0 + 1) % 2 ^ 32 ∧ r.runs = (s.cal.field.map (·.runs)).getD 0 + 1 ∧
       (∀ q ∈ [qTdc, qMed, qOffA, qOffB], r.d.get (fun _ => 0) q = if s.accepted q then s.newD q else s.cal.d.get (fun _ => 0) q) ∧
       (∀ p i, p < 512 → i < 48 → r.d.get (fun _ => 0) (48 * p + i) =
         if p ∈ s.cal.done ∧ p ∉ s.cal.reject ∧ (∀ j, j < 48 → s.accepted (48 * p + j) = true) then s.newD (48 * p + i)
         else s.cal.d.get (fun _ => 0) (48 * p + i)) ∧ MemSame s t) ∧
   (∀ (s : State) (r : FieldRec), s.up → s.get Reg.CAL_STATUS.STATE = 6 → s.cal.store = some r →
     ∃ t, exec .calStoreDone s = .next t ∧ t.get Reg.CAL_STATUS.STATE = 0 ∧ t.cal.store = none ∧ MemSame s t ∧
       (s.cal.field = none ∨ s.cal.newer1 = true → t.cal.slot0 = some { r with nt := s.nt48 } ∧ t.cal.slot1 = s.cal.slot1) ∧
       (s.cal.field ≠ none ∧ s.cal.newer1 = false → t.cal.slot1 = some { r with nt := s.nt48 } ∧ t.cal.slot0 = s.cal.slot0) ∧
       (r.seq = ((s.cal.field.map (·.seq)).getD 0 + 1) % 2 ^ 32 → t.cal.d = r.d ∧ t.get Reg.CAL_COUNT.RUNS = r.runs % 2 ^ 24)))

/-- The rails. Before the first, the supervisor reads VDD_SAFE, VDD_IO and VDD_CORE. The next rail in the order of the
stages is enabled with OPERATION and is on once READ_VOUT is good (R355); after 20 ms stage 2 or 3 goes off and stays off,
stage 2 with all sixteen pseudo-channels failed, and stage 4 takes every stage off and is retried after 1 s, up to 3 times
in all (R355, 16 R407). Quadrant supplies more than 3 % apart clear VALID (R354). The rail numbers and bus addresses are the
model's (log 24). AVS moves its target by at most one STEP per millisecond, up below the target margin and down from two
steps above it, and never out of 0.70 to 0.85 V (R358; that two steps are compared in margin counts is the model's reading,
log 27). A PMBus transaction starts unless one runs, and its end shows error, alert and data (R359, R360). -/
def Obligations.Power : Prop :=
  ((∀ (good : Bool) (s : State), s.up → s.sup.released = true → s.pwr.retryAt = none →
     (∀ r, s.pwr.wait = none → s.nextRail = some r → ∃ t, exec (.pwrRailEnable good) s = .next t ∧
       t.out = (railGroup r).reverse.map (fun q => Out.pmbus (pmbusBytes q 1 false [0x80])) ++
         (if s.pwr.on = [0, 1] ∧ s.pwr.stageOff = [] ∧ s.pwr.tries4 = 0 then
           [1, 0, 10].map fun q => Out.pmbus (pmbusBytes q 0x8B true []) else []) ++ s.out ∧
       t.pwr = (if good then { s.pwr with on := s.pwr.on ++ railGroup r } else { s.pwr with wait := some (r, s.isl) }) ∧
       t = { s with regs := t.regs, out := t.out, pwr := t.pwr } ∧ RegsBut [Reg.FS_SUPPLY] s t) ∧
     (∀ r t0, s.pwr.wait = some (r, t0) → ∃ t, exec (.pwrRailEnable good) s = .next t ∧ t.out = s.out ∧
       t.pwr = (if good then { s.pwr with on := s.pwr.on ++ railGroup r, wait := none } else s.pwr) ∧
       t = { s with regs := t.regs, pwr := t.pwr } ∧ RegsBut [Reg.FS_SUPPLY] s t)) ∧
   (∀ (rail vout status r t0 : Nat) (s : State), s.up → s.pwr.wait = some (r, t0) → 2 ≤ r → r ≤ 6 →
     (s.isl < t0 + 160000000 → exec (.pwrRailTimeout rail vout status) s = .next s) ∧
     (t0 + 160000000 ≤ s.isl → ∃ t, exec (.pwrRailTimeout rail vout status) s = .next t ∧ t.pwr.wait = none ∧ MemSame s t ∧
       (r < 6 → t.pwr.stageOff = s.pwr.stageOff ++ [railStage r] ∧ (∀ q, q ∈ t.pwr.on ↔ q ∈ s.pwr.on ∧ railStage q ≠ railStage r)) ∧
       (r < 5 → t.get Reg.HBM_STATUS.FAILED = 0xFFFF ∧ t.deck.hbmCause = (s.deck.hbmCause ||
         decide (s.get Reg.HBM_STATUS.FAILED ≠ 0xFFFF))) ∧
       (r = 6 → (∀ q, q ∈ t.pwr.on ↔ q ∈ s.pwr.on ∧ q < 2) ∧ t.pwr.tries4 = s.pwr.tries4 + 1 ∧
         t.pwr.retryAt = (if s.pwr.tries4 + 1 < 3 then some (s.isl + 8000000000) else none)))) ∧
   (∀ (t0 : Nat) (s : State), s.up → s.pwr.retryAt = some t0 →
     (s.isl < t0 → exec .pwrStage4Retry s = .next s) ∧
     (t0 ≤ s.isl → ∃ t, exec .pwrStage4Retry s = .next t ∧ t = { s with pwr := { s.pwr with retryAt := none } })) ∧
   (∀ (v0 v1 v2 v3 : Nat) (s : State), s.up → s.sup.released = true →
     ∃ t, exec (.pwrQuadCheck v0 v1 v2 v3) s = .next t ∧ MemSame s t ∧
       (t.cal.quadBad = true ↔ ∃ x ∈ [v0, v1, v2, v3], ∃ y ∈ [v0, v1, v2, v3], 103 * y < 100 * x) ∧
       (t.cal.quadBad = true → t.get Reg.CAL_STATUS.VALID = 0) ∧ t.cal = { s.cal with quadBad := t.cal.quadBad } ∧
       RegsBut (Reg.CAL_STATUS :: evtWords) s t)) ∧
  ((∀ (margin vout : Nat) (s : State), s.up → s.get Reg.PWR_AVS_CFG.EN = 1 → s.pwr.avsAt + 8000000 ≤ s.isl →
     700 ≤ s.get Reg.PWR_AVS.TARGET → s.get Reg.PWR_AVS.TARGET ≤ 850 → vout < 1024 →
     ∃ t, exec (.avsAdjust margin vout) s = .next t ∧ t.get Reg.PWR_AVS.VOUT = vout ∧ t.pwr = { s.pwr with avsAt := s.isl } ∧
       t.get Reg.PWR_AVS.TARGET = (if margin < s.get Reg.PWR_AVS_CFG.MARGIN then min 850 (s.get Reg.PWR_AVS.TARGET + s.avsStep)
         else if s.get Reg.PWR_AVS_CFG.MARGIN + 2 * s.avsStep ≤ margin then max 700 (s.get Reg.PWR_AVS.TARGET - s.avsStep)
         else s.get Reg.PWR_AVS.TARGET) ∧
       t.get Reg.PWR_AVS.STATE = (if margin < s.get Reg.PWR_AVS_CFG.MARGIN ∧ 850 < s.get Reg.PWR_AVS.TARGET + s.avsStep then 3 else 2) ∧
       RegsBut (Reg.PWR_AVS :: evtWords) s t ∧ MemSame s t) ∧
   (∀ (margin vout : Nat) (s : State), s.get Reg.PWR_AVS_CFG.EN = 0 ∨ s.isl < s.pwr.avsAt + 8000000 →
     exec (.avsAdjust margin vout) s = .next s) ∧
   (∀ (r : Req) (v : Word) (s : State), s.up → s.mayWrite r Reg.PWR_PMB_CMD → s.actsSup r = true →
     s.get Reg.PWR_PMB_DATA.BUSY = 0 → ∃ t, exec (.pmbTransaction r v) s = .next t ∧ t.get Reg.PWR_PMB_DATA.BUSY = 1 ∧
       t.pwr = { s.pwr with pmb := some (bits v.toNat 8 7, bits v.toNat 0 8, bit v.toNat 30, min 2 (bits v.toNat 24 2)) } ∧
       t.out = .pmbus (pmbusBytes (bits v.toNat 8 7) (bits v.toNat 0 8) (bit v.toNat 30)
         (leBytes (min 2 (bits v.toNat 24 2)) (s.get Reg.PWR_PMB_DATA.DATA))) :: s.out ∧
       t = { s with regs := t.regs, pwr := t.pwr, out := t.out } ∧ RegsBut [Reg.PWR_PMB_CMD, Reg.PWR_PMB_DATA] s t) ∧
   (∀ (err data a c n : Nat) (alert rd : Bool) (s : State), s.up → s.pwr.pmb = some (a, c, rd, n) → err < 8 → n ≤ 2 →
     ∃ t, exec (.pmbDone err alert data) s = .next t ∧ t.get Reg.PWR_PMB_DATA.BUSY = 0 ∧ t.get Reg.PWR_PMB_DATA.ERR = err ∧
       t.get Reg.PWR_PMB_DATA.ALERT = ofBool alert ∧
       t.get Reg.PWR_PMB_DATA.DATA = (if rd = true ∧ err = 0 then data % 2 ^ (8 * n) else s.get Reg.PWR_PMB_DATA.DATA) ∧
       t = { s with regs := t.regs, pwr := { s.pwr with pmb := none } } ∧ RegsBut [Reg.PWR_PMB_DATA] s t))

/-! The supervisor, the events and the fault log (15). -/

/-- The watchdog and the checks of the cores. A kick with the expected key in its window restarts it and turns the key; a
wrong key, a kick before OPEN and TIMEOUT without a kick enter SAFE_HALT; WARN is set at 75 % of TIMEOUT; LOCK freezes its
configuration until reset (R381). A lockstep mismatch and an uncorrectable TCM error enter SAFE_HALT, with their event as
the next entry of the safety island in the fault log, and every pier with a tile is SILENT (08 R206, R209); a corrected
error is counted (R363, R378). -/
def Obligations.WatchdogAndCores : Prop :=
  (∀ (r : Req) (v : Word) (s : State), s.mayWrite r Reg.SUP_WDT_KICK → s.actsSup r = true → s.sup.wdtOn = true →
    s.deck.dev ≠ .safeHalt →
    (bits v.toNat 0 16 = (if s.get Reg.SUP_WDT_STATUS.NEXT = 0 then 0x5AC3 else 0xC35A) →
      s.sup.wdtAt + s.wdtOpen * 8000000 ≤ s.isl → ∃ t, exec (.wdtKick r v) s = .next t ∧
        t.get Reg.SUP_WDT_STATUS.NEXT = 1 - s.get Reg.SUP_WDT_STATUS.NEXT ∧
        t.get Reg.SUP_WDT_STATUS.KICKS = (s.get Reg.SUP_WDT_STATUS.KICKS + 1) % 65536 ∧
        t = { s with regs := t.regs, sup := { s.sup with wdtAt := s.isl, wdtWarned := false } } ∧
        RegsBut [Reg.SUP_WDT_STATUS] s t) ∧
    (bits v.toNat 0 16 ≠ (if s.get Reg.SUP_WDT_STATUS.NEXT = 0 then 0x5AC3 else 0xC35A) ∨
        s.isl < s.sup.wdtAt + s.wdtOpen * 8000000 →
      ∃ t, exec (.wdtKick r v) s = .next t ∧ t.deck.dev = .safeHalt ∧ t.fs.faultLow = true ∧ MemSame s t)) ∧
  (∀ (s : State), s.sup.wdtOn = true → s.deck.dev ≠ .safeHalt →
    (s.isl < s.sup.wdtAt + max 10 (s.get Reg.SUP_WDT_CFG.TIMEOUT) * 8000000 → exec .wdtExpire s = .next s) ∧
    (s.sup.wdtAt + max 10 (s.get Reg.SUP_WDT_CFG.TIMEOUT) * 8000000 ≤ s.isl → ∃ t, exec .wdtExpire s = .next t ∧
      t.deck.dev = .safeHalt ∧ t.clk.state = .off ∧ t.fs.faultLow = true ∧ MemSame s t) ∧
    (s.sup.wdtWarned = false → s.sup.wdtAt + max 10 (s.get Reg.SUP_WDT_CFG.TIMEOUT) * 6000000 ≤ s.isl →
      ∃ t, exec .wdtWarn s = .next t ∧ t.get Reg.SUP_WDT_STATUS.WARN = 1 ∧
        t = { s with regs := t.regs, sup := { s.sup with wdtWarned := true } } ∧ RegsBut [Reg.SUP_WDT_STATUS] s t)) ∧
  (∀ (r : Req) (v : Word) (s : State), s.mayWrite r Reg.SUP_WDT_CFG →
    (s.actsSup r = false ∨ s.get Reg.SUP_WDT_CFG.LOCK = 1 → exec (.lock r v) s = .next s) ∧
    (s.actsSup r = true → s.get Reg.SUP_WDT_CFG.LOCK = 0 → ∃ t, exec (.lock r v) s = .next t ∧ t.get Reg.SUP_WDT_CFG.LOCK = 1 ∧
      t.get Reg.SUP_WDT_CFG.TIMEOUT = bits v.toNat 16 12 ∧ t.get Reg.SUP_WDT_CFG.OPEN = bits v.toNat 0 12 ∧ t.sup = s.sup ∧
      RegsBut ([Reg.SUP_WDT_CFG, Reg.FS_CAUSE, Reg.FS_STATUS] ++ evtWords) s t ∧ MemSame s t)) ∧
  (∀ (x : Nat) (s : State) (c : Instr) (lo : Byte), s.deck.dev ≠ .safeHalt →
    (c, lo) ∈ [(Instr.lockstepMismatch x, (4 : Byte)), (.tcmEccError x true, 5)] →
    ∃ t, exec c s = .next t ∧ t.deck.dev = .safeHalt ∧ t.clk.state = .off ∧ t.fs.faultLow = true ∧ MemSame s t ∧
      t.mramByte (logBase + 64 * s.get Reg.EVT_LOG_STATUS.HEAD) = lo ∧
      t.mramByte (logBase + 64 * s.get Reg.EVT_LOG_STATUS.HEAD + 1) = 0x0F ∧
      t.mramByte (logBase + 64 * s.get Reg.EVT_LOG_STATUS.HEAD + 0x28) = 1 ∧
      (∀ p ∈ s.tiles, t.pierState p = 6) ∧
      t.get Reg.EVT_LOG_STATUS.HEAD = (s.get Reg.EVT_LOG_STATUS.HEAD + 3
        + (s.tiles.filter fun p => s.alarmCovered p || s.flag Reg.EVT_CTRL.LOG_WARN).length) % 16384) ∧
  (∀ (a : Nat) (s : State), s.deck.dev ≠ .safeHalt → ∃ t, exec (.tcmEccError a false) s = .next t ∧
    t.get Reg.SUP_TCM_ECC.CORR = min (s.get Reg.SUP_TCM_ECC.CORR + 1) 65535 ∧ t.deck = s.deck ∧
    RegsBut (Reg.SUP_TCM_ECC :: evtWords) s t ∧ MemSame s t)

/-- An event of Thihoger takes the next ESEQ and enters the supervisor queue, the host queue from HOST_MIN on, and the fault
log from ERROR on; in a full queue it is dropped, or as a SAFETY record replaces one of lower severity (R372 to R378). A
read of EVT_REC0 removes the record at the head and captures its words 1 to 7. CLEAR in SERVICE appends EV_LOG_CLEARED
(R380), and a summary follows once a token is free again (R379). -/
def Obligations.EventRecords : Prop :=
  (∀ (r : Req) (v : Word) (s : State), s.mayWrite r Reg.EVT_POST →
    (s.actsSup r = false ∨ bits v.toNat 16 16 < 0x8000 → exec (.evtPost r v) s = .next s) ∧
    (s.actsSup r = true → 0x8000 ≤ bits v.toNat 16 16 → s.boot.loading = false → s.deck.dev ≠ .safeHalt →
      ∃ (t : State) (e : EvRec), exec (.evtPost r v) s = .next t ∧ e.code = bits v.toNat 16 16 ∧ e.sev = bits v.toNat 8 2 ∧ e.eseq = s.evt.eseq ∧
        e.nt48 = s.nt48 ∧ e.frame = s.deck.frameNum % 2 ^ 32 ∧
        e.payload = ((List.range 4).flatMap fun w => leBytes 4 (s.rd (Reg.EVT_POST_DATA w)).toNat).take (min 16 (bits v.toNat 0 5)) ∧
        t.evt.eseq = (s.evt.eseq + 1) % 65536 ∧
        (s.evt.supQ.length < 512 → t.evt.supQ = s.evt.supQ ++ [{ e with lost := s.evt.supLost }] ∧ t.evt.supLost = false) ∧
        (s.evt.supQ.length = 512 → e.sev < 3 → t.evt.supQ = s.evt.supQ ∧ t.evt.supLost = true ∧
          t.get Reg.EVT_COUNT.SUP_DROPPED = min (s.get Reg.EVT_COUNT.SUP_DROPPED + 1) 65535) ∧
        (s.evt.supQ.length = 512 → e.sev = 3 → (∃ x ∈ s.evt.supQ, x.sev < 3) →
          t.evt.supQ.getLast? = some { e with lost := true } ∧ t.evt.supQ.length = 512) ∧
        (s.get Reg.EVT_CTRL.HOST_EN = 1 → s.get Reg.EVT_CTRL.HOST_MIN ≤ e.sev → s.evt.hostQ.length < 256 →
          t.evt.hostQ = s.evt.hostQ ++ [{ e with lost := s.evt.hostLost }]) ∧
        (s.get Reg.EVT_CTRL.HOST_EN = 0 ∨ e.sev < s.get Reg.EVT_CTRL.HOST_MIN → t.evt.hostQ = s.evt.hostQ) ∧
        (2 ≤ e.sev → 0 < s.refill.evt.tokens →
          t.get Reg.EVT_LOG_STATUS.HEAD = (s.get Reg.EVT_LOG_STATUS.HEAD + 1) % 16384 ∧
          t.get Reg.EVT_LOG_SEQ.LOGSEQ = (s.get Reg.EVT_LOG_SEQ.LOGSEQ + 1) % 2 ^ 32) ∧
        (e.sev = 0 → t.mram = s.mram) ∧ RegsBut evtWords s t ∧ MemSame s t)) ∧
  (∀ (r : Req) (s : State), s.mayRead r (Reg.EVT_REC 0) → r ≠ .ctrl → ∃ t, exec (.evtRecRead r) s = .next t ∧
    t.evt = { s.evt with supQ := s.evt.supQ.drop 1 } ∧
    (∀ w, 1 ≤ w → w ≤ 7 → t.captured? r (Reg.EVT_REC w) = some (s.evtRecWord w)) ∧
    t = { s with evt := t.evt, caps := t.caps }) ∧
  (∀ (r : Req) (v : Word) (s : State), s.mayWrite r Reg.EVT_LOG_CTRL →
    (s.boot.lc ≠ .service → exec (.clear r v) s = .next s) ∧
    (s.boot.lc = .service → s.deck.dev ≠ .safeHalt → 0 < s.refill.evt.tokens → ∃ t, exec (.clear r v) s = .next t ∧
      t.mramByte (logBase + 64 * s.get Reg.EVT_LOG_STATUS.HEAD) = 7 ∧
      t.mramByte (logBase + 64 * s.get Reg.EVT_LOG_STATUS.HEAD + 1) = 0x0F ∧
      t.get Reg.EVT_LOG_STATUS.HEAD = (s.get Reg.EVT_LOG_STATUS.HEAD + 1) % 16384 ∧ RegsBut evtWords s t ∧ MemSame s t)) ∧
  (∀ (s : State), s.up → s.evt.suppressed ≠ 0 → 0 < s.refill.evt.tokens → ∃ t, exec .logSummaryWrite s = .next t ∧
    t.evt.suppressed = 0 ∧ t.mramByte (logBase + 64 * s.get Reg.EVT_LOG_STATUS.HEAD) = 6 ∧
    t.mramByte (logBase + 64 * s.get Reg.EVT_LOG_STATUS.HEAD + 1) = 0x0F ∧ t.evt.tokens + 1 = s.refill.evt.tokens ∧
    RegsBut evtWords s t ∧ MemSame s t)

/-- The mailbox: SEND of the sending side sets BUSY, a second one while BUSY is ignored with OVERRUN, and ACK of the
receiving side clears BUSY and sets ACKED (R382). The semaphores: a read of a free one takes it for the reader, only the
owner releases it, and the supervisor can force a release; CTRL records take none (R371). -/
def Obligations.MailboxAndSemaphores : Prop :=
  (∀ (r : Req) (d : Nat) (v : Word) (c : Instr) (s : State), (c, d) ∈ [(Instr.mbxH2sSend r v, 0), (.mbxS2hSend r v, 1)] →
    s.mayWrite r (mbxCtrl d) → mbxSends d r = true →
    (s.get (mbxField d Reg.SUP_MBX_H2S_CTRL.BUSY) = 1 → ∃ t, exec c s = .next t ∧
      t.get (mbxField d Reg.SUP_MBX_H2S_CTRL.OVERRUN) = 1 ∧ t.get (mbxField d Reg.SUP_MBX_H2S_CTRL.BUSY) = 1 ∧
      t.get (mbxField d Reg.SUP_MBX_H2S_CTRL.MSEQ) = s.get (mbxField d Reg.SUP_MBX_H2S_CTRL.MSEQ) ∧
      t = { s with regs := t.regs } ∧ RegsBut [mbxCtrl d] s t) ∧
    (s.get (mbxField d Reg.SUP_MBX_H2S_CTRL.BUSY) = 0 → ∃ t, exec c s = .next t ∧
      t.get (mbxField d Reg.SUP_MBX_H2S_CTRL.BUSY) = 1 ∧ t.get (mbxField d Reg.SUP_MBX_H2S_CTRL.LEN) = bits v.toNat 8 5 ∧
      t.get (mbxField d Reg.SUP_MBX_H2S_CTRL.MSEQ) = bits v.toNat 0 8 ∧ (d = 0 → t = { s with regs := t.regs }) ∧
      RegsBut (mbxCtrl d :: evtWords) s t ∧ MemSame s t)) ∧
  (∀ (r : Req) (d : Nat) (v : Word) (c : Instr) (s : State), (c, d) ∈ [(Instr.mbxH2sAck r v, 0), (.mbxS2hAck r v, 1)] →
    s.mayWrite r (mbxCtrl d) → mbxReceives d r = true →
    (s.get (mbxField d Reg.SUP_MBX_H2S_CTRL.BUSY) = 0 → exec c s = .next s) ∧
    (s.get (mbxField d Reg.SUP_MBX_H2S_CTRL.BUSY) = 1 → ∃ t, exec c s = .next t ∧
      t.get (mbxField d Reg.SUP_MBX_H2S_CTRL.BUSY) = 0 ∧ t.get (mbxField d Reg.SUP_MBX_H2S_CTRL.ACKED) = 1 ∧
      (d = 1 → t = { s with regs := t.regs }) ∧ RegsBut (mbxCtrl d :: evtWords) s t ∧ MemSame s t)) ∧
  (∀ (r : Req) (n : Nat) (s : State), n < 16 → s.mayRead r (Reg.SUP_SEM n) → r ≠ .ctrl → ∃ t, exec (.semAcquire r n) s = .next t ∧
    t.semOwner n = (if s.semOwner n = 0 then ownerCode r else s.semOwner n) ∧
    (∀ m, m ≠ n → t.semOwner m = s.semOwner m) ∧ t = { s with sup := { s.sup with sems := t.sup.sems } }) ∧
  (∀ (r : Req) (n : Nat) (s : State), n < 16 → s.mayWrite r (Reg.SUP_SEM n) → r ≠ .ctrl →
    (s.semOwner n ≠ ownerCode r → exec (.semRelease r n) s = .next s) ∧
    (s.semOwner n = ownerCode r → ∃ t, exec (.semRelease r n) s = .next t ∧ t.semOwner n = 0 ∧
      (∀ m, m ≠ n → t.semOwner m = s.semOwner m) ∧ t = { s with sup := { s.sup with sems := t.sup.sems } })) ∧
  (∀ (r : Req) (n : Nat) (s : State), n < 16 → s.mayWrite r (Reg.SUP_SEM n) →
    (s.actsSup r = false → exec (.force r n) s = .next s) ∧
    (s.actsSup r = true → ∃ t, exec (.force r n) s = .next t ∧ t.semOwner n = 0 ∧
      (∀ m, m ≠ n → t.semOwner m = s.semOwner m) ∧ t = { s with sup := { s.sup with sems := t.sup.sems } }))

/-! The safety island (17). -/

/-- The supplies and the self-test. A supply of the core or of the pads out of its window is a power-on reset, one of a pier
quadrant enters SAFE_HALT (R421). A self-test that passes is counted and starts the heartbeat; one that fails is counted,
its first monitor kept, the latched cause SELFTEST set and the heartbeat stopped (R422, R426). The heartbeat toggles every
10 ms (R426). A monitor whose rail is off counts for nothing: the model's choice (log 28). FS_FAULT_N and its causes. A test
pulse of the supervisor asserts the pin for LEN ms, between 10 and 1,000, unless the hardware request is registered, and its
end ends the cause TEST (R431). A written 1 clears EXPIRED and RECT unless the condition persists, and the echo fault of a
pier unless its last echoed frame failed (R424). The pin is released once no cause is left and 100 ms have passed (R423,
R424). -/
def Obligations.SafetyIsland : Prop :=
  ((∀ (rail : Nat) (high : Bool) (e : BootIn) (s : State), rail ∈ s.pwr.on →
     (rail = 0 ∨ rail = 1 → ∃ t u, exec (.fsSupplyFault rail high e) s = .next t ∧ exec (.powerOnReset e) u = .next t ∧
       t.get Reg.SYS_RESET_CAUSE.POWER_ON = 1 ∧ t.sup.released = false) ∧
     (6 ≤ rail → rail ≤ 9 → s.deck.dev ≠ .safeHalt → ∃ t, exec (.fsSupplyFault rail high e) s = .next t ∧
       t.deck.dev = .safeHalt ∧ t.fs.faultLow = true ∧ t.clk.state = .off ∧
       bit (t.get Reg.FS_SUPPLY.PIER_Q) (rail - 6) = false ∧ MemSame s t)) ∧
   (∀ (bad : Nat) (s : State), s.fs.selftestAt ≤ s.isl → bad < 256 → ∃ t, exec (.fsSelftest bad) s = .next t ∧
     t.fs.selftestAt = s.isl + 8000000000 ∧ t.deck = s.deck ∧ MemSame s t ∧
     (bad = 0 → t.get Reg.FS_SELFTEST.PASSES = (s.get Reg.FS_SELFTEST.PASSES + 1) % 65536 ∧
       t.get Reg.FS_SELFTEST.FAILS = s.get Reg.FS_SELFTEST.FAILS ∧
       (s.flag Reg.FS_CAUSE.SELFTEST = false → t.fs.hbRun = true) ∧ RegsBut [Reg.FS_SELFTEST, Reg.FS_STATUS] s t) ∧
     (bad ≠ 0 → t.get Reg.FS_SELFTEST.FAILS = min (s.get Reg.FS_SELFTEST.FAILS + 1) 255 ∧
       t.get Reg.FS_SELFTEST.FAILED = (if s.get Reg.FS_SELFTEST.FAILED = 0 then bad else s.get Reg.FS_SELFTEST.FAILED) ∧
       t.get Reg.FS_CAUSE.SELFTEST = 1 ∧ t.fs.hbRun = false ∧ t.fs.hbLevel = s.fs.hbLevel ∧
       t.get Reg.FS_STATUS.HB_RUN = 0)) ∧
   (∀ (s : State), (s.fs.hbRun = false ∨ s.isl < s.fs.hbAt + 80000000 → exec .fsHeartbeatToggle s = .next s) ∧
     (s.fs.hbRun = true → s.fs.hbAt + 80000000 ≤ s.isl → ∃ t, exec .fsHeartbeatToggle s = .next t ∧
       t = { s with fs := { s.fs with hbLevel := !s.fs.hbLevel, hbAt := s.isl }
                    out := .pin "FS_HEARTBEAT" (!s.fs.hbLevel) :: s.out }))) ∧
  ((∀ (r : Req) (v : Word) (s : State), s.mayWrite r Reg.FS_TEST →
     (s.actsSup r = false → exec (.fsTestStart r v) s = .next s) ∧
     (s.actsSup r = true → s.flag Reg.KEY_STATUS.HW_REQ = true → ∃ t, exec (.fsTestStart r v) s = .next t ∧
       t.get Reg.FS_TEST.LEN = bits v.toNat 0 10 ∧ t = { s with regs := t.regs } ∧ RegsBut [Reg.FS_TEST] s t) ∧
     (s.actsSup r = true → s.flag Reg.KEY_STATUS.HW_REQ = false → s.flag Reg.FS_CAUSE.TEST = false →
       ∃ t, exec (.fsTestStart r v) s = .next t ∧ t.get Reg.FS_TEST.LEN = bits v.toNat 0 10 ∧
       t.fs.testEnd = some (s.isl + max 10 (min 1000 (bits v.toNat 0 10)) * 8000000) ∧ t.get Reg.FS_CAUSE.TEST = 1 ∧
       t.fs.faultLow = true ∧ RegsBut ([Reg.FS_TEST, Reg.FS_CAUSE, Reg.FS_STATUS] ++ evtWords) s t ∧ MemSame s t)) ∧
   (∀ (e : Nat) (s : State), s.fs.testEnd = some e → (s.isl < e → exec .fsTestEnd s = .next s) ∧
     (e ≤ s.isl → ∃ t, exec .fsTestEnd s = .next t ∧ t.fs.testEnd = none ∧ t.get Reg.FS_CAUSE.TEST = 0 ∧
       RegsBut ([Reg.FS_CAUSE, Reg.FS_STATUS] ++ evtWords) s t ∧ MemSame s t)) ∧
   (∀ (r : Req) (v : Word) (s : State), s.mayWrite r Reg.FS_CAUSE →
     (s.actsSup r = false → exec (.fsCauseClear r v) s = .next s) ∧
     (s.actsSup r = true → ∃ t, exec (.fsCauseClear r v) s = .next t ∧
       t.get Reg.FS_CAUSE.EXPIRED = (if bit v.toNat 12 = true ∧ s.fs.expiredLast = false then 0 else s.get Reg.FS_CAUSE.EXPIRED) ∧
       t.get Reg.FS_CAUSE.RECT = (if bit v.toNat 13 = true ∧ s.rectHolds = false then 0 else s.get Reg.FS_CAUSE.RECT) ∧
       (∀ f ∈ [Reg.FS_CAUSE.BOOT, Reg.FS_CAUSE.NOT_READY, Reg.FS_CAUSE.PIER_DOWN, Reg.FS_CAUSE.KEY_INPUT, Reg.FS_CAUSE.THERMAL,
         Reg.FS_CAUSE.TEST, Reg.FS_CAUSE.PAGE, Reg.FS_CAUSE.PAGESET, Reg.FS_CAUSE.LOCKED, Reg.FS_CAUSE.LANE, Reg.FS_CAUSE.SELFTEST,
         Reg.FS_CAUSE.ECHO], t.get f = s.get f) ∧
       RegsBut ([Reg.FS_CAUSE, Reg.FS_STATUS] ++ evtWords) s t ∧ MemSame s t)) ∧
   (∀ (r : Req) (w : Nat) (v : Word) (s : State), w < 16 → s.mayWrite r (Reg.FS_PIER w) → s.actsSup r = true →
     ∃ t, exec (.fsPierClear r w v) s = .next t ∧
       (∀ b, b < 32 → bit (t.get (Reg.FS_PIER.PIER w)) b = (bit (s.get (Reg.FS_PIER.PIER w)) b &&
         !(bit v.toNat b && decide (s.port.failRun.get (fun _ => 0) (32 * w + b) = 0)))) ∧
       RegsBut ([Reg.FS_PIER w, Reg.FS_CAUSE, Reg.FS_STATUS] ++ evtWords) s t ∧ MemSame s t) ∧
   (∀ (s : State), s.fs.faultLow = true → s.rd Reg.FS_CAUSE = 0 → s.deck.dev ≠ .safeHalt →
     (s.isl < s.fs.assertedAt + 800000000 → exec .fsFaultRelease s = .next s) ∧
     (s.fs.assertedAt + 800000000 ≤ s.isl → ∃ t, exec .fsFaultRelease s = .next t ∧ t.get Reg.FS_STATUS.FAULT = 0 ∧
       t = { s with regs := t.regs, fs := { s.fs with faultLow := false }, out := .pin "FS_FAULT_N" true :: s.out } ∧
       RegsBut [Reg.FS_STATUS] s t)))

/-! The whole block. -/

/-- A step of a state whose queue has a command in front is that command run on the state with the rest of the queue, and
ends in a next state. -/
def Obligations.StepTakesFront : Prop :=
  ∀ (c : Instr) (rest : List Instr) (s : State), s.pending = c :: rest →
    step s = exec c { s with pending := rest } ∧ ∃ t, exec c { s with pending := rest } = .next t ∧ step s = .next t

/-- A step with an empty queue is one cycle of CLK_TIME, 2.5 ns of NT and of the local count, unless the device is in
SAFE_HALT or its ADPLL off: then only the island's clock runs. The rate offset Φ moves by at most 128 × 2^-8 ppb in a cycle,
20 ppm per 100 µs, stays in holdover, and makes the cycle last 2.5 ns / (1 + Φ) (10 R236, R237, R253, R256, R259). That time
goes on in the step of an empty queue is the model's choice (log 2). -/
def Obligations.IdleStep : Prop :=
  ∀ (s : State), s.pending = [] → s.deck.phase ≠ .blank → ∃ t, step s = .next t ∧ t = { s with nt := t.nt, clk := t.clk } ∧
    (s.deck.dev = .safeHalt ∨ s.clk.state = .off → t.nt = { s.nt with isl8 := s.nt.isl8 + 20 } ∧ t.clk = s.clk) ∧
    (s.deck.dev ≠ .safeHalt → s.clk.state ≠ .off → t.nt.now8 = s.nt.now8 + 20 ∧ (t.phi - s.phi).natAbs ≤ 128 ∧
      (s.clk.state = .holdover → t.phi = s.phi ∧ t.nt.slew = s.nt.slew ∧ t.clk = s.clk) ∧
      t.nt.isl8 * 2 ^ 32 + t.nt.islFrac = s.nt.isl8 * 2 ^ 32 + s.nt.islFrac
        + 20 * 2 ^ 32 * 256000000000 / (256000000000 + t.phi).toNat ∧
      (s.nt.half < 2000000000 → s.nt.sec + 1 < 2 ^ 48 → t.nt.half < 2000000000 ∧
        t.nt.sec * 2000000000 + t.nt.half = s.nt.sec * 2000000000 + s.nt.half + 5))

/-- Every command ends in a next state, whatever the state and its operands, and leaves the commands that wait as they are
(log 1). -/
def Obligations.CommandsComplete : Prop :=
  ∀ (c : Instr) (s : State), ∃ t, exec c s = .next t ∧ t.pending = s.pending

/-- Every step keeps the three memories in their canonical form: addresses rise, and no listed byte is what an unlisted one
reads as. -/
def Obligations.MemoriesCanonical : Prop :=
  ∀ (s t : State), s.memWf → step s = .next t → t.memWf

/-- SAFE_HALT is left only by a reset: after any command given in SAFE_HALT the device is still in it, or has just been
reset, with the Deck as after reset and the supervisor not yet released (01 R23, R24). -/
def Obligations.SafeHaltExit : Prop :=
  ∀ (c : Instr) (s t : State), s.deck.dev = .safeHalt → exec c s = .next t →
    t.deck.dev = .safeHalt ∨ (t.deck = resetDeck ∧ t.sup.released = false ∧ t.boot.loading = true)

/-- The state after reset: the memories are canonical and empty, the device is in HOLD with FS_FAULT_N asserted for BOOT and
NOT_READY (16 R395, R396, 17 R423), no command waits, and registers have the reset values of their tables: THM_LIMITS 95,
100 and 110 °C (14 R338), the host route of events from WARN on (15 R383), LIMIT 3 of the echo check (17 R414), TIMEOUT
1,000 ms of the watchdog (15 R381). -/
def Obligations.ResetState : Prop :=
  State.reset.memWf ∧ State.reset.hbm = [] ∧ State.reset.tcm = [] ∧ State.reset.pending = [] ∧ State.reset.deck.dev = .hold ∧
    State.reset.fs.faultLow = true ∧ State.reset.get Reg.FS_STATUS.FAULT = 1 ∧ State.reset.rd Reg.FS_CAUSE = 3 ∧
    State.reset.get Reg.DECK_CTRL.RUN = 0 ∧ State.reset.get Reg.THM_LIMITS.WARN = 95 ∧
    State.reset.get Reg.THM_LIMITS.THROTTLE = 100 ∧ State.reset.get Reg.THM_LIMITS.CRITICAL = 110 ∧
    State.reset.get Reg.EVT_CTRL.HOST_EN = 1 ∧ State.reset.get Reg.EVT_CTRL.HOST_MIN = 1 ∧
    State.reset.get Reg.CRC_ECHO_CFG.LIMIT = 3 ∧ State.reset.get Reg.SUP_WDT_CFG.TIMEOUT = 1000 ∧
    State.reset.get Reg.SUP_WDT_STATUS.NEXT = 0 ∧ State.reset.get Reg.SYS_RESET_CAUSE.POWER_ON = 1
end

