-- ==== Sys2Proof/Laws/Table.lean ====
section
/-! SUPPORT. The laws of sparse tables: a read after a write, other keys untouched, and the canonical form kept. -/

namespace Sys2Proof

variable {α : Type}

@[simp] theorem Table.get_erase_same (d : Nat → α) (t : Table α) (k : Nat) : (t.erase k).get d k = d k := by
  induction t with
  | nil => rfl
  | cons e t ih =>
    obtain ⟨j, v⟩ := e
    by_cases h : k = j
    · simpa [Table.erase, h] using h ▸ ih
    · simpa [Table.erase, Table.get, h] using ih

theorem Table.get_erase_ne (d : Nat → α) (t : Table α) {k j : Nat} (h : j ≠ k) : (t.erase k).get d j = t.get d j := by
  induction t with
  | nil => rfl
  | cons e t ih =>
    obtain ⟨i, v⟩ := e
    by_cases hk : k = i
    · subst hk; simpa [Table.erase, Table.get, h] using ih
    · by_cases hj : j = i <;> simp [Table.erase, Table.get, hk, hj, ih]

theorem Table.get_insert_ne (d : Nat → α) (t : Table α) {k j : Nat} (v : α) (h : j ≠ k) :
    (t.insert k v).get d j = t.get d j := by
  induction t with
  | nil => simp [Table.insert, Table.get, h]
  | cons e t ih =>
    obtain ⟨i, w⟩ := e
    by_cases hk : k < i <;> by_cases hj : j = i <;> simp [Table.insert, Table.get, hk, hj, ih, h]
    intro hh; omega

theorem Table.get_insert_same (d : Nat → α) (t : Table α) (k : Nat) (v : α) (h : ∀ e ∈ t, e.1 ≠ k) :
    (t.insert k v).get d k = v := by
  induction t with
  | nil => simp [Table.insert, Table.get]
  | cons e t ih =>
    obtain ⟨i, w⟩ := e
    have hi : k ≠ i := fun hh => h (i, w) (by simp) hh.symm
    by_cases hk : k < i
    · simp [Table.insert, Table.get, hk]
    · simp only [Table.insert, hk, if_false, Table.get, hi]
      exact ih fun e he => h e (by simp [he])

theorem Table.erase_keys (t : Table α) (k : Nat) : ∀ e ∈ t.erase k, e.1 ≠ k := by
  induction t with
  | nil => simp [Table.erase]
  | cons e t ih =>
    obtain ⟨j, v⟩ := e
    by_cases h : k = j
    · simp only [Table.erase, h, if_true]; exact h ▸ ih
    · intro e he
      simp only [Table.erase, h, if_false, List.mem_cons] at he
      rcases he with rfl | he
      · exact fun hh => h hh.symm
      · exact ih e he

/-- A read after a write of the same key gives the value written. -/
@[simp] theorem Table.get_set_same [DecidableEq α] (d : Nat → α) (t : Table α) (k : Nat) (v : α) :
    (t.set d k v).get d k = v := by
  unfold Table.set
  split
  · next h => simp [h]
  · exact Table.get_insert_same d _ k v (Table.erase_keys t k)

/-- A write leaves every other key alone. -/
theorem Table.get_set_ne [DecidableEq α] (d : Nat → α) (t : Table α) {k j : Nat} (v : α) (h : j ≠ k) :
    (t.set d k v).get d j = t.get d j := by
  unfold Table.set
  split
  · exact Table.get_erase_ne d t h
  · rw [Table.get_insert_ne d _ v h, Table.get_erase_ne d t h]

theorem Table.mem_erase {t : Table α} {k : Nat} {e : Nat × α} (h : e ∈ t.erase k) : e ∈ t := by
  induction t with
  | nil => exact h
  | cons f t ih =>
    obtain ⟨j, v⟩ := f
    by_cases hk : k = j
    · simp only [Table.erase, hk, if_true] at h; exact List.mem_cons_of_mem _ (ih (hk ▸ h))
    · simp only [Table.erase, hk, if_false, List.mem_cons] at h
      rcases h with rfl | h
      · simp
      · exact List.mem_cons_of_mem _ (ih h)

theorem Table.mem_insert {t : Table α} {k : Nat} {v : α} {e : Nat × α} (h : e ∈ t.insert k v) : e = (k, v) ∨ e ∈ t := by
  induction t with
  | nil => simpa [Table.insert] using h
  | cons f t ih =>
    obtain ⟨j, w⟩ := f
    by_cases hk : k < j
    · simpa [Table.insert, hk] using h
    · simp only [Table.insert, hk, if_false, List.mem_cons] at h
      rcases h with rfl | h
      · simp
      · rcases ih h with h | h <;> simp [h]

theorem Table.wf_erase [DecidableEq α] (d : Nat → α) (t : Table α) (k : Nat) (h : t.wf d = true) :
    (t.erase k).wf d = true := by
  induction t with
  | nil => rfl
  | cons e t ih =>
    obtain ⟨j, v⟩ := e
    simp only [Table.wf, Bool.and_eq_true, List.all_eq_true, decide_eq_true_eq] at h
    by_cases hk : k = j
    · simpa [Table.erase, hk] using hk ▸ ih h.2
    · simp only [Table.erase, hk, if_false, Table.wf, Bool.and_eq_true, List.all_eq_true, decide_eq_true_eq]
      exact ⟨⟨fun e he => h.1.1 e (Table.mem_erase he), h.1.2⟩, ih h.2⟩

theorem Table.wf_insert [DecidableEq α] (d : Nat → α) (t : Table α) (k : Nat) (v : α) (h : t.wf d = true)
    (hv : v ≠ d k) (hk : ∀ e ∈ t, e.1 ≠ k) : (t.insert k v).wf d = true := by
  induction t with
  | nil => simp [Table.insert, Table.wf, hv]
  | cons e t ih =>
    obtain ⟨j, w⟩ := e
    have hh := h
    simp only [Table.wf, Bool.and_eq_true, List.all_eq_true, decide_eq_true_eq] at h
    by_cases hlt : k < j
    · simp only [Table.insert, hlt, if_true]
      rw [Table.wf, Bool.and_eq_true, Bool.and_eq_true, List.all_eq_true]
      refine ⟨⟨?_, by simpa using hv⟩, hh⟩
      intro e he
      rcases List.mem_cons.1 he with rfl | he
      · simpa using hlt
      · have := h.1.1 e he; simp; omega
    · simp only [Table.insert, hlt, if_false, Table.wf, Bool.and_eq_true, List.all_eq_true, decide_eq_true_eq]
      refine ⟨⟨?_, h.1.2⟩, ih h.2 fun e he => hk e (List.mem_cons_of_mem _ he)⟩
      intro e he
      rcases Table.mem_insert he with rfl | he
      · have := hk (j, w) (by simp); simp at this ⊢; omega
      · exact h.1.1 e he

/-- A write keeps the canonical form. -/
theorem Table.wf_set [DecidableEq α] (d : Nat → α) (t : Table α) (k : Nat) (v : α) (h : t.wf d = true) :
    (t.set d k v).wf d = true := by
  unfold Table.set
  split
  · exact Table.wf_erase d t k h
  · next hv => exact Table.wf_insert d _ k v (Table.wf_erase d t k h) hv (Table.erase_keys t k)

theorem Table.wf_modify [DecidableEq α] (d : Nat → α) (t : Table α) (k : Nat) (f : α → α) (h : t.wf d = true) :
    (t.modify d k f).wf d = true := Table.wf_set d t k _ h

theorem Table.wf_setMany [DecidableEq α] (d : Nat → α) (vs : List α) :
    ∀ (t : Table α) (k : Nat), t.wf d = true → (t.setMany d k vs).wf d = true := by
  induction vs with
  | nil => intro t k h; exact h
  | cons v vs ih => intro t k h; exact ih _ _ (Table.wf_set d t k v h)

theorem Table.wf_filter [DecidableEq α] (d : Nat → α) (p : Nat × α → Bool) (t : Table α) (h : t.wf d = true) :
    Table.wf d (t.filter p) = true := by
  induction t with
  | nil => rfl
  | cons e t ih =>
    obtain ⟨j, v⟩ := e
    simp only [Table.wf, Bool.and_eq_true, List.all_eq_true, decide_eq_true_eq] at h
    by_cases hp : p (j, v) = true
    · rw [List.filter_cons_of_pos hp]
      simp only [Table.wf, Bool.and_eq_true, List.all_eq_true, decide_eq_true_eq]
      exact ⟨⟨fun e he => h.1.1 e (List.mem_filter.1 he).1, h.1.2⟩, ih h.2⟩
    · rw [List.filter_cons_of_neg hp]; exact ih h.2

theorem Table.wf_dropRange [DecidableEq α] (d : Nat → α) (t : Table α) (lo len : Nat) (h : t.wf d = true) :
    (t.dropRange lo len).wf d = true := Table.wf_filter d _ t h

end Sys2Proof
end

