-- ==== Sys2Proof/Laws/State.lean ====
section
/-! SUPPORT. What the elementary updates of the state leave alone, one lemma for each field and update, and the laws of registers
and fields: a read after a write, and fields that do not overlap. -/

namespace Sys2Proof.Machine

@[simp] theorem State.wr_pending (s : State) (a : Nat) (v : Word) : (s.wr a v).pending = s.pending := by cases s; rfl
@[simp] theorem State.wr_act (s : State) (a : Nat) (v : Word) : (s.wr a v).act = s.act := by cases s; rfl
@[simp] theorem State.wr_dirty (s : State) (a : Nat) (v : Word) : (s.wr a v).dirty = s.dirty := by cases s; rfl
@[simp] theorem State.wr_hostT (s : State) (a : Nat) (v : Word) : (s.wr a v).hostT = s.hostT := by cases s; rfl
@[simp] theorem State.wr_caps (s : State) (a : Nat) (v : Word) : (s.wr a v).caps = s.caps := by cases s; rfl
@[simp] theorem State.wr_free (s : State) (a : Nat) (v : Word) : (s.wr a v).free = s.free := by cases s; rfl
@[simp] theorem State.wr_out (s : State) (a : Nat) (v : Word) : (s.wr a v).out = s.out := by cases s; rfl
@[simp] theorem State.wr_tcm (s : State) (a : Nat) (v : Word) : (s.wr a v).tcm = s.tcm := by cases s; rfl
@[simp] theorem State.wr_mram (s : State) (a : Nat) (v : Word) : (s.wr a v).mram = s.mram := by cases s; rfl
@[simp] theorem State.wr_hbm (s : State) (a : Nat) (v : Word) : (s.wr a v).hbm = s.hbm := by cases s; rfl
@[simp] theorem State.wr_deck (s : State) (a : Nat) (v : Word) : (s.wr a v).deck = s.deck := by cases s; rfl
@[simp] theorem State.wr_nt (s : State) (a : Nat) (v : Word) : (s.wr a v).nt = s.nt := by cases s; rfl
@[simp] theorem State.wr_clk (s : State) (a : Nat) (v : Word) : (s.wr a v).clk = s.clk := by cases s; rfl
@[simp] theorem State.wr_evt (s : State) (a : Nat) (v : Word) : (s.wr a v).evt = s.evt := by cases s; rfl
@[simp] theorem State.wr_sup (s : State) (a : Nat) (v : Word) : (s.wr a v).sup = s.sup := by cases s; rfl
@[simp] theorem State.wr_layers (s : State) (a : Nat) (v : Word) : (s.wr a v).layers = s.layers := by cases s; rfl
@[simp] theorem State.wr_combs (s : State) (a : Nat) (v : Word) : (s.wr a v).combs = s.combs := by cases s; rfl
@[simp] theorem State.wr_cells (s : State) (a : Nat) (v : Word) : (s.wr a v).cells = s.cells := by cases s; rfl
@[simp] theorem State.wr_boot (s : State) (a : Nat) (v : Word) : (s.wr a v).boot = s.boot := by cases s; rfl
@[simp] theorem State.wr_fs (s : State) (a : Nat) (v : Word) : (s.wr a v).fs = s.fs := by cases s; rfl
@[simp] theorem State.wr_nec (s : State) (a : Nat) (v : Word) : (s.wr a v).nec = s.nec := by cases s; rfl
@[simp] theorem State.wr_port (s : State) (a : Nat) (v : Word) : (s.wr a v).port = s.port := by cases s; rfl
@[simp] theorem State.wr_key (s : State) (a : Nat) (v : Word) : (s.wr a v).key = s.key := by cases s; rfl
@[simp] theorem State.wr_vdt (s : State) (a : Nat) (v : Word) : (s.wr a v).vdt = s.vdt := by cases s; rfl
@[simp] theorem State.wr_piers (s : State) (a : Nat) (v : Word) : (s.wr a v).piers = s.piers := by cases s; rfl
@[simp] theorem State.wr_hc (s : State) (a : Nat) (v : Word) : (s.wr a v).hc = s.hc := by cases s; rfl
@[simp] theorem State.wr_thm (s : State) (a : Nat) (v : Word) : (s.wr a v).thm = s.thm := by cases s; rfl
@[simp] theorem State.wr_cal (s : State) (a : Nat) (v : Word) : (s.wr a v).cal = s.cal := by cases s; rfl
@[simp] theorem State.wr_pwr (s : State) (a : Nat) (v : Word) : (s.wr a v).pwr = s.pwr := by cases s; rfl
@[simp] theorem State.wr_blt (s : State) (a : Nat) (v : Word) : (s.wr a v).blt = s.blt := by cases s; rfl
@[simp] theorem State.wr_mr (s : State) (a : Nat) (v : Word) : (s.wr a v).mr = s.mr := by cases s; rfl
@[simp] theorem State.wr_tap (s : State) (a : Nat) (v : Word) : (s.wr a v).tap = s.tap := by cases s; rfl

@[simp] theorem State.set_pending (s : State) (f : Field) (v : Nat) : (s.set f v).pending = s.pending := by cases s; rfl
@[simp] theorem State.set_act (s : State) (f : Field) (v : Nat) : (s.set f v).act = s.act := by cases s; rfl
@[simp] theorem State.set_dirty (s : State) (f : Field) (v : Nat) : (s.set f v).dirty = s.dirty := by cases s; rfl
@[simp] theorem State.set_hostT (s : State) (f : Field) (v : Nat) : (s.set f v).hostT = s.hostT := by cases s; rfl
@[simp] theorem State.set_caps (s : State) (f : Field) (v : Nat) : (s.set f v).caps = s.caps := by cases s; rfl
@[simp] theorem State.set_free (s : State) (f : Field) (v : Nat) : (s.set f v).free = s.free := by cases s; rfl
@[simp] theorem State.set_out (s : State) (f : Field) (v : Nat) : (s.set f v).out = s.out := by cases s; rfl
@[simp] theorem State.set_tcm (s : State) (f : Field) (v : Nat) : (s.set f v).tcm = s.tcm := by cases s; rfl
@[simp] theorem State.set_mram (s : State) (f : Field) (v : Nat) : (s.set f v).mram = s.mram := by cases s; rfl
@[simp] theorem State.set_hbm (s : State) (f : Field) (v : Nat) : (s.set f v).hbm = s.hbm := by cases s; rfl
@[simp] theorem State.set_deck (s : State) (f : Field) (v : Nat) : (s.set f v).deck = s.deck := by cases s; rfl
@[simp] theorem State.set_nt (s : State) (f : Field) (v : Nat) : (s.set f v).nt = s.nt := by cases s; rfl
@[simp] theorem State.set_clk (s : State) (f : Field) (v : Nat) : (s.set f v).clk = s.clk := by cases s; rfl
@[simp] theorem State.set_evt (s : State) (f : Field) (v : Nat) : (s.set f v).evt = s.evt := by cases s; rfl
@[simp] theorem State.set_sup (s : State) (f : Field) (v : Nat) : (s.set f v).sup = s.sup := by cases s; rfl
@[simp] theorem State.set_layers (s : State) (f : Field) (v : Nat) : (s.set f v).layers = s.layers := by cases s; rfl
@[simp] theorem State.set_combs (s : State) (f : Field) (v : Nat) : (s.set f v).combs = s.combs := by cases s; rfl
@[simp] theorem State.set_cells (s : State) (f : Field) (v : Nat) : (s.set f v).cells = s.cells := by cases s; rfl
@[simp] theorem State.set_boot (s : State) (f : Field) (v : Nat) : (s.set f v).boot = s.boot := by cases s; rfl
@[simp] theorem State.set_fs (s : State) (f : Field) (v : Nat) : (s.set f v).fs = s.fs := by cases s; rfl
@[simp] theorem State.set_nec (s : State) (f : Field) (v : Nat) : (s.set f v).nec = s.nec := by cases s; rfl
@[simp] theorem State.set_port (s : State) (f : Field) (v : Nat) : (s.set f v).port = s.port := by cases s; rfl
@[simp] theorem State.set_key (s : State) (f : Field) (v : Nat) : (s.set f v).key = s.key := by cases s; rfl
@[simp] theorem State.set_vdt (s : State) (f : Field) (v : Nat) : (s.set f v).vdt = s.vdt := by cases s; rfl
@[simp] theorem State.set_piers (s : State) (f : Field) (v : Nat) : (s.set f v).piers = s.piers := by cases s; rfl
@[simp] theorem State.set_hc (s : State) (f : Field) (v : Nat) : (s.set f v).hc = s.hc := by cases s; rfl
@[simp] theorem State.set_thm (s : State) (f : Field) (v : Nat) : (s.set f v).thm = s.thm := by cases s; rfl
@[simp] theorem State.set_cal (s : State) (f : Field) (v : Nat) : (s.set f v).cal = s.cal := by cases s; rfl
@[simp] theorem State.set_pwr (s : State) (f : Field) (v : Nat) : (s.set f v).pwr = s.pwr := by cases s; rfl
@[simp] theorem State.set_blt (s : State) (f : Field) (v : Nat) : (s.set f v).blt = s.blt := by cases s; rfl
@[simp] theorem State.set_mr (s : State) (f : Field) (v : Nat) : (s.set f v).mr = s.mr := by cases s; rfl
@[simp] theorem State.set_tap (s : State) (f : Field) (v : Nat) : (s.set f v).tap = s.tap := by cases s; rfl

@[simp] theorem State.bump_pending (s : State) (f : Field) (n : Nat) : (s.bump f n).pending = s.pending := by cases s; rfl
@[simp] theorem State.bump_act (s : State) (f : Field) (n : Nat) : (s.bump f n).act = s.act := by cases s; rfl
@[simp] theorem State.bump_dirty (s : State) (f : Field) (n : Nat) : (s.bump f n).dirty = s.dirty := by cases s; rfl
@[simp] theorem State.bump_hostT (s : State) (f : Field) (n : Nat) : (s.bump f n).hostT = s.hostT := by cases s; rfl
@[simp] theorem State.bump_caps (s : State) (f : Field) (n : Nat) : (s.bump f n).caps = s.caps := by cases s; rfl
@[simp] theorem State.bump_free (s : State) (f : Field) (n : Nat) : (s.bump f n).free = s.free := by cases s; rfl
@[simp] theorem State.bump_out (s : State) (f : Field) (n : Nat) : (s.bump f n).out = s.out := by cases s; rfl
@[simp] theorem State.bump_tcm (s : State) (f : Field) (n : Nat) : (s.bump f n).tcm = s.tcm := by cases s; rfl
@[simp] theorem State.bump_mram (s : State) (f : Field) (n : Nat) : (s.bump f n).mram = s.mram := by cases s; rfl
@[simp] theorem State.bump_hbm (s : State) (f : Field) (n : Nat) : (s.bump f n).hbm = s.hbm := by cases s; rfl
@[simp] theorem State.bump_deck (s : State) (f : Field) (n : Nat) : (s.bump f n).deck = s.deck := by cases s; rfl
@[simp] theorem State.bump_nt (s : State) (f : Field) (n : Nat) : (s.bump f n).nt = s.nt := by cases s; rfl
@[simp] theorem State.bump_clk (s : State) (f : Field) (n : Nat) : (s.bump f n).clk = s.clk := by cases s; rfl
@[simp] theorem State.bump_evt (s : State) (f : Field) (n : Nat) : (s.bump f n).evt = s.evt := by cases s; rfl
@[simp] theorem State.bump_sup (s : State) (f : Field) (n : Nat) : (s.bump f n).sup = s.sup := by cases s; rfl
@[simp] theorem State.bump_layers (s : State) (f : Field) (n : Nat) : (s.bump f n).layers = s.layers := by cases s; rfl
@[simp] theorem State.bump_combs (s : State) (f : Field) (n : Nat) : (s.bump f n).combs = s.combs := by cases s; rfl
@[simp] theorem State.bump_cells (s : State) (f : Field) (n : Nat) : (s.bump f n).cells = s.cells := by cases s; rfl
@[simp] theorem State.bump_boot (s : State) (f : Field) (n : Nat) : (s.bump f n).boot = s.boot := by cases s; rfl
@[simp] theorem State.bump_fs (s : State) (f : Field) (n : Nat) : (s.bump f n).fs = s.fs := by cases s; rfl
@[simp] theorem State.bump_nec (s : State) (f : Field) (n : Nat) : (s.bump f n).nec = s.nec := by cases s; rfl
@[simp] theorem State.bump_port (s : State) (f : Field) (n : Nat) : (s.bump f n).port = s.port := by cases s; rfl
@[simp] theorem State.bump_key (s : State) (f : Field) (n : Nat) : (s.bump f n).key = s.key := by cases s; rfl
@[simp] theorem State.bump_vdt (s : State) (f : Field) (n : Nat) : (s.bump f n).vdt = s.vdt := by cases s; rfl
@[simp] theorem State.bump_piers (s : State) (f : Field) (n : Nat) : (s.bump f n).piers = s.piers := by cases s; rfl
@[simp] theorem State.bump_hc (s : State) (f : Field) (n : Nat) : (s.bump f n).hc = s.hc := by cases s; rfl
@[simp] theorem State.bump_thm (s : State) (f : Field) (n : Nat) : (s.bump f n).thm = s.thm := by cases s; rfl
@[simp] theorem State.bump_cal (s : State) (f : Field) (n : Nat) : (s.bump f n).cal = s.cal := by cases s; rfl
@[simp] theorem State.bump_pwr (s : State) (f : Field) (n : Nat) : (s.bump f n).pwr = s.pwr := by cases s; rfl
@[simp] theorem State.bump_blt (s : State) (f : Field) (n : Nat) : (s.bump f n).blt = s.blt := by cases s; rfl
@[simp] theorem State.bump_mr (s : State) (f : Field) (n : Nat) : (s.bump f n).mr = s.mr := by cases s; rfl
@[simp] theorem State.bump_tap (s : State) (f : Field) (n : Nat) : (s.bump f n).tap = s.tap := by cases s; rfl

@[simp] theorem State.count_pending (s : State) (f : Field) : (s.count f).pending = s.pending := by cases s; rfl
@[simp] theorem State.count_act (s : State) (f : Field) : (s.count f).act = s.act := by cases s; rfl
@[simp] theorem State.count_dirty (s : State) (f : Field) : (s.count f).dirty = s.dirty := by cases s; rfl
@[simp] theorem State.count_hostT (s : State) (f : Field) : (s.count f).hostT = s.hostT := by cases s; rfl
@[simp] theorem State.count_caps (s : State) (f : Field) : (s.count f).caps = s.caps := by cases s; rfl
@[simp] theorem State.count_free (s : State) (f : Field) : (s.count f).free = s.free := by cases s; rfl
@[simp] theorem State.count_out (s : State) (f : Field) : (s.count f).out = s.out := by cases s; rfl
@[simp] theorem State.count_tcm (s : State) (f : Field) : (s.count f).tcm = s.tcm := by cases s; rfl
@[simp] theorem State.count_mram (s : State) (f : Field) : (s.count f).mram = s.mram := by cases s; rfl
@[simp] theorem State.count_hbm (s : State) (f : Field) : (s.count f).hbm = s.hbm := by cases s; rfl
@[simp] theorem State.count_deck (s : State) (f : Field) : (s.count f).deck = s.deck := by cases s; rfl
@[simp] theorem State.count_nt (s : State) (f : Field) : (s.count f).nt = s.nt := by cases s; rfl
@[simp] theorem State.count_clk (s : State) (f : Field) : (s.count f).clk = s.clk := by cases s; rfl
@[simp] theorem State.count_evt (s : State) (f : Field) : (s.count f).evt = s.evt := by cases s; rfl
@[simp] theorem State.count_sup (s : State) (f : Field) : (s.count f).sup = s.sup := by cases s; rfl
@[simp] theorem State.count_layers (s : State) (f : Field) : (s.count f).layers = s.layers := by cases s; rfl
@[simp] theorem State.count_combs (s : State) (f : Field) : (s.count f).combs = s.combs := by cases s; rfl
@[simp] theorem State.count_cells (s : State) (f : Field) : (s.count f).cells = s.cells := by cases s; rfl
@[simp] theorem State.count_boot (s : State) (f : Field) : (s.count f).boot = s.boot := by cases s; rfl
@[simp] theorem State.count_fs (s : State) (f : Field) : (s.count f).fs = s.fs := by cases s; rfl
@[simp] theorem State.count_nec (s : State) (f : Field) : (s.count f).nec = s.nec := by cases s; rfl
@[simp] theorem State.count_port (s : State) (f : Field) : (s.count f).port = s.port := by cases s; rfl
@[simp] theorem State.count_key (s : State) (f : Field) : (s.count f).key = s.key := by cases s; rfl
@[simp] theorem State.count_vdt (s : State) (f : Field) : (s.count f).vdt = s.vdt := by cases s; rfl
@[simp] theorem State.count_piers (s : State) (f : Field) : (s.count f).piers = s.piers := by cases s; rfl
@[simp] theorem State.count_hc (s : State) (f : Field) : (s.count f).hc = s.hc := by cases s; rfl
@[simp] theorem State.count_thm (s : State) (f : Field) : (s.count f).thm = s.thm := by cases s; rfl
@[simp] theorem State.count_cal (s : State) (f : Field) : (s.count f).cal = s.cal := by cases s; rfl
@[simp] theorem State.count_pwr (s : State) (f : Field) : (s.count f).pwr = s.pwr := by cases s; rfl
@[simp] theorem State.count_blt (s : State) (f : Field) : (s.count f).blt = s.blt := by cases s; rfl
@[simp] theorem State.count_mr (s : State) (f : Field) : (s.count f).mr = s.mr := by cases s; rfl
@[simp] theorem State.count_tap (s : State) (f : Field) : (s.count f).tap = s.tap := by cases s; rfl

@[simp] theorem State.emit_pending (s : State) (o : Out) : (s.emit o).pending = s.pending := by cases s; rfl
@[simp] theorem State.emit_regs (s : State) (o : Out) : (s.emit o).regs = s.regs := by cases s; rfl
@[simp] theorem State.emit_act (s : State) (o : Out) : (s.emit o).act = s.act := by cases s; rfl
@[simp] theorem State.emit_dirty (s : State) (o : Out) : (s.emit o).dirty = s.dirty := by cases s; rfl
@[simp] theorem State.emit_hostT (s : State) (o : Out) : (s.emit o).hostT = s.hostT := by cases s; rfl
@[simp] theorem State.emit_caps (s : State) (o : Out) : (s.emit o).caps = s.caps := by cases s; rfl
@[simp] theorem State.emit_free (s : State) (o : Out) : (s.emit o).free = s.free := by cases s; rfl
@[simp] theorem State.emit_tcm (s : State) (o : Out) : (s.emit o).tcm = s.tcm := by cases s; rfl
@[simp] theorem State.emit_mram (s : State) (o : Out) : (s.emit o).mram = s.mram := by cases s; rfl
@[simp] theorem State.emit_hbm (s : State) (o : Out) : (s.emit o).hbm = s.hbm := by cases s; rfl
@[simp] theorem State.emit_deck (s : State) (o : Out) : (s.emit o).deck = s.deck := by cases s; rfl
@[simp] theorem State.emit_nt (s : State) (o : Out) : (s.emit o).nt = s.nt := by cases s; rfl
@[simp] theorem State.emit_clk (s : State) (o : Out) : (s.emit o).clk = s.clk := by cases s; rfl
@[simp] theorem State.emit_evt (s : State) (o : Out) : (s.emit o).evt = s.evt := by cases s; rfl
@[simp] theorem State.emit_sup (s : State) (o : Out) : (s.emit o).sup = s.sup := by cases s; rfl
@[simp] theorem State.emit_layers (s : State) (o : Out) : (s.emit o).layers = s.layers := by cases s; rfl
@[simp] theorem State.emit_combs (s : State) (o : Out) : (s.emit o).combs = s.combs := by cases s; rfl
@[simp] theorem State.emit_cells (s : State) (o : Out) : (s.emit o).cells = s.cells := by cases s; rfl
@[simp] theorem State.emit_boot (s : State) (o : Out) : (s.emit o).boot = s.boot := by cases s; rfl
@[simp] theorem State.emit_fs (s : State) (o : Out) : (s.emit o).fs = s.fs := by cases s; rfl
@[simp] theorem State.emit_nec (s : State) (o : Out) : (s.emit o).nec = s.nec := by cases s; rfl
@[simp] theorem State.emit_port (s : State) (o : Out) : (s.emit o).port = s.port := by cases s; rfl
@[simp] theorem State.emit_key (s : State) (o : Out) : (s.emit o).key = s.key := by cases s; rfl
@[simp] theorem State.emit_vdt (s : State) (o : Out) : (s.emit o).vdt = s.vdt := by cases s; rfl
@[simp] theorem State.emit_piers (s : State) (o : Out) : (s.emit o).piers = s.piers := by cases s; rfl
@[simp] theorem State.emit_hc (s : State) (o : Out) : (s.emit o).hc = s.hc := by cases s; rfl
@[simp] theorem State.emit_thm (s : State) (o : Out) : (s.emit o).thm = s.thm := by cases s; rfl
@[simp] theorem State.emit_cal (s : State) (o : Out) : (s.emit o).cal = s.cal := by cases s; rfl
@[simp] theorem State.emit_pwr (s : State) (o : Out) : (s.emit o).pwr = s.pwr := by cases s; rfl
@[simp] theorem State.emit_blt (s : State) (o : Out) : (s.emit o).blt = s.blt := by cases s; rfl
@[simp] theorem State.emit_mr (s : State) (o : Out) : (s.emit o).mr = s.mr := by cases s; rfl
@[simp] theorem State.emit_tap (s : State) (o : Out) : (s.emit o).tap = s.tap := by cases s; rfl

@[simp] theorem State.setCb_pending (s : State) (c : Nat) (x : Comb) : (s.setCb c x).pending = s.pending := by cases s; rfl
@[simp] theorem State.setCb_regs (s : State) (c : Nat) (x : Comb) : (s.setCb c x).regs = s.regs := by cases s; rfl
@[simp] theorem State.setCb_act (s : State) (c : Nat) (x : Comb) : (s.setCb c x).act = s.act := by cases s; rfl
@[simp] theorem State.setCb_dirty (s : State) (c : Nat) (x : Comb) : (s.setCb c x).dirty = s.dirty := by cases s; rfl
@[simp] theorem State.setCb_hostT (s : State) (c : Nat) (x : Comb) : (s.setCb c x).hostT = s.hostT := by cases s; rfl
@[simp] theorem State.setCb_caps (s : State) (c : Nat) (x : Comb) : (s.setCb c x).caps = s.caps := by cases s; rfl
@[simp] theorem State.setCb_free (s : State) (c : Nat) (x : Comb) : (s.setCb c x).free = s.free := by cases s; rfl
@[simp] theorem State.setCb_out (s : State) (c : Nat) (x : Comb) : (s.setCb c x).out = s.out := by cases s; rfl
@[simp] theorem State.setCb_tcm (s : State) (c : Nat) (x : Comb) : (s.setCb c x).tcm = s.tcm := by cases s; rfl
@[simp] theorem State.setCb_mram (s : State) (c : Nat) (x : Comb) : (s.setCb c x).mram = s.mram := by cases s; rfl
@[simp] theorem State.setCb_hbm (s : State) (c : Nat) (x : Comb) : (s.setCb c x).hbm = s.hbm := by cases s; rfl
@[simp] theorem State.setCb_deck (s : State) (c : Nat) (x : Comb) : (s.setCb c x).deck = s.deck := by cases s; rfl
@[simp] theorem State.setCb_nt (s : State) (c : Nat) (x : Comb) : (s.setCb c x).nt = s.nt := by cases s; rfl
@[simp] theorem State.setCb_clk (s : State) (c : Nat) (x : Comb) : (s.setCb c x).clk = s.clk := by cases s; rfl
@[simp] theorem State.setCb_evt (s : State) (c : Nat) (x : Comb) : (s.setCb c x).evt = s.evt := by cases s; rfl
@[simp] theorem State.setCb_sup (s : State) (c : Nat) (x : Comb) : (s.setCb c x).sup = s.sup := by cases s; rfl
@[simp] theorem State.setCb_layers (s : State) (c : Nat) (x : Comb) : (s.setCb c x).layers = s.layers := by cases s; rfl
@[simp] theorem State.setCb_cells (s : State) (c : Nat) (x : Comb) : (s.setCb c x).cells = s.cells := by cases s; rfl
@[simp] theorem State.setCb_boot (s : State) (c : Nat) (x : Comb) : (s.setCb c x).boot = s.boot := by cases s; rfl
@[simp] theorem State.setCb_fs (s : State) (c : Nat) (x : Comb) : (s.setCb c x).fs = s.fs := by cases s; rfl
@[simp] theorem State.setCb_nec (s : State) (c : Nat) (x : Comb) : (s.setCb c x).nec = s.nec := by cases s; rfl
@[simp] theorem State.setCb_port (s : State) (c : Nat) (x : Comb) : (s.setCb c x).port = s.port := by cases s; rfl
@[simp] theorem State.setCb_key (s : State) (c : Nat) (x : Comb) : (s.setCb c x).key = s.key := by cases s; rfl
@[simp] theorem State.setCb_vdt (s : State) (c : Nat) (x : Comb) : (s.setCb c x).vdt = s.vdt := by cases s; rfl
@[simp] theorem State.setCb_piers (s : State) (c : Nat) (x : Comb) : (s.setCb c x).piers = s.piers := by cases s; rfl
@[simp] theorem State.setCb_hc (s : State) (c : Nat) (x : Comb) : (s.setCb c x).hc = s.hc := by cases s; rfl
@[simp] theorem State.setCb_thm (s : State) (c : Nat) (x : Comb) : (s.setCb c x).thm = s.thm := by cases s; rfl
@[simp] theorem State.setCb_cal (s : State) (c : Nat) (x : Comb) : (s.setCb c x).cal = s.cal := by cases s; rfl
@[simp] theorem State.setCb_pwr (s : State) (c : Nat) (x : Comb) : (s.setCb c x).pwr = s.pwr := by cases s; rfl
@[simp] theorem State.setCb_blt (s : State) (c : Nat) (x : Comb) : (s.setCb c x).blt = s.blt := by cases s; rfl
@[simp] theorem State.setCb_mr (s : State) (c : Nat) (x : Comb) : (s.setCb c x).mr = s.mr := by cases s; rfl
@[simp] theorem State.setCb_tap (s : State) (c : Nat) (x : Comb) : (s.setCb c x).tap = s.tap := by cases s; rfl

@[simp] theorem State.setCell_pending (s : State) (c k : Nat) (x : Cell) : (s.setCell c k x).pending = s.pending := by cases s; rfl
@[simp] theorem State.setCell_regs (s : State) (c k : Nat) (x : Cell) : (s.setCell c k x).regs = s.regs := by cases s; rfl
@[simp] theorem State.setCell_act (s : State) (c k : Nat) (x : Cell) : (s.setCell c k x).act = s.act := by cases s; rfl
@[simp] theorem State.setCell_dirty (s : State) (c k : Nat) (x : Cell) : (s.setCell c k x).dirty = s.dirty := by cases s; rfl
@[simp] theorem State.setCell_hostT (s : State) (c k : Nat) (x : Cell) : (s.setCell c k x).hostT = s.hostT := by cases s; rfl
@[simp] theorem State.setCell_caps (s : State) (c k : Nat) (x : Cell) : (s.setCell c k x).caps = s.caps := by cases s; rfl
@[simp] theorem State.setCell_free (s : State) (c k : Nat) (x : Cell) : (s.setCell c k x).free = s.free := by cases s; rfl
@[simp] theorem State.setCell_out (s : State) (c k : Nat) (x : Cell) : (s.setCell c k x).out = s.out := by cases s; rfl
@[simp] theorem State.setCell_tcm (s : State) (c k : Nat) (x : Cell) : (s.setCell c k x).tcm = s.tcm := by cases s; rfl
@[simp] theorem State.setCell_mram (s : State) (c k : Nat) (x : Cell) : (s.setCell c k x).mram = s.mram := by cases s; rfl
@[simp] theorem State.setCell_hbm (s : State) (c k : Nat) (x : Cell) : (s.setCell c k x).hbm = s.hbm := by cases s; rfl
@[simp] theorem State.setCell_deck (s : State) (c k : Nat) (x : Cell) : (s.setCell c k x).deck = s.deck := by cases s; rfl
@[simp] theorem State.setCell_nt (s : State) (c k : Nat) (x : Cell) : (s.setCell c k x).nt = s.nt := by cases s; rfl
@[simp] theorem State.setCell_clk (s : State) (c k : Nat) (x : Cell) : (s.setCell c k x).clk = s.clk := by cases s; rfl
@[simp] theorem State.setCell_evt (s : State) (c k : Nat) (x : Cell) : (s.setCell c k x).evt = s.evt := by cases s; rfl
@[simp] theorem State.setCell_sup (s : State) (c k : Nat) (x : Cell) : (s.setCell c k x).sup = s.sup := by cases s; rfl
@[simp] theorem State.setCell_layers (s : State) (c k : Nat) (x : Cell) : (s.setCell c k x).layers = s.layers := by cases s; rfl
@[simp] theorem State.setCell_combs (s : State) (c k : Nat) (x : Cell) : (s.setCell c k x).combs = s.combs := by cases s; rfl
@[simp] theorem State.setCell_boot (s : State) (c k : Nat) (x : Cell) : (s.setCell c k x).boot = s.boot := by cases s; rfl
@[simp] theorem State.setCell_fs (s : State) (c k : Nat) (x : Cell) : (s.setCell c k x).fs = s.fs := by cases s; rfl
@[simp] theorem State.setCell_nec (s : State) (c k : Nat) (x : Cell) : (s.setCell c k x).nec = s.nec := by cases s; rfl
@[simp] theorem State.setCell_port (s : State) (c k : Nat) (x : Cell) : (s.setCell c k x).port = s.port := by cases s; rfl
@[simp] theorem State.setCell_key (s : State) (c k : Nat) (x : Cell) : (s.setCell c k x).key = s.key := by cases s; rfl
@[simp] theorem State.setCell_vdt (s : State) (c k : Nat) (x : Cell) : (s.setCell c k x).vdt = s.vdt := by cases s; rfl
@[simp] theorem State.setCell_piers (s : State) (c k : Nat) (x : Cell) : (s.setCell c k x).piers = s.piers := by cases s; rfl
@[simp] theorem State.setCell_hc (s : State) (c k : Nat) (x : Cell) : (s.setCell c k x).hc = s.hc := by cases s; rfl
@[simp] theorem State.setCell_thm (s : State) (c k : Nat) (x : Cell) : (s.setCell c k x).thm = s.thm := by cases s; rfl
@[simp] theorem State.setCell_cal (s : State) (c k : Nat) (x : Cell) : (s.setCell c k x).cal = s.cal := by cases s; rfl
@[simp] theorem State.setCell_pwr (s : State) (c k : Nat) (x : Cell) : (s.setCell c k x).pwr = s.pwr := by cases s; rfl
@[simp] theorem State.setCell_blt (s : State) (c k : Nat) (x : Cell) : (s.setCell c k x).blt = s.blt := by cases s; rfl
@[simp] theorem State.setCell_mr (s : State) (c k : Nat) (x : Cell) : (s.setCell c k x).mr = s.mr := by cases s; rfl
@[simp] theorem State.setCell_tap (s : State) (c k : Nat) (x : Cell) : (s.setCell c k x).tap = s.tap := by cases s; rfl

@[simp] theorem State.setPr_pending (s : State) (p : Nat) (x : PierSt) : (s.setPr p x).pending = s.pending := by cases s; rfl
@[simp] theorem State.setPr_regs (s : State) (p : Nat) (x : PierSt) : (s.setPr p x).regs = s.regs := by cases s; rfl
@[simp] theorem State.setPr_act (s : State) (p : Nat) (x : PierSt) : (s.setPr p x).act = s.act := by cases s; rfl
@[simp] theorem State.setPr_dirty (s : State) (p : Nat) (x : PierSt) : (s.setPr p x).dirty = s.dirty := by cases s; rfl
@[simp] theorem State.setPr_hostT (s : State) (p : Nat) (x : PierSt) : (s.setPr p x).hostT = s.hostT := by cases s; rfl
@[simp] theorem State.setPr_caps (s : State) (p : Nat) (x : PierSt) : (s.setPr p x).caps = s.caps := by cases s; rfl
@[simp] theorem State.setPr_free (s : State) (p : Nat) (x : PierSt) : (s.setPr p x).free = s.free := by cases s; rfl
@[simp] theorem State.setPr_out (s : State) (p : Nat) (x : PierSt) : (s.setPr p x).out = s.out := by cases s; rfl
@[simp] theorem State.setPr_tcm (s : State) (p : Nat) (x : PierSt) : (s.setPr p x).tcm = s.tcm := by cases s; rfl
@[simp] theorem State.setPr_mram (s : State) (p : Nat) (x : PierSt) : (s.setPr p x).mram = s.mram := by cases s; rfl
@[simp] theorem State.setPr_hbm (s : State) (p : Nat) (x : PierSt) : (s.setPr p x).hbm = s.hbm := by cases s; rfl
@[simp] theorem State.setPr_deck (s : State) (p : Nat) (x : PierSt) : (s.setPr p x).deck = s.deck := by cases s; rfl
@[simp] theorem State.setPr_nt (s : State) (p : Nat) (x : PierSt) : (s.setPr p x).nt = s.nt := by cases s; rfl
@[simp] theorem State.setPr_clk (s : State) (p : Nat) (x : PierSt) : (s.setPr p x).clk = s.clk := by cases s; rfl
@[simp] theorem State.setPr_evt (s : State) (p : Nat) (x : PierSt) : (s.setPr p x).evt = s.evt := by cases s; rfl
@[simp] theorem State.setPr_sup (s : State) (p : Nat) (x : PierSt) : (s.setPr p x).sup = s.sup := by cases s; rfl
@[simp] theorem State.setPr_layers (s : State) (p : Nat) (x : PierSt) : (s.setPr p x).layers = s.layers := by cases s; rfl
@[simp] theorem State.setPr_combs (s : State) (p : Nat) (x : PierSt) : (s.setPr p x).combs = s.combs := by cases s; rfl
@[simp] theorem State.setPr_cells (s : State) (p : Nat) (x : PierSt) : (s.setPr p x).cells = s.cells := by cases s; rfl
@[simp] theorem State.setPr_boot (s : State) (p : Nat) (x : PierSt) : (s.setPr p x).boot = s.boot := by cases s; rfl
@[simp] theorem State.setPr_fs (s : State) (p : Nat) (x : PierSt) : (s.setPr p x).fs = s.fs := by cases s; rfl
@[simp] theorem State.setPr_nec (s : State) (p : Nat) (x : PierSt) : (s.setPr p x).nec = s.nec := by cases s; rfl
@[simp] theorem State.setPr_port (s : State) (p : Nat) (x : PierSt) : (s.setPr p x).port = s.port := by cases s; rfl
@[simp] theorem State.setPr_key (s : State) (p : Nat) (x : PierSt) : (s.setPr p x).key = s.key := by cases s; rfl
@[simp] theorem State.setPr_vdt (s : State) (p : Nat) (x : PierSt) : (s.setPr p x).vdt = s.vdt := by cases s; rfl
@[simp] theorem State.setPr_hc (s : State) (p : Nat) (x : PierSt) : (s.setPr p x).hc = s.hc := by cases s; rfl
@[simp] theorem State.setPr_thm (s : State) (p : Nat) (x : PierSt) : (s.setPr p x).thm = s.thm := by cases s; rfl
@[simp] theorem State.setPr_cal (s : State) (p : Nat) (x : PierSt) : (s.setPr p x).cal = s.cal := by cases s; rfl
@[simp] theorem State.setPr_pwr (s : State) (p : Nat) (x : PierSt) : (s.setPr p x).pwr = s.pwr := by cases s; rfl
@[simp] theorem State.setPr_blt (s : State) (p : Nat) (x : PierSt) : (s.setPr p x).blt = s.blt := by cases s; rfl
@[simp] theorem State.setPr_mr (s : State) (p : Nat) (x : PierSt) : (s.setPr p x).mr = s.mr := by cases s; rfl
@[simp] theorem State.setPr_tap (s : State) (p : Nat) (x : PierSt) : (s.setPr p x).tap = s.tap := by cases s; rfl

@[simp] theorem State.setMp_tap (s : State) (x : Nat) (p : MrPort) : (s.setMp x p).tap = s.tap := by cases s; rfl
@[simp] theorem State.setMp_pending (s : State) (x : Nat) (p : MrPort) : (s.setMp x p).pending = s.pending := by cases s; rfl
@[simp] theorem State.setMp_regs (s : State) (x : Nat) (p : MrPort) : (s.setMp x p).regs = s.regs := by cases s; rfl
@[simp] theorem State.setMp_act (s : State) (x : Nat) (p : MrPort) : (s.setMp x p).act = s.act := by cases s; rfl
@[simp] theorem State.setMp_dirty (s : State) (x : Nat) (p : MrPort) : (s.setMp x p).dirty = s.dirty := by cases s; rfl
@[simp] theorem State.setMp_hostT (s : State) (x : Nat) (p : MrPort) : (s.setMp x p).hostT = s.hostT := by cases s; rfl
@[simp] theorem State.setMp_caps (s : State) (x : Nat) (p : MrPort) : (s.setMp x p).caps = s.caps := by cases s; rfl
@[simp] theorem State.setMp_free (s : State) (x : Nat) (p : MrPort) : (s.setMp x p).free = s.free := by cases s; rfl
@[simp] theorem State.setMp_out (s : State) (x : Nat) (p : MrPort) : (s.setMp x p).out = s.out := by cases s; rfl
@[simp] theorem State.setMp_tcm (s : State) (x : Nat) (p : MrPort) : (s.setMp x p).tcm = s.tcm := by cases s; rfl
@[simp] theorem State.setMp_mram (s : State) (x : Nat) (p : MrPort) : (s.setMp x p).mram = s.mram := by cases s; rfl
@[simp] theorem State.setMp_hbm (s : State) (x : Nat) (p : MrPort) : (s.setMp x p).hbm = s.hbm := by cases s; rfl
@[simp] theorem State.setMp_deck (s : State) (x : Nat) (p : MrPort) : (s.setMp x p).deck = s.deck := by cases s; rfl
@[simp] theorem State.setMp_nt (s : State) (x : Nat) (p : MrPort) : (s.setMp x p).nt = s.nt := by cases s; rfl
@[simp] theorem State.setMp_clk (s : State) (x : Nat) (p : MrPort) : (s.setMp x p).clk = s.clk := by cases s; rfl
@[simp] theorem State.setMp_evt (s : State) (x : Nat) (p : MrPort) : (s.setMp x p).evt = s.evt := by cases s; rfl
@[simp] theorem State.setMp_sup (s : State) (x : Nat) (p : MrPort) : (s.setMp x p).sup = s.sup := by cases s; rfl
@[simp] theorem State.setMp_layers (s : State) (x : Nat) (p : MrPort) : (s.setMp x p).layers = s.layers := by cases s; rfl
@[simp] theorem State.setMp_combs (s : State) (x : Nat) (p : MrPort) : (s.setMp x p).combs = s.combs := by cases s; rfl
@[simp] theorem State.setMp_cells (s : State) (x : Nat) (p : MrPort) : (s.setMp x p).cells = s.cells := by cases s; rfl
@[simp] theorem State.setMp_boot (s : State) (x : Nat) (p : MrPort) : (s.setMp x p).boot = s.boot := by cases s; rfl
@[simp] theorem State.setMp_fs (s : State) (x : Nat) (p : MrPort) : (s.setMp x p).fs = s.fs := by cases s; rfl
@[simp] theorem State.setMp_nec (s : State) (x : Nat) (p : MrPort) : (s.setMp x p).nec = s.nec := by cases s; rfl
@[simp] theorem State.setMp_port (s : State) (x : Nat) (p : MrPort) : (s.setMp x p).port = s.port := by cases s; rfl
@[simp] theorem State.setMp_key (s : State) (x : Nat) (p : MrPort) : (s.setMp x p).key = s.key := by cases s; rfl
@[simp] theorem State.setMp_vdt (s : State) (x : Nat) (p : MrPort) : (s.setMp x p).vdt = s.vdt := by cases s; rfl
@[simp] theorem State.setMp_piers (s : State) (x : Nat) (p : MrPort) : (s.setMp x p).piers = s.piers := by cases s; rfl
@[simp] theorem State.setMp_hc (s : State) (x : Nat) (p : MrPort) : (s.setMp x p).hc = s.hc := by cases s; rfl
@[simp] theorem State.setMp_thm (s : State) (x : Nat) (p : MrPort) : (s.setMp x p).thm = s.thm := by cases s; rfl
@[simp] theorem State.setMp_cal (s : State) (x : Nat) (p : MrPort) : (s.setMp x p).cal = s.cal := by cases s; rfl
@[simp] theorem State.setMp_pwr (s : State) (x : Nat) (p : MrPort) : (s.setMp x p).pwr = s.pwr := by cases s; rfl
@[simp] theorem State.setMp_blt (s : State) (x : Nat) (p : MrPort) : (s.setMp x p).blt = s.blt := by cases s; rfl

@[simp] theorem State.setCommits_pending (s : State) (cs : List Commit) : (s.setCommits cs).pending = s.pending := by cases s; rfl
@[simp] theorem State.setCommits_act (s : State) (cs : List Commit) : (s.setCommits cs).act = s.act := by cases s; rfl
@[simp] theorem State.setCommits_dirty (s : State) (cs : List Commit) : (s.setCommits cs).dirty = s.dirty := by cases s; rfl
@[simp] theorem State.setCommits_hostT (s : State) (cs : List Commit) : (s.setCommits cs).hostT = s.hostT := by cases s; rfl
@[simp] theorem State.setCommits_caps (s : State) (cs : List Commit) : (s.setCommits cs).caps = s.caps := by cases s; rfl
@[simp] theorem State.setCommits_free (s : State) (cs : List Commit) : (s.setCommits cs).free = s.free := by cases s; rfl
@[simp] theorem State.setCommits_out (s : State) (cs : List Commit) : (s.setCommits cs).out = s.out := by cases s; rfl
@[simp] theorem State.setCommits_tcm (s : State) (cs : List Commit) : (s.setCommits cs).tcm = s.tcm := by cases s; rfl
@[simp] theorem State.setCommits_mram (s : State) (cs : List Commit) : (s.setCommits cs).mram = s.mram := by cases s; rfl
@[simp] theorem State.setCommits_hbm (s : State) (cs : List Commit) : (s.setCommits cs).hbm = s.hbm := by cases s; rfl
@[simp] theorem State.setCommits_nt (s : State) (cs : List Commit) : (s.setCommits cs).nt = s.nt := by cases s; rfl
@[simp] theorem State.setCommits_clk (s : State) (cs : List Commit) : (s.setCommits cs).clk = s.clk := by cases s; rfl
@[simp] theorem State.setCommits_evt (s : State) (cs : List Commit) : (s.setCommits cs).evt = s.evt := by cases s; rfl
@[simp] theorem State.setCommits_sup (s : State) (cs : List Commit) : (s.setCommits cs).sup = s.sup := by cases s; rfl
@[simp] theorem State.setCommits_layers (s : State) (cs : List Commit) : (s.setCommits cs).layers = s.layers := by cases s; rfl
@[simp] theorem State.setCommits_combs (s : State) (cs : List Commit) : (s.setCommits cs).combs = s.combs := by cases s; rfl
@[simp] theorem State.setCommits_cells (s : State) (cs : List Commit) : (s.setCommits cs).cells = s.cells := by cases s; rfl
@[simp] theorem State.setCommits_boot (s : State) (cs : List Commit) : (s.setCommits cs).boot = s.boot := by cases s; rfl
@[simp] theorem State.setCommits_fs (s : State) (cs : List Commit) : (s.setCommits cs).fs = s.fs := by cases s; rfl
@[simp] theorem State.setCommits_nec (s : State) (cs : List Commit) : (s.setCommits cs).nec = s.nec := by cases s; rfl
@[simp] theorem State.setCommits_port (s : State) (cs : List Commit) : (s.setCommits cs).port = s.port := by cases s; rfl
@[simp] theorem State.setCommits_key (s : State) (cs : List Commit) : (s.setCommits cs).key = s.key := by cases s; rfl
@[simp] theorem State.setCommits_vdt (s : State) (cs : List Commit) : (s.setCommits cs).vdt = s.vdt := by cases s; rfl
@[simp] theorem State.setCommits_piers (s : State) (cs : List Commit) : (s.setCommits cs).piers = s.piers := by cases s; rfl
@[simp] theorem State.setCommits_hc (s : State) (cs : List Commit) : (s.setCommits cs).hc = s.hc := by cases s; rfl
@[simp] theorem State.setCommits_thm (s : State) (cs : List Commit) : (s.setCommits cs).thm = s.thm := by cases s; rfl
@[simp] theorem State.setCommits_cal (s : State) (cs : List Commit) : (s.setCommits cs).cal = s.cal := by cases s; rfl
@[simp] theorem State.setCommits_pwr (s : State) (cs : List Commit) : (s.setCommits cs).pwr = s.pwr := by cases s; rfl
@[simp] theorem State.setCommits_blt (s : State) (cs : List Commit) : (s.setCommits cs).blt = s.blt := by cases s; rfl
@[simp] theorem State.setCommits_mr (s : State) (cs : List Commit) : (s.setCommits cs).mr = s.mr := by cases s; rfl
@[simp] theorem State.setCommits_tap (s : State) (cs : List Commit) : (s.setCommits cs).tap = s.tap := by cases s; rfl

@[simp] theorem State.showNec_pending (s : State) (n : Nat) : (s.showNec n).pending = s.pending := by
  simp only [State.showNec, State.wr_pending]
@[simp] theorem State.setNecL_pending (s : State) (n : Nat) (l : NecLayer) : (s.setNecL n l).pending = s.pending := by
  simp only [State.setNecL, State.showNec_pending]
@[simp] theorem State.showNec_act (s : State) (n : Nat) : (s.showNec n).act = s.act := by
  simp only [State.showNec, State.wr_act]
@[simp] theorem State.setNecL_act (s : State) (n : Nat) (l : NecLayer) : (s.setNecL n l).act = s.act := by
  simp only [State.setNecL, State.showNec_act]
@[simp] theorem State.showNec_dirty (s : State) (n : Nat) : (s.showNec n).dirty = s.dirty := by
  simp only [State.showNec, State.wr_dirty]
@[simp] theorem State.setNecL_dirty (s : State) (n : Nat) (l : NecLayer) : (s.setNecL n l).dirty = s.dirty := by
  simp only [State.setNecL, State.showNec_dirty]
@[simp] theorem State.showNec_hostT (s : State) (n : Nat) : (s.showNec n).hostT = s.hostT := by
  simp only [State.showNec, State.wr_hostT]
@[simp] theorem State.setNecL_hostT (s : State) (n : Nat) (l : NecLayer) : (s.setNecL n l).hostT = s.hostT := by
  simp only [State.setNecL, State.showNec_hostT]
@[simp] theorem State.showNec_caps (s : State) (n : Nat) : (s.showNec n).caps = s.caps := by
  simp only [State.showNec, State.wr_caps]
@[simp] theorem State.setNecL_caps (s : State) (n : Nat) (l : NecLayer) : (s.setNecL n l).caps = s.caps := by
  simp only [State.setNecL, State.showNec_caps]
@[simp] theorem State.showNec_free (s : State) (n : Nat) : (s.showNec n).free = s.free := by
  simp only [State.showNec, State.wr_free]
@[simp] theorem State.setNecL_free (s : State) (n : Nat) (l : NecLayer) : (s.setNecL n l).free = s.free := by
  simp only [State.setNecL, State.showNec_free]
@[simp] theorem State.showNec_out (s : State) (n : Nat) : (s.showNec n).out = s.out := by
  simp only [State.showNec, State.wr_out]
@[simp] theorem State.setNecL_out (s : State) (n : Nat) (l : NecLayer) : (s.setNecL n l).out = s.out := by
  simp only [State.setNecL, State.showNec_out]
@[simp] theorem State.showNec_tcm (s : State) (n : Nat) : (s.showNec n).tcm = s.tcm := by
  simp only [State.showNec, State.wr_tcm]
@[simp] theorem State.setNecL_tcm (s : State) (n : Nat) (l : NecLayer) : (s.setNecL n l).tcm = s.tcm := by
  simp only [State.setNecL, State.showNec_tcm]
@[simp] theorem State.showNec_mram (s : State) (n : Nat) : (s.showNec n).mram = s.mram := by
  simp only [State.showNec, State.wr_mram]
@[simp] theorem State.setNecL_mram (s : State) (n : Nat) (l : NecLayer) : (s.setNecL n l).mram = s.mram := by
  simp only [State.setNecL, State.showNec_mram]
@[simp] theorem State.showNec_hbm (s : State) (n : Nat) : (s.showNec n).hbm = s.hbm := by
  simp only [State.showNec, State.wr_hbm]
@[simp] theorem State.setNecL_hbm (s : State) (n : Nat) (l : NecLayer) : (s.setNecL n l).hbm = s.hbm := by
  simp only [State.setNecL, State.showNec_hbm]
@[simp] theorem State.showNec_deck (s : State) (n : Nat) : (s.showNec n).deck = s.deck := by
  simp only [State.showNec, State.wr_deck]
@[simp] theorem State.setNecL_deck (s : State) (n : Nat) (l : NecLayer) : (s.setNecL n l).deck = s.deck := by
  simp only [State.setNecL, State.showNec_deck]
@[simp] theorem State.showNec_nt (s : State) (n : Nat) : (s.showNec n).nt = s.nt := by
  simp only [State.showNec, State.wr_nt]
@[simp] theorem State.setNecL_nt (s : State) (n : Nat) (l : NecLayer) : (s.setNecL n l).nt = s.nt := by
  simp only [State.setNecL, State.showNec_nt]
@[simp] theorem State.showNec_clk (s : State) (n : Nat) : (s.showNec n).clk = s.clk := by
  simp only [State.showNec, State.wr_clk]
@[simp] theorem State.setNecL_clk (s : State) (n : Nat) (l : NecLayer) : (s.setNecL n l).clk = s.clk := by
  simp only [State.setNecL, State.showNec_clk]
@[simp] theorem State.showNec_evt (s : State) (n : Nat) : (s.showNec n).evt = s.evt := by
  simp only [State.showNec, State.wr_evt]
@[simp] theorem State.setNecL_evt (s : State) (n : Nat) (l : NecLayer) : (s.setNecL n l).evt = s.evt := by
  simp only [State.setNecL, State.showNec_evt]
@[simp] theorem State.showNec_sup (s : State) (n : Nat) : (s.showNec n).sup = s.sup := by
  simp only [State.showNec, State.wr_sup]
@[simp] theorem State.setNecL_sup (s : State) (n : Nat) (l : NecLayer) : (s.setNecL n l).sup = s.sup := by
  simp only [State.setNecL, State.showNec_sup]
@[simp] theorem State.showNec_layers (s : State) (n : Nat) : (s.showNec n).layers = s.layers := by
  simp only [State.showNec, State.wr_layers]
@[simp] theorem State.setNecL_layers (s : State) (n : Nat) (l : NecLayer) : (s.setNecL n l).layers = s.layers := by
  simp only [State.setNecL, State.showNec_layers]
@[simp] theorem State.showNec_combs (s : State) (n : Nat) : (s.showNec n).combs = s.combs := by
  simp only [State.showNec, State.wr_combs]
@[simp] theorem State.setNecL_combs (s : State) (n : Nat) (l : NecLayer) : (s.setNecL n l).combs = s.combs := by
  simp only [State.setNecL, State.showNec_combs]
@[simp] theorem State.showNec_cells (s : State) (n : Nat) : (s.showNec n).cells = s.cells := by
  simp only [State.showNec, State.wr_cells]
@[simp] theorem State.setNecL_cells (s : State) (n : Nat) (l : NecLayer) : (s.setNecL n l).cells = s.cells := by
  simp only [State.setNecL, State.showNec_cells]
@[simp] theorem State.showNec_boot (s : State) (n : Nat) : (s.showNec n).boot = s.boot := by
  simp only [State.showNec, State.wr_boot]
@[simp] theorem State.setNecL_boot (s : State) (n : Nat) (l : NecLayer) : (s.setNecL n l).boot = s.boot := by
  simp only [State.setNecL, State.showNec_boot]
@[simp] theorem State.showNec_fs (s : State) (n : Nat) : (s.showNec n).fs = s.fs := by
  simp only [State.showNec, State.wr_fs]
@[simp] theorem State.setNecL_fs (s : State) (n : Nat) (l : NecLayer) : (s.setNecL n l).fs = s.fs := by
  simp only [State.setNecL, State.showNec_fs]
@[simp] theorem State.showNec_port (s : State) (n : Nat) : (s.showNec n).port = s.port := by
  simp only [State.showNec, State.wr_port]
@[simp] theorem State.setNecL_port (s : State) (n : Nat) (l : NecLayer) : (s.setNecL n l).port = s.port := by
  simp only [State.setNecL, State.showNec_port]
@[simp] theorem State.showNec_key (s : State) (n : Nat) : (s.showNec n).key = s.key := by
  simp only [State.showNec, State.wr_key]
@[simp] theorem State.setNecL_key (s : State) (n : Nat) (l : NecLayer) : (s.setNecL n l).key = s.key := by
  simp only [State.setNecL, State.showNec_key]
@[simp] theorem State.showNec_vdt (s : State) (n : Nat) : (s.showNec n).vdt = s.vdt := by
  simp only [State.showNec, State.wr_vdt]
@[simp] theorem State.setNecL_vdt (s : State) (n : Nat) (l : NecLayer) : (s.setNecL n l).vdt = s.vdt := by
  simp only [State.setNecL, State.showNec_vdt]
@[simp] theorem State.showNec_piers (s : State) (n : Nat) : (s.showNec n).piers = s.piers := by
  simp only [State.showNec, State.wr_piers]
@[simp] theorem State.setNecL_piers (s : State) (n : Nat) (l : NecLayer) : (s.setNecL n l).piers = s.piers := by
  simp only [State.setNecL, State.showNec_piers]
@[simp] theorem State.showNec_hc (s : State) (n : Nat) : (s.showNec n).hc = s.hc := by
  simp only [State.showNec, State.wr_hc]
@[simp] theorem State.setNecL_hc (s : State) (n : Nat) (l : NecLayer) : (s.setNecL n l).hc = s.hc := by
  simp only [State.setNecL, State.showNec_hc]
@[simp] theorem State.showNec_thm (s : State) (n : Nat) : (s.showNec n).thm = s.thm := by
  simp only [State.showNec, State.wr_thm]
@[simp] theorem State.setNecL_thm (s : State) (n : Nat) (l : NecLayer) : (s.setNecL n l).thm = s.thm := by
  simp only [State.setNecL, State.showNec_thm]
@[simp] theorem State.showNec_cal (s : State) (n : Nat) : (s.showNec n).cal = s.cal := by
  simp only [State.showNec, State.wr_cal]
@[simp] theorem State.setNecL_cal (s : State) (n : Nat) (l : NecLayer) : (s.setNecL n l).cal = s.cal := by
  simp only [State.setNecL, State.showNec_cal]
@[simp] theorem State.showNec_pwr (s : State) (n : Nat) : (s.showNec n).pwr = s.pwr := by
  simp only [State.showNec, State.wr_pwr]
@[simp] theorem State.setNecL_pwr (s : State) (n : Nat) (l : NecLayer) : (s.setNecL n l).pwr = s.pwr := by
  simp only [State.setNecL, State.showNec_pwr]
@[simp] theorem State.showNec_blt (s : State) (n : Nat) : (s.showNec n).blt = s.blt := by
  simp only [State.showNec, State.wr_blt]
@[simp] theorem State.setNecL_blt (s : State) (n : Nat) (l : NecLayer) : (s.setNecL n l).blt = s.blt := by
  simp only [State.setNecL, State.showNec_blt]
@[simp] theorem State.showNec_mr (s : State) (n : Nat) : (s.showNec n).mr = s.mr := by
  simp only [State.showNec, State.wr_mr]
@[simp] theorem State.showNec_tap (s : State) (n : Nat) : (s.showNec n).tap = s.tap := by
  simp only [State.showNec, State.wr_tap]
@[simp] theorem State.setNecL_mr (s : State) (n : Nat) (l : NecLayer) : (s.setNecL n l).mr = s.mr := by
  simp only [State.setNecL, State.showNec_mr]
@[simp] theorem State.setNecL_tap (s : State) (n : Nat) (l : NecLayer) : (s.setNecL n l).tap = s.tap := by
  simp only [State.setNecL, State.showNec_tap]

@[simp] theorem State.showQueues_pending (s : State) : (s.showQueues).pending = s.pending := by
  simp only [State.showQueues, State.wr_pending, State.set_pending]
@[simp] theorem State.setNecU_pending (s : State) (u : Nat) (x : NecUnit) : (s.setNecU u x).pending = s.pending := by
  simp only [State.setNecU, State.showQueues_pending]
@[simp] theorem State.showQueues_act (s : State) : (s.showQueues).act = s.act := by
  simp only [State.showQueues, State.wr_act, State.set_act]
@[simp] theorem State.setNecU_act (s : State) (u : Nat) (x : NecUnit) : (s.setNecU u x).act = s.act := by
  simp only [State.setNecU, State.showQueues_act]
@[simp] theorem State.showQueues_dirty (s : State) : (s.showQueues).dirty = s.dirty := by
  simp only [State.showQueues, State.wr_dirty, State.set_dirty]
@[simp] theorem State.setNecU_dirty (s : State) (u : Nat) (x : NecUnit) : (s.setNecU u x).dirty = s.dirty := by
  simp only [State.setNecU, State.showQueues_dirty]
@[simp] theorem State.showQueues_hostT (s : State) : (s.showQueues).hostT = s.hostT := by
  simp only [State.showQueues, State.wr_hostT, State.set_hostT]
@[simp] theorem State.setNecU_hostT (s : State) (u : Nat) (x : NecUnit) : (s.setNecU u x).hostT = s.hostT := by
  simp only [State.setNecU, State.showQueues_hostT]
@[simp] theorem State.showQueues_caps (s : State) : (s.showQueues).caps = s.caps := by
  simp only [State.showQueues, State.wr_caps, State.set_caps]
@[simp] theorem State.setNecU_caps (s : State) (u : Nat) (x : NecUnit) : (s.setNecU u x).caps = s.caps := by
  simp only [State.setNecU, State.showQueues_caps]
@[simp] theorem State.showQueues_free (s : State) : (s.showQueues).free = s.free := by
  simp only [State.showQueues, State.wr_free, State.set_free]
@[simp] theorem State.setNecU_free (s : State) (u : Nat) (x : NecUnit) : (s.setNecU u x).free = s.free := by
  simp only [State.setNecU, State.showQueues_free]
@[simp] theorem State.showQueues_out (s : State) : (s.showQueues).out = s.out := by
  simp only [State.showQueues, State.wr_out, State.set_out]
@[simp] theorem State.setNecU_out (s : State) (u : Nat) (x : NecUnit) : (s.setNecU u x).out = s.out := by
  simp only [State.setNecU, State.showQueues_out]
@[simp] theorem State.showQueues_tcm (s : State) : (s.showQueues).tcm = s.tcm := by
  simp only [State.showQueues, State.wr_tcm, State.set_tcm]
@[simp] theorem State.setNecU_tcm (s : State) (u : Nat) (x : NecUnit) : (s.setNecU u x).tcm = s.tcm := by
  simp only [State.setNecU, State.showQueues_tcm]
@[simp] theorem State.showQueues_mram (s : State) : (s.showQueues).mram = s.mram := by
  simp only [State.showQueues, State.wr_mram, State.set_mram]
@[simp] theorem State.setNecU_mram (s : State) (u : Nat) (x : NecUnit) : (s.setNecU u x).mram = s.mram := by
  simp only [State.setNecU, State.showQueues_mram]
@[simp] theorem State.showQueues_hbm (s : State) : (s.showQueues).hbm = s.hbm := by
  simp only [State.showQueues, State.wr_hbm, State.set_hbm]
@[simp] theorem State.setNecU_hbm (s : State) (u : Nat) (x : NecUnit) : (s.setNecU u x).hbm = s.hbm := by
  simp only [State.setNecU, State.showQueues_hbm]
@[simp] theorem State.showQueues_deck (s : State) : (s.showQueues).deck = s.deck := by
  simp only [State.showQueues, State.wr_deck, State.set_deck]
@[simp] theorem State.setNecU_deck (s : State) (u : Nat) (x : NecUnit) : (s.setNecU u x).deck = s.deck := by
  simp only [State.setNecU, State.showQueues_deck]
@[simp] theorem State.showQueues_nt (s : State) : (s.showQueues).nt = s.nt := by
  simp only [State.showQueues, State.wr_nt, State.set_nt]
@[simp] theorem State.setNecU_nt (s : State) (u : Nat) (x : NecUnit) : (s.setNecU u x).nt = s.nt := by
  simp only [State.setNecU, State.showQueues_nt]
@[simp] theorem State.showQueues_clk (s : State) : (s.showQueues).clk = s.clk := by
  simp only [State.showQueues, State.wr_clk, State.set_clk]
@[simp] theorem State.setNecU_clk (s : State) (u : Nat) (x : NecUnit) : (s.setNecU u x).clk = s.clk := by
  simp only [State.setNecU, State.showQueues_clk]
@[simp] theorem State.showQueues_evt (s : State) : (s.showQueues).evt = s.evt := by
  simp only [State.showQueues, State.wr_evt, State.set_evt]
@[simp] theorem State.setNecU_evt (s : State) (u : Nat) (x : NecUnit) : (s.setNecU u x).evt = s.evt := by
  simp only [State.setNecU, State.showQueues_evt]
@[simp] theorem State.showQueues_sup (s : State) : (s.showQueues).sup = s.sup := by
  simp only [State.showQueues, State.wr_sup, State.set_sup]
@[simp] theorem State.setNecU_sup (s : State) (u : Nat) (x : NecUnit) : (s.setNecU u x).sup = s.sup := by
  simp only [State.setNecU, State.showQueues_sup]
@[simp] theorem State.showQueues_layers (s : State) : (s.showQueues).layers = s.layers := by
  simp only [State.showQueues, State.wr_layers, State.set_layers]
@[simp] theorem State.setNecU_layers (s : State) (u : Nat) (x : NecUnit) : (s.setNecU u x).layers = s.layers := by
  simp only [State.setNecU, State.showQueues_layers]
@[simp] theorem State.showQueues_combs (s : State) : (s.showQueues).combs = s.combs := by
  simp only [State.showQueues, State.wr_combs, State.set_combs]
@[simp] theorem State.setNecU_combs (s : State) (u : Nat) (x : NecUnit) : (s.setNecU u x).combs = s.combs := by
  simp only [State.setNecU, State.showQueues_combs]
@[simp] theorem State.showQueues_cells (s : State) : (s.showQueues).cells = s.cells := by
  simp only [State.showQueues, State.wr_cells, State.set_cells]
@[simp] theorem State.setNecU_cells (s : State) (u : Nat) (x : NecUnit) : (s.setNecU u x).cells = s.cells := by
  simp only [State.setNecU, State.showQueues_cells]
@[simp] theorem State.showQueues_boot (s : State) : (s.showQueues).boot = s.boot := by
  simp only [State.showQueues, State.wr_boot, State.set_boot]
@[simp] theorem State.setNecU_boot (s : State) (u : Nat) (x : NecUnit) : (s.setNecU u x).boot = s.boot := by
  simp only [State.setNecU, State.showQueues_boot]
@[simp] theorem State.showQueues_fs (s : State) : (s.showQueues).fs = s.fs := by
  simp only [State.showQueues, State.wr_fs, State.set_fs]
@[simp] theorem State.setNecU_fs (s : State) (u : Nat) (x : NecUnit) : (s.setNecU u x).fs = s.fs := by
  simp only [State.setNecU, State.showQueues_fs]
@[simp] theorem State.showQueues_port (s : State) : (s.showQueues).port = s.port := by
  simp only [State.showQueues, State.wr_port, State.set_port]
@[simp] theorem State.setNecU_port (s : State) (u : Nat) (x : NecUnit) : (s.setNecU u x).port = s.port := by
  simp only [State.setNecU, State.showQueues_port]
@[simp] theorem State.showQueues_key (s : State) : (s.showQueues).key = s.key := by
  simp only [State.showQueues, State.wr_key, State.set_key]
@[simp] theorem State.setNecU_key (s : State) (u : Nat) (x : NecUnit) : (s.setNecU u x).key = s.key := by
  simp only [State.setNecU, State.showQueues_key]
@[simp] theorem State.showQueues_vdt (s : State) : (s.showQueues).vdt = s.vdt := by
  simp only [State.showQueues, State.wr_vdt, State.set_vdt]
@[simp] theorem State.setNecU_vdt (s : State) (u : Nat) (x : NecUnit) : (s.setNecU u x).vdt = s.vdt := by
  simp only [State.setNecU, State.showQueues_vdt]
@[simp] theorem State.showQueues_piers (s : State) : (s.showQueues).piers = s.piers := by
  simp only [State.showQueues, State.wr_piers, State.set_piers]
@[simp] theorem State.setNecU_piers (s : State) (u : Nat) (x : NecUnit) : (s.setNecU u x).piers = s.piers := by
  simp only [State.setNecU, State.showQueues_piers]
@[simp] theorem State.showQueues_hc (s : State) : (s.showQueues).hc = s.hc := by
  simp only [State.showQueues, State.wr_hc, State.set_hc]
@[simp] theorem State.setNecU_hc (s : State) (u : Nat) (x : NecUnit) : (s.setNecU u x).hc = s.hc := by
  simp only [State.setNecU, State.showQueues_hc]
@[simp] theorem State.showQueues_thm (s : State) : (s.showQueues).thm = s.thm := by
  simp only [State.showQueues, State.wr_thm, State.set_thm]
@[simp] theorem State.setNecU_thm (s : State) (u : Nat) (x : NecUnit) : (s.setNecU u x).thm = s.thm := by
  simp only [State.setNecU, State.showQueues_thm]
@[simp] theorem State.showQueues_cal (s : State) : (s.showQueues).cal = s.cal := by
  simp only [State.showQueues, State.wr_cal, State.set_cal]
@[simp] theorem State.setNecU_cal (s : State) (u : Nat) (x : NecUnit) : (s.setNecU u x).cal = s.cal := by
  simp only [State.setNecU, State.showQueues_cal]
@[simp] theorem State.showQueues_pwr (s : State) : (s.showQueues).pwr = s.pwr := by
  simp only [State.showQueues, State.wr_pwr, State.set_pwr]
@[simp] theorem State.setNecU_pwr (s : State) (u : Nat) (x : NecUnit) : (s.setNecU u x).pwr = s.pwr := by
  simp only [State.setNecU, State.showQueues_pwr]
@[simp] theorem State.showQueues_blt (s : State) : (s.showQueues).blt = s.blt := by
  simp only [State.showQueues, State.wr_blt, State.set_blt]
@[simp] theorem State.setNecU_blt (s : State) (u : Nat) (x : NecUnit) : (s.setNecU u x).blt = s.blt := by
  simp only [State.setNecU, State.showQueues_blt]
@[simp] theorem State.showQueues_mr (s : State) : (s.showQueues).mr = s.mr := by
  simp only [State.showQueues, State.wr_mr, State.set_mr]
@[simp] theorem State.showQueues_tap (s : State) : (s.showQueues).tap = s.tap := by
  simp only [State.showQueues, State.wr_tap, State.set_tap]
@[simp] theorem State.setNecU_mr (s : State) (u : Nat) (x : NecUnit) : (s.setNecU u x).mr = s.mr := by
  simp only [State.setNecU, State.showQueues_mr]
@[simp] theorem State.setNecU_tap (s : State) (u : Nat) (x : NecUnit) : (s.setNecU u x).tap = s.tap := by
  simp only [State.setNecU, State.showQueues_tap]

@[simp] theorem State.setVp_pending (s : State) (p : Nat) (v : VPier) : (s.setVp p v).pending = s.pending := by cases s; rfl
@[simp] theorem State.setVp_regs (s : State) (p : Nat) (v : VPier) : (s.setVp p v).regs = s.regs := by cases s; rfl
@[simp] theorem State.setVp_act (s : State) (p : Nat) (v : VPier) : (s.setVp p v).act = s.act := by cases s; rfl
@[simp] theorem State.setVp_dirty (s : State) (p : Nat) (v : VPier) : (s.setVp p v).dirty = s.dirty := by cases s; rfl
@[simp] theorem State.setVp_hostT (s : State) (p : Nat) (v : VPier) : (s.setVp p v).hostT = s.hostT := by cases s; rfl
@[simp] theorem State.setVp_caps (s : State) (p : Nat) (v : VPier) : (s.setVp p v).caps = s.caps := by cases s; rfl
@[simp] theorem State.setVp_free (s : State) (p : Nat) (v : VPier) : (s.setVp p v).free = s.free := by cases s; rfl
@[simp] theorem State.setVp_out (s : State) (p : Nat) (v : VPier) : (s.setVp p v).out = s.out := by cases s; rfl
@[simp] theorem State.setVp_tcm (s : State) (p : Nat) (v : VPier) : (s.setVp p v).tcm = s.tcm := by cases s; rfl
@[simp] theorem State.setVp_mram (s : State) (p : Nat) (v : VPier) : (s.setVp p v).mram = s.mram := by cases s; rfl
@[simp] theorem State.setVp_hbm (s : State) (p : Nat) (v : VPier) : (s.setVp p v).hbm = s.hbm := by cases s; rfl
@[simp] theorem State.setVp_deck (s : State) (p : Nat) (v : VPier) : (s.setVp p v).deck = s.deck := by cases s; rfl
@[simp] theorem State.setVp_nt (s : State) (p : Nat) (v : VPier) : (s.setVp p v).nt = s.nt := by cases s; rfl
@[simp] theorem State.setVp_clk (s : State) (p : Nat) (v : VPier) : (s.setVp p v).clk = s.clk := by cases s; rfl
@[simp] theorem State.setVp_evt (s : State) (p : Nat) (v : VPier) : (s.setVp p v).evt = s.evt := by cases s; rfl
@[simp] theorem State.setVp_sup (s : State) (p : Nat) (v : VPier) : (s.setVp p v).sup = s.sup := by cases s; rfl
@[simp] theorem State.setVp_layers (s : State) (p : Nat) (v : VPier) : (s.setVp p v).layers = s.layers := by cases s; rfl
@[simp] theorem State.setVp_combs (s : State) (p : Nat) (v : VPier) : (s.setVp p v).combs = s.combs := by cases s; rfl
@[simp] theorem State.setVp_cells (s : State) (p : Nat) (v : VPier) : (s.setVp p v).cells = s.cells := by cases s; rfl
@[simp] theorem State.setVp_boot (s : State) (p : Nat) (v : VPier) : (s.setVp p v).boot = s.boot := by cases s; rfl
@[simp] theorem State.setVp_fs (s : State) (p : Nat) (v : VPier) : (s.setVp p v).fs = s.fs := by cases s; rfl
@[simp] theorem State.setVp_nec (s : State) (p : Nat) (v : VPier) : (s.setVp p v).nec = s.nec := by cases s; rfl
@[simp] theorem State.setVp_port (s : State) (p : Nat) (v : VPier) : (s.setVp p v).port = s.port := by cases s; rfl
@[simp] theorem State.setVp_key (s : State) (p : Nat) (v : VPier) : (s.setVp p v).key = s.key := by cases s; rfl
@[simp] theorem State.setVp_piers (s : State) (p : Nat) (v : VPier) : (s.setVp p v).piers = s.piers := by cases s; rfl
@[simp] theorem State.setVp_hc (s : State) (p : Nat) (v : VPier) : (s.setVp p v).hc = s.hc := by cases s; rfl
@[simp] theorem State.setVp_thm (s : State) (p : Nat) (v : VPier) : (s.setVp p v).thm = s.thm := by cases s; rfl
@[simp] theorem State.setVp_cal (s : State) (p : Nat) (v : VPier) : (s.setVp p v).cal = s.cal := by cases s; rfl
@[simp] theorem State.setVp_pwr (s : State) (p : Nat) (v : VPier) : (s.setVp p v).pwr = s.pwr := by cases s; rfl
@[simp] theorem State.setVp_blt (s : State) (p : Nat) (v : VPier) : (s.setVp p v).blt = s.blt := by cases s; rfl
@[simp] theorem State.setVp_mr (s : State) (p : Nat) (v : VPier) : (s.setVp p v).mr = s.mr := by cases s; rfl
@[simp] theorem State.setVp_tap (s : State) (p : Nat) (v : VPier) : (s.setVp p v).tap = s.tap := by cases s; rfl

@[simp] theorem State.setVg_pending (s : State) (g : Nat) (v : VGroup) : (s.setVg g v).pending = s.pending := by cases s; rfl
@[simp] theorem State.setVg_regs (s : State) (g : Nat) (v : VGroup) : (s.setVg g v).regs = s.regs := by cases s; rfl
@[simp] theorem State.setVg_act (s : State) (g : Nat) (v : VGroup) : (s.setVg g v).act = s.act := by cases s; rfl
@[simp] theorem State.setVg_dirty (s : State) (g : Nat) (v : VGroup) : (s.setVg g v).dirty = s.dirty := by cases s; rfl
@[simp] theorem State.setVg_hostT (s : State) (g : Nat) (v : VGroup) : (s.setVg g v).hostT = s.hostT := by cases s; rfl
@[simp] theorem State.setVg_caps (s : State) (g : Nat) (v : VGroup) : (s.setVg g v).caps = s.caps := by cases s; rfl
@[simp] theorem State.setVg_free (s : State) (g : Nat) (v : VGroup) : (s.setVg g v).free = s.free := by cases s; rfl
@[simp] theorem State.setVg_out (s : State) (g : Nat) (v : VGroup) : (s.setVg g v).out = s.out := by cases s; rfl
@[simp] theorem State.setVg_tcm (s : State) (g : Nat) (v : VGroup) : (s.setVg g v).tcm = s.tcm := by cases s; rfl
@[simp] theorem State.setVg_mram (s : State) (g : Nat) (v : VGroup) : (s.setVg g v).mram = s.mram := by cases s; rfl
@[simp] theorem State.setVg_hbm (s : State) (g : Nat) (v : VGroup) : (s.setVg g v).hbm = s.hbm := by cases s; rfl
@[simp] theorem State.setVg_deck (s : State) (g : Nat) (v : VGroup) : (s.setVg g v).deck = s.deck := by cases s; rfl
@[simp] theorem State.setVg_nt (s : State) (g : Nat) (v : VGroup) : (s.setVg g v).nt = s.nt := by cases s; rfl
@[simp] theorem State.setVg_clk (s : State) (g : Nat) (v : VGroup) : (s.setVg g v).clk = s.clk := by cases s; rfl
@[simp] theorem State.setVg_evt (s : State) (g : Nat) (v : VGroup) : (s.setVg g v).evt = s.evt := by cases s; rfl
@[simp] theorem State.setVg_sup (s : State) (g : Nat) (v : VGroup) : (s.setVg g v).sup = s.sup := by cases s; rfl
@[simp] theorem State.setVg_layers (s : State) (g : Nat) (v : VGroup) : (s.setVg g v).layers = s.layers := by cases s; rfl
@[simp] theorem State.setVg_combs (s : State) (g : Nat) (v : VGroup) : (s.setVg g v).combs = s.combs := by cases s; rfl
@[simp] theorem State.setVg_cells (s : State) (g : Nat) (v : VGroup) : (s.setVg g v).cells = s.cells := by cases s; rfl
@[simp] theorem State.setVg_boot (s : State) (g : Nat) (v : VGroup) : (s.setVg g v).boot = s.boot := by cases s; rfl
@[simp] theorem State.setVg_fs (s : State) (g : Nat) (v : VGroup) : (s.setVg g v).fs = s.fs := by cases s; rfl
@[simp] theorem State.setVg_nec (s : State) (g : Nat) (v : VGroup) : (s.setVg g v).nec = s.nec := by cases s; rfl
@[simp] theorem State.setVg_port (s : State) (g : Nat) (v : VGroup) : (s.setVg g v).port = s.port := by cases s; rfl
@[simp] theorem State.setVg_key (s : State) (g : Nat) (v : VGroup) : (s.setVg g v).key = s.key := by cases s; rfl
@[simp] theorem State.setVg_piers (s : State) (g : Nat) (v : VGroup) : (s.setVg g v).piers = s.piers := by cases s; rfl
@[simp] theorem State.setVg_hc (s : State) (g : Nat) (v : VGroup) : (s.setVg g v).hc = s.hc := by cases s; rfl
@[simp] theorem State.setVg_thm (s : State) (g : Nat) (v : VGroup) : (s.setVg g v).thm = s.thm := by cases s; rfl
@[simp] theorem State.setVg_cal (s : State) (g : Nat) (v : VGroup) : (s.setVg g v).cal = s.cal := by cases s; rfl
@[simp] theorem State.setVg_pwr (s : State) (g : Nat) (v : VGroup) : (s.setVg g v).pwr = s.pwr := by cases s; rfl
@[simp] theorem State.setVg_blt (s : State) (g : Nat) (v : VGroup) : (s.setVg g v).blt = s.blt := by cases s; rfl
@[simp] theorem State.setVg_mr (s : State) (g : Nat) (v : VGroup) : (s.setVg g v).mr = s.mr := by cases s; rfl
@[simp] theorem State.setVg_tap (s : State) (g : Nat) (v : VGroup) : (s.setVg g v).tap = s.tap := by cases s; rfl

@[simp] theorem State.setTxq_pending (s : State) (x : Nat) (q : List (List Word)) : (s.setTxq x q).pending = s.pending := by cases s; rfl
@[simp] theorem State.setTxq_act (s : State) (x : Nat) (q : List (List Word)) : (s.setTxq x q).act = s.act := by cases s; rfl
@[simp] theorem State.setTxq_dirty (s : State) (x : Nat) (q : List (List Word)) : (s.setTxq x q).dirty = s.dirty := by cases s; rfl
@[simp] theorem State.setTxq_hostT (s : State) (x : Nat) (q : List (List Word)) : (s.setTxq x q).hostT = s.hostT := by cases s; rfl
@[simp] theorem State.setTxq_caps (s : State) (x : Nat) (q : List (List Word)) : (s.setTxq x q).caps = s.caps := by cases s; rfl
@[simp] theorem State.setTxq_free (s : State) (x : Nat) (q : List (List Word)) : (s.setTxq x q).free = s.free := by cases s; rfl
@[simp] theorem State.setTxq_out (s : State) (x : Nat) (q : List (List Word)) : (s.setTxq x q).out = s.out := by cases s; rfl
@[simp] theorem State.setTxq_tcm (s : State) (x : Nat) (q : List (List Word)) : (s.setTxq x q).tcm = s.tcm := by cases s; rfl
@[simp] theorem State.setTxq_mram (s : State) (x : Nat) (q : List (List Word)) : (s.setTxq x q).mram = s.mram := by cases s; rfl
@[simp] theorem State.setTxq_hbm (s : State) (x : Nat) (q : List (List Word)) : (s.setTxq x q).hbm = s.hbm := by cases s; rfl
@[simp] theorem State.setTxq_deck (s : State) (x : Nat) (q : List (List Word)) : (s.setTxq x q).deck = s.deck := by cases s; rfl
@[simp] theorem State.setTxq_clk (s : State) (x : Nat) (q : List (List Word)) : (s.setTxq x q).clk = s.clk := by cases s; rfl
@[simp] theorem State.setTxq_evt (s : State) (x : Nat) (q : List (List Word)) : (s.setTxq x q).evt = s.evt := by cases s; rfl
@[simp] theorem State.setTxq_sup (s : State) (x : Nat) (q : List (List Word)) : (s.setTxq x q).sup = s.sup := by cases s; rfl
@[simp] theorem State.setTxq_layers (s : State) (x : Nat) (q : List (List Word)) : (s.setTxq x q).layers = s.layers := by cases s; rfl
@[simp] theorem State.setTxq_combs (s : State) (x : Nat) (q : List (List Word)) : (s.setTxq x q).combs = s.combs := by cases s; rfl
@[simp] theorem State.setTxq_cells (s : State) (x : Nat) (q : List (List Word)) : (s.setTxq x q).cells = s.cells := by cases s; rfl
@[simp] theorem State.setTxq_boot (s : State) (x : Nat) (q : List (List Word)) : (s.setTxq x q).boot = s.boot := by cases s; rfl
@[simp] theorem State.setTxq_fs (s : State) (x : Nat) (q : List (List Word)) : (s.setTxq x q).fs = s.fs := by cases s; rfl
@[simp] theorem State.setTxq_nec (s : State) (x : Nat) (q : List (List Word)) : (s.setTxq x q).nec = s.nec := by cases s; rfl
@[simp] theorem State.setTxq_port (s : State) (x : Nat) (q : List (List Word)) : (s.setTxq x q).port = s.port := by cases s; rfl
@[simp] theorem State.setTxq_key (s : State) (x : Nat) (q : List (List Word)) : (s.setTxq x q).key = s.key := by cases s; rfl
@[simp] theorem State.setTxq_vdt (s : State) (x : Nat) (q : List (List Word)) : (s.setTxq x q).vdt = s.vdt := by cases s; rfl
@[simp] theorem State.setTxq_piers (s : State) (x : Nat) (q : List (List Word)) : (s.setTxq x q).piers = s.piers := by cases s; rfl
@[simp] theorem State.setTxq_hc (s : State) (x : Nat) (q : List (List Word)) : (s.setTxq x q).hc = s.hc := by cases s; rfl
@[simp] theorem State.setTxq_thm (s : State) (x : Nat) (q : List (List Word)) : (s.setTxq x q).thm = s.thm := by cases s; rfl
@[simp] theorem State.setTxq_cal (s : State) (x : Nat) (q : List (List Word)) : (s.setTxq x q).cal = s.cal := by cases s; rfl
@[simp] theorem State.setTxq_pwr (s : State) (x : Nat) (q : List (List Word)) : (s.setTxq x q).pwr = s.pwr := by cases s; rfl
@[simp] theorem State.setTxq_blt (s : State) (x : Nat) (q : List (List Word)) : (s.setTxq x q).blt = s.blt := by cases s; rfl
@[simp] theorem State.setTxq_mr (s : State) (x : Nat) (q : List (List Word)) : (s.setTxq x q).mr = s.mr := by cases s; rfl
@[simp] theorem State.setTxq_tap (s : State) (x : Nat) (q : List (List Word)) : (s.setTxq x q).tap = s.tap := by cases s; rfl

/-! Registers and fields. -/

theorem State.rd_wr (s : State) (a : Nat) (v : Word) (b : Nat) : (s.wr a v).rd b = if b = a then v else s.rd b := by
  by_cases h : b = a
  · subst h; rw [if_pos rfl]; exact Table.get_set_same _ _ _ _
  · rw [if_neg h]; exact Table.get_set_ne _ _ _ h

@[simp] theorem State.rd_wr_same (s : State) (a : Nat) (v : Word) : (s.wr a v).rd a = v := by
  rw [State.rd_wr, if_pos rfl]

theorem State.rd_wr_ne (s : State) {a b : Nat} (v : Word) (h : b ≠ a) : (s.wr a v).rd b = s.rd b := by
  rw [State.rd_wr, if_neg h]

theorem State.rd_set_ne (s : State) (f : Field) (v : Nat) {b : Nat} (h : b ≠ f.addr) : (s.set f v).rd b = s.rd b :=
  State.rd_wr_ne s _ h

@[simp] theorem State.rd_set_same (s : State) (f : Field) (v : Nat) : (s.set f v).rd f.addr = putField (s.rd f.addr) f v :=
  State.rd_wr_same s _ _

theorem mod_two_pow_div_mod (x l n : Nat) (h : l + n ≤ 32) : x % 2 ^ 32 / 2 ^ l % 2 ^ n = x / 2 ^ l % 2 ^ n := by
  apply Nat.eq_of_testBit_eq
  intro i
  simp only [Nat.testBit_mod_two_pow, Nat.testBit_div_two_pow]
  by_cases hi : i < n
  · simp [hi, show i + l < 32 by omega]
  · simp [hi]

/-- A field just put holds the low bits of the value. -/
theorem fieldOf_putField (w : Word) (f : Field) (v : Nat) (h : f.lo + f.len ≤ 32) :
    fieldOf (putField w f v) f = v % 2 ^ f.len := by
  obtain ⟨a, l, n⟩ := f
  simp only at h
  simp only [fieldOf, putField, word, BitVec.toNat_ofNat]
  rw [mod_two_pow_div_mod _ _ _ h]
  have h1 : w.toNat % 2 ^ l < 2 ^ l := Nat.mod_lt _ (Nat.two_pow_pos l)
  have e : w.toNat % 2 ^ l + v % 2 ^ n * 2 ^ l + w.toNat / 2 ^ (l + n) * 2 ^ (l + n)
      = w.toNat % 2 ^ l + 2 ^ l * (v % 2 ^ n + 2 ^ n * (w.toNat / 2 ^ (l + n))) := by
    rw [Nat.pow_add 2 l n, Nat.mul_add, Nat.mul_comm (v % 2 ^ n), Nat.mul_comm (w.toNat / _), Nat.mul_assoc, Nat.add_assoc]
  rw [e, Nat.add_mul_div_left _ _ (Nat.two_pow_pos l), Nat.div_eq_of_lt h1, Nat.zero_add, Nat.add_mul_mod_self_left, Nat.mod_mod]

/-- A field is unchanged when one that does not overlap it is put. -/
theorem fieldOf_putField_disjoint (w : Word) (f g : Field) (v : Nat) (hg : g.lo + g.len ≤ 32)
    (hd : f.lo + f.len ≤ g.lo ∨ g.lo + g.len ≤ f.lo) : fieldOf (putField w f v) g = fieldOf w g := by
  obtain ⟨a, l, n⟩ := f
  obtain ⟨a', l', n'⟩ := g
  simp only at hg hd
  simp only [fieldOf, putField, word, BitVec.toNat_ofNat]
  rw [mod_two_pow_div_mod _ _ _ hg]
  generalize w.toNat = w
  have h1 : w % 2 ^ l < 2 ^ l := Nat.mod_lt _ (Nat.two_pow_pos l)
  have h2 : v % 2 ^ n < 2 ^ n := Nat.mod_lt _ (Nat.two_pow_pos n)
  rcases hd with hd | hd
  · obtain ⟨k, rfl⟩ := Nat.exists_eq_add_of_le hd
    have hlt : w % 2 ^ l + v % 2 ^ n * 2 ^ l < 2 ^ (l + n) := by
      have h3 := Nat.mul_le_mul_right (2 ^ l) (Nat.succ_le_of_lt h2)
      rw [Nat.succ_mul] at h3
      rw [Nat.pow_add 2 l n, Nat.mul_comm (2 ^ l)]
      omega
    have h4 : (w % 2 ^ l + v % 2 ^ n * 2 ^ l + w / 2 ^ (l + n) * 2 ^ (l + n)) / 2 ^ (l + n + k) = w / 2 ^ (l + n + k) := by
      rw [Nat.pow_add 2 (l + n) k, ← Nat.div_div_eq_div_mul, ← Nat.div_div_eq_div_mul,
        Nat.add_mul_div_right _ _ (Nat.two_pow_pos _), Nat.div_eq_of_lt hlt, Nat.zero_add]
    rw [h4]
  · obtain ⟨k, rfl⟩ := Nat.exists_eq_add_of_le hd
    have e : w % 2 ^ (l' + n' + k) + v % 2 ^ n * 2 ^ (l' + n' + k) + w / 2 ^ (l' + n' + k + n) * 2 ^ (l' + n' + k + n)
        = w % 2 ^ (l' + n' + k) + 2 ^ (l' + n' + k) * (v % 2 ^ n + 2 ^ n * (w / 2 ^ (l' + n' + k + n))) := by
      rw [Nat.pow_add 2 (l' + n' + k) n, Nat.mul_add, Nat.mul_comm (v % 2 ^ n), Nat.mul_comm (w / _), Nat.mul_assoc, Nat.add_assoc]
    rw [e]
    apply Nat.eq_of_testBit_eq
    intro i
    simp only [Nat.testBit_mod_two_pow, Nat.testBit_div_two_pow]
    by_cases hi : i < n'
    · simp only [hi, decide_true, Bool.true_and]
      rw [Nat.add_comm (w % _), Nat.testBit_two_pow_mul_add _ (Nat.mod_lt _ (Nat.two_pow_pos _)), Nat.testBit_mod_two_pow]
      simp [show i + l' < l' + n' + k by omega]
    · simp [hi]

theorem State.get_set_same (s : State) (f : Field) (v : Nat) (h : f.lo + f.len ≤ 32) : (s.set f v).get f = v % 2 ^ f.len := by
  rw [State.get, State.rd_set_same, fieldOf_putField _ _ _ h]

theorem State.get_wr_ne (s : State) {a : Nat} (v : Word) (g : Field) (h : g.addr ≠ a) : (s.wr a v).get g = s.get g := by
  rw [State.get, State.rd_wr_ne _ _ h]; rfl

theorem State.get_set_ne (s : State) (f : Field) (v : Nat) (g : Field) (h : g.addr ≠ f.addr) : (s.set f v).get g = s.get g :=
  State.get_wr_ne s _ g h

theorem State.get_set_disjoint (s : State) (f : Field) (v : Nat) (g : Field) (hg : g.lo + g.len ≤ 32)
    (hd : f.lo + f.len ≤ g.lo ∨ g.lo + g.len ≤ f.lo) : (s.set f v).get g = s.get g := by
  by_cases h : g.addr = f.addr
  · rw [State.get, h, State.rd_set_same, fieldOf_putField_disjoint _ _ _ _ hg hd, ← h]; rfl
  · exact State.get_set_ne s f v g h

/-- The state registers read the same in states with the same registers. -/
theorem State.rd_congr {s t : State} (h : t.regs = s.regs) (a : Nat) : t.rd a = s.rd a := by
  rw [State.rd, State.rd, h]

/-- Fields read the same in states with the same registers. -/
theorem State.get_congr {s t : State} (h : t.regs = s.regs) (f : Field) : t.get f = s.get f := by
  rw [State.get, State.get, State.rd_congr h]

end Sys2Proof.Machine
end

