-- ==== Sys2Proof/Laws/Access.lean ====
section
/-! SUPPORT. What a permitted register write does, region by region and block by block: one equation for each, cited instead of
unfolding the bus. -/

namespace Sys2Proof.Machine

theorem State.regWrite_refused {s : State} {r : Req} {a : Nat} (v : Word) (h : s.refusal r a true ≠ accOk) :
    s.regWrite r a v = s.accFault r a true := by
  rw [State.regWrite, State.busWrite]; rw [if_pos h]

theorem State.regWrite_tcm {s : State} {r : Req} {a : Nat} (v : Word) (h : s.refusal r a true = accOk) (hr : regionOf a = .tcm) :
    s.regWrite r a v = { s with tcm := memWrite s.tcm a (leBytes 4 v.toNat) } := by
  rw [State.regWrite, State.busWrite]; rw [if_neg (fun h' => h' h), hr]

theorem State.regWrite_mram {s : State} {r : Req} {a : Nat} (v : Word) (h : s.refusal r a true = accOk) (hr : regionOf a = .mram) :
    s.regWrite r a v = if s.mramTakes (a - 0x20000000)
      then { s with mram := memWrite s.mram (a - 0x20000000) (leBytes 4 v.toNat) } else s := by
  rw [State.regWrite, State.busWrite]; rw [if_neg (fun h' => h' h), hr]; dsimp only; split <;> rfl

theorem State.regWrite_hbm {s : State} {r : Req} {a : Nat} (v : Word) (h : s.refusal r a true = accOk) (hr : regionOf a = .hbm) :
    s.regWrite r a v = s.windowWrite r a v := by
  rw [State.regWrite, State.busWrite]; rw [if_neg (fun h' => h' h), hr]

theorem State.regWrite_block {s : State} {r : Req} {a : Nat} (v : Word) (h : s.refusal r a true = accOk)
    (hr : regionOf a = .block) : s.regWrite r a v = s.wordWrite r a v := by
  rw [State.regWrite, State.busWrite]; rw [if_neg (fun h' => h' h), hr]

/-- An address of a block from 0x11 to 0x1F lies in the block region and above the system block. -/
theorem block_of_div {a b : Nat} (h : a / 2 ^ 24 = b) (h1 : 0x11 ≤ b) (h2 : b ≤ 0x1F) :
    regionOf a = .block ∧ ¬ a < 0x10002000 := by
  have hl : a < 0x20000000 ∧ 0x11000000 ≤ a := by omega
  refine ⟨?_, by omega⟩
  rw [regionOf, if_neg (by omega), if_pos (by omega)]

theorem State.regWrite_of_block {s : State} {r : Req} {a b : Nat} (v : Word) (h : s.refusal r a true = accOk)
    (hb : a / 2 ^ 24 = b) (h1 : 0x11 ≤ b) (h2 : b ≤ 0x1F) (hv : isActiveView a = false) :
    s.regWrite r a v = s.blockWrite r a v := by
  have hr := block_of_div hb h1 h2
  rw [State.regWrite_block v h hr.1, State.wordWrite, hv]
  simp only [Bool.false_eq_true, if_false, hr.2]

theorem State.regWrite_deck {s : State} {r : Req} {a : Nat} (v : Word) (h : s.refusal r a true = accOk) (hb : a / 2 ^ 24 = 0x11)
    (hv : isActiveView a = false) : s.regWrite r a v = s.writeDeck r a v := by
  rw [State.regWrite_of_block v h hb (by omega) (by omega) hv, State.blockWrite, hb]; rfl

theorem State.regWrite_layer {s : State} {r : Req} {a : Nat} (v : Word) (h : s.refusal r a true = accOk) (hb : a / 2 ^ 24 = 0x12)
    (hv : isActiveView a = false) : s.regWrite r a v = s.writeLayer r a v := by
  rw [State.regWrite_of_block v h hb (by omega) (by omega) hv, State.blockWrite, hb]; rfl

theorem State.regWrite_comb {s : State} {r : Req} {a : Nat} (v : Word) (h : s.refusal r a true = accOk) (hb : a / 2 ^ 24 = 0x13)
    (hv : isActiveView a = false) : s.regWrite r a v = s.writeComb r a v := by
  rw [State.regWrite_of_block v h hb (by omega) (by omega) hv, State.blockWrite, hb]; rfl

theorem State.regWrite_nec {s : State} {r : Req} {a : Nat} (v : Word) (h : s.refusal r a true = accOk) (hb : a / 2 ^ 24 = 0x14)
    (hv : isActiveView a = false) : s.regWrite r a v = s.writeNec r a v := by
  rw [State.regWrite_of_block v h hb (by omega) (by omega) hv, State.blockWrite, hb]; rfl

theorem State.regWrite_port {s : State} {r : Req} {a : Nat} (v : Word) (h : s.refusal r a true = accOk) (hb : a / 2 ^ 24 = 0x15)
    (hv : isActiveView a = false) : s.regWrite r a v = s.writePort r a v := by
  rw [State.regWrite_of_block v h hb (by omega) (by omega) hv, State.blockWrite, hb]; rfl

theorem State.regWrite_vdt {s : State} {r : Req} {a : Nat} (v : Word) (h : s.refusal r a true = accOk) (hb : a / 2 ^ 24 = 0x16)
    (hv : isActiveView a = false) : s.regWrite r a v = s.writeVdt r a v := by
  rw [State.regWrite_of_block v h hb (by omega) (by omega) hv, State.blockWrite, hb]; rfl

theorem State.regWrite_pier {s : State} {r : Req} {a : Nat} (v : Word) (h : s.refusal r a true = accOk) (hb : a / 2 ^ 24 = 0x17)
    (hv : isActiveView a = false) : s.regWrite r a v = s.writePier r a v := by
  rw [State.regWrite_of_block v h hb (by omega) (by omega) hv, State.blockWrite, hb]; rfl

theorem State.regWrite_time {s : State} {r : Req} {a : Nat} (v : Word) (h : s.refusal r a true = accOk) (hb : a / 2 ^ 24 = 0x18)
    (hv : isActiveView a = false) : s.regWrite r a v = s.writeTime r a v := by
  rw [State.regWrite_of_block v h hb (by omega) (by omega) hv, State.blockWrite, hb]; rfl

theorem State.regWrite_clk {s : State} {r : Req} {a : Nat} (v : Word) (h : s.refusal r a true = accOk) (hb : a / 2 ^ 24 = 0x19)
    (hv : isActiveView a = false) : s.regWrite r a v = s.writeTime r a v := by
  rw [State.regWrite_of_block v h hb (by omega) (by omega) hv, State.blockWrite, hb]; rfl

theorem State.regWrite_mra {s : State} {r : Req} {a : Nat} (v : Word) (h : s.refusal r a true = accOk) (hb : a / 2 ^ 24 = 0x1A)
    (hv : isActiveView a = false) : s.regWrite r a v = s.writeMr r 0 a v := by
  rw [State.regWrite_of_block v h hb (by omega) (by omega) hv, State.blockWrite, hb]; rfl

theorem State.regWrite_mrb {s : State} {r : Req} {a : Nat} (v : Word) (h : s.refusal r a true = accOk) (hb : a / 2 ^ 24 = 0x1B)
    (hv : isActiveView a = false) : s.regWrite r a v = s.writeMr r 1 a v := by
  rw [State.regWrite_of_block v h hb (by omega) (by omega) hv, State.blockWrite, hb]; rfl

theorem State.regWrite_hbmc {s : State} {r : Req} {a : Nat} (v : Word) (h : s.refusal r a true = accOk) (hb : a / 2 ^ 24 = 0x1C)
    (hv : isActiveView a = false) : s.regWrite r a v = s.writeHbm r a v := by
  rw [State.regWrite_of_block v h hb (by omega) (by omega) hv, State.blockWrite, hb]; rfl

theorem State.regWrite_blt {s : State} {r : Req} {a : Nat} (v : Word) (h : s.refusal r a true = accOk) (hb : a / 2 ^ 24 = 0x1D)
    (hv : isActiveView a = false) : s.regWrite r a v = s.writeBlt r a v := by
  rw [State.regWrite_of_block v h hb (by omega) (by omega) hv, State.blockWrite, hb]; rfl

theorem State.regWrite_thm {s : State} {r : Req} {a : Nat} (v : Word) (h : s.refusal r a true = accOk) (hb : a / 2 ^ 24 = 0x1E)
    (hv : isActiveView a = false) : s.regWrite r a v = s.writeThm r a v := by
  rw [State.regWrite_of_block v h hb (by omega) (by omega) hv, State.blockWrite, hb]; rfl

theorem State.regWrite_fs {s : State} {r : Req} {a : Nat} (v : Word) (h : s.refusal r a true = accOk) (hb : a / 2 ^ 24 = 0x1F)
    (hv : isActiveView a = false) : s.regWrite r a v = s.writeFs r a v := by
  rw [State.regWrite_of_block v h hb (by omega) (by omega) hv, State.blockWrite, hb]; rfl

/-- The supervisor and event registers of the system block. -/
theorem State.regWrite_sup {s : State} {r : Req} {a : Nat} (v : Word) (h : s.refusal r a true = accOk) (hb : a / 2 ^ 24 = 0x10)
    (ha : 0x10002000 ≤ a) (hv : isActiveView a = false) : s.regWrite r a v = s.writeSup r a v := by
  have hr : regionOf a = .block := by rw [regionOf, if_neg (by omega), if_pos (by omega)]
  rw [State.regWrite_block v h hr, State.wordWrite, hv]
  simp only [Bool.false_eq_true, if_false, Nat.not_lt.mpr ha, State.blockWrite, hb]

/-- The registers of SYS and LC. -/
theorem State.regWrite_sys {s : State} {r : Req} {a : Nat} (v : Word) (h : s.refusal r a true = accOk) (hb : a / 2 ^ 24 = 0x10)
    (ha : a < 0x10002000) (hv : isActiveView a = false) : s.regWrite r a v = s.writeSys r a v := by
  have hr : regionOf a = .block := by rw [regionOf, if_neg (by omega), if_pos (by omega)]
  rw [State.regWrite_block v h hr, State.wordWrite, hv]
  simp only [Bool.false_eq_true, if_false, ha, if_true]

end Sys2Proof.Machine
end

