-- ==== Sys2Proof/Laws/Actions.lean ====
section
/-! SUPPORT. What a permitted write of each register with an action of its own does: one equation for each register. -/

namespace Sys2Proof.Machine

/-- Bit `k` of a word as a field. -/
theorem bit_eq_fieldOf (v : Word) (a k : Nat) : bit v.toNat k = (fieldOf v ⟨a, k, 1⟩ == 1) := rfl

/-- A bit field reads as it was forced. -/
theorem bit_forceBits_same (v : Word) (a k x : Nat) (h : k + 1 ≤ 32) : bit (forceBits v ⟨a, k, 1⟩ x).toNat k = (x % 2 == 1) := by
  rw [bit_eq_fieldOf _ a, forceBits, fieldOf_putField _ _ _ h]; rfl

/-- A bit outside a forced field reads as before. -/
theorem bit_forceBits_ne (v : Word) (f : Field) (k x : Nat) (hk : k + 1 ≤ 32) (h : f.lo + f.len ≤ k ∨ k + 1 ≤ f.lo) :
    bit (forceBits v f x).toNat k = bit v.toNat k := by
  rw [bit_eq_fieldOf _ 0, bit_eq_fieldOf _ 0, forceBits, fieldOf_putField_disjoint _ _ ⟨0, k, 1⟩ _ hk h]

/-- A field outside a forced field reads as before. -/
theorem bits_forceBits_ne (v : Word) (f : Field) (lo len x : Nat) (hk : lo + len ≤ 32) (h : f.lo + f.len ≤ lo ∨ lo + len ≤ f.lo) :
    bits (forceBits v f x).toNat lo len = bits v.toNat lo len :=
  fieldOf_putField_disjoint v f ⟨0, lo, len⟩ x hk h

theorem State.regWrite_DECK_STATE {s : State} {r : Req} (v : Word) (h : s.refusal r Reg.DECK_STATE true = accOk) :
    s.regWrite r Reg.DECK_STATE v = s.stateWrite (s.actsSup r) v := by
  rw [State.regWrite_deck v h (by decide) (by decide), State.writeDeck, if_pos rfl]

theorem State.regWrite_DECK_CTRL {s : State} {r : Req} (v : Word) (h : s.refusal r Reg.DECK_CTRL true = accOk) :
    s.regWrite r Reg.DECK_CTRL v = if bit v.toNat 0 then s.runWrite else s.runOff (s.writerOf r) := by
  rw [State.regWrite_deck v h (by decide) (by decide), State.writeDeck, if_neg (by decide +kernel), if_pos rfl]

theorem State.regWrite_DECK_COMMIT {s : State} {r : Req} (v : Word) (h : s.refusal r Reg.DECK_COMMIT true = accOk) :
    s.regWrite r Reg.DECK_COMMIT v = s.commitWrite (s.writerOf r) v := by
  rw [State.regWrite_deck v h (by decide) (by decide), State.writeDeck, if_neg (by decide +kernel), if_neg (by decide +kernel), if_pos rfl]

theorem State.regWrite_LAYER_LUT_LOAD {s : State} {r : Req} (v : Word) (h : s.refusal r Reg.LAYER_LUT_LOAD true = accOk) :
    s.regWrite r Reg.LAYER_LUT_LOAD v = s.lutLoadWrite v := by
  rw [State.regWrite_layer v h (by decide) (by decide), State.writeLayer, if_neg (by decide +kernel), if_pos rfl]

theorem State.regWrite_KEY_SUP_MASK {s : State} {r : Req} (v : Word) (h : s.refusal r Reg.KEY_SUP_MASK true = accOk) :
    s.regWrite r Reg.KEY_SUP_MASK v = s.keySupMask (decide (r = .sup)) v := by
  rw [State.regWrite_port v h (by decide) (by decide), State.writePort, if_neg (by decide +kernel), if_pos rfl]

theorem State.regWrite_PORT_LUT_LOAD {s : State} {r : Req} (v : Word) (h : s.refusal r Reg.PORT_LUT_LOAD true = accOk) :
    s.regWrite r Reg.PORT_LUT_LOAD v = s.plutStart (s.actsSup r) v := by
  rw [State.regWrite_port v h (by decide) (by decide), State.writePort, if_neg (by decide +kernel), if_neg (by decide +kernel), if_pos rfl]

theorem State.regWrite_VDT_CTRL {s : State} {r : Req} (v : Word) (h : s.refusal r Reg.VDT_CTRL true = accOk) :
    s.regWrite r Reg.VDT_CTRL v = s.gateEnWrite (s.actsSup r) v := by
  rw [State.regWrite_vdt v h (by decide) (by decide), State.writeVdt, if_pos rfl]

theorem State.regWrite_PIER_CTRL {s : State} {r : Req} (v : Word) (h : s.refusal r Reg.PIER_CTRL true = accOk) :
    s.regWrite r Reg.PIER_CTRL v = s.pierEnableWrite (s.actsSup r) none v := by
  rw [State.regWrite_pier v h (by decide) (by decide), State.writePier, if_pos rfl]

theorem State.regWrite_PIER_TEST {s : State} {r : Req} (v : Word) (h : s.refusal r Reg.PIER_TEST true = accOk) :
    s.regWrite r Reg.PIER_TEST v = s.pierTestStart (s.actsSup r) v := by
  rw [State.regWrite_pier v h (by decide) (by decide), State.writePier, if_neg (by decide +kernel), if_pos rfl]

theorem State.regWrite_HBM_TRAIN_REQ {s : State} {r : Req} (v : Word) (h : s.refusal r Reg.HBM_TRAIN_REQ true = accOk) :
    s.regWrite r Reg.HBM_TRAIN_REQ v = s.trainReq (s.actsSup r) v := by
  rw [State.regWrite_hbmc v h (by decide) (by decide), State.writeHbm, if_pos rfl]

theorem State.regWrite_BLT_CTRL {s : State} {r : Req} (v : Word) (h : s.refusal r Reg.BLT_CTRL true = accOk) :
    s.regWrite r Reg.BLT_CTRL v = s.bltAbort (s.actsSup r) v := by
  rw [State.regWrite_blt v h (by decide) (by decide), State.writeBlt, if_pos rfl]

theorem State.regWrite_BLT_Q_TAIL {s : State} {r : Req} (v : Word) (h : s.refusal r Reg.BLT_Q_TAIL true = accOk) :
    s.regWrite r Reg.BLT_Q_TAIL v = s.bltPost (s.actsSup r) v := by
  rw [State.regWrite_blt v h (by decide) (by decide), State.writeBlt, if_neg (by decide +kernel), if_pos rfl]

theorem State.regWrite_THM_LIMITS {s : State} {r : Req} (v : Word) (h : s.refusal r Reg.THM_LIMITS true = accOk) :
    s.regWrite r Reg.THM_LIMITS v = s.thmLimitsWrite (s.actsSup r) v := by
  rw [State.regWrite_thm v h (by decide) (by decide), State.writeThm, if_pos rfl]

theorem State.regWrite_THM_THROTTLE {s : State} {r : Req} (v : Word) (h : s.refusal r Reg.THM_THROTTLE true = accOk) :
    s.regWrite r Reg.THM_THROTTLE v = s.thmForce (s.actsSup r) v := by
  rw [State.regWrite_thm v h (by decide) (by decide), State.writeThm, if_neg (by decide +kernel), if_pos rfl]

theorem State.regWrite_CAL_CFG {s : State} {r : Req} (v : Word) (h : s.refusal r Reg.CAL_CFG true = accOk) :
    s.regWrite r Reg.CAL_CFG v = s.calReq (s.actsSup r) v := by
  rw [State.regWrite_thm v h (by decide) (by decide), State.writeThm, if_neg (by decide +kernel), if_neg (by decide +kernel), if_pos rfl]

theorem State.regWrite_PWR_PMB_CMD {s : State} {r : Req} (v : Word) (h : s.refusal r Reg.PWR_PMB_CMD true = accOk) :
    s.regWrite r Reg.PWR_PMB_CMD v = s.pmbStart (s.actsSup r) v := by
  rw [State.regWrite_thm v h (by decide) (by decide), State.writeThm, if_neg (by decide +kernel), if_neg (by decide +kernel), if_neg (by decide +kernel), if_neg (by decide +kernel), if_pos rfl]

theorem State.regWrite_PWR_AVS_CFG {s : State} {r : Req} (v : Word) (h : s.refusal r Reg.PWR_AVS_CFG true = accOk) :
    s.regWrite r Reg.PWR_AVS_CFG v = s.avsCfgWrite (s.actsSup r) v := by
  rw [State.regWrite_thm v h (by decide) (by decide), State.writeThm, if_neg (by decide +kernel), if_neg (by decide +kernel), if_neg (by decide +kernel), if_pos rfl]

theorem State.regWrite_FS_CAUSE {s : State} {r : Req} (v : Word) (h : s.refusal r Reg.FS_CAUSE true = accOk) :
    s.regWrite r Reg.FS_CAUSE v = s.fsCauseWrite (s.actsSup r) v := by
  rw [State.regWrite_fs v h (by decide) (by decide), State.writeFs, if_pos rfl]

theorem State.regWrite_FS_TEST {s : State} {r : Req} (v : Word) (h : s.refusal r Reg.FS_TEST true = accOk) :
    s.regWrite r Reg.FS_TEST v = s.fsTestWrite (s.actsSup r) v := by
  rw [State.regWrite_fs v h (by decide) (by decide), State.writeFs, if_neg (by decide +kernel), if_pos rfl]

theorem State.regWrite_SUP_WDT_CFG {s : State} {r : Req} (v : Word) (h : s.refusal r Reg.SUP_WDT_CFG true = accOk) :
    s.regWrite r Reg.SUP_WDT_CFG v = s.wdtCfgWrite (s.actsSup r) v := by
  rw [State.regWrite_sup v h (by decide) (by decide) (by decide), State.writeSup, if_pos rfl]

theorem State.regWrite_SUP_WDT_KICK {s : State} {r : Req} (v : Word) (h : s.refusal r Reg.SUP_WDT_KICK true = accOk) :
    s.regWrite r Reg.SUP_WDT_KICK v = s.wdtKick (s.actsSup r) v := by
  rw [State.regWrite_sup v h (by decide) (by decide) (by decide), State.writeSup, if_neg (by decide +kernel), if_pos rfl]

theorem State.regWrite_mbx_h2s {s : State} {r : Req} (v : Word) (h : s.refusal r (mbxCtrl 0) true = accOk) :
    s.regWrite r (mbxCtrl 0) v = s.mbxCtrlWrite r 0 v := by
  rw [State.regWrite_sup v h (by decide) (by decide) (by decide), State.writeSup, if_neg (by decide +kernel), if_neg (by decide +kernel), if_neg (by decide +kernel), if_pos rfl]

theorem State.regWrite_mbx_s2h {s : State} {r : Req} (v : Word) (h : s.refusal r (mbxCtrl 1) true = accOk) :
    s.regWrite r (mbxCtrl 1) v = s.mbxCtrlWrite r 1 v := by
  rw [State.regWrite_sup v h (by decide) (by decide) (by decide), State.writeSup, if_neg (by decide +kernel), if_neg (by decide +kernel), if_neg (by decide +kernel), if_neg (by decide +kernel), if_pos rfl]

theorem State.regWrite_EVT_POST {s : State} {r : Req} (v : Word) (h : s.refusal r Reg.EVT_POST true = accOk) :
    s.regWrite r Reg.EVT_POST v = s.evtPost (s.actsSup r) v := by
  rw [State.regWrite_sup v h (by decide) (by decide) (by decide), State.writeSup, if_neg (by decide +kernel), if_neg (by decide +kernel), if_neg (by decide +kernel), if_neg (by decide +kernel), if_neg (by decide +kernel), if_neg (by decide +kernel), if_neg (by decide +kernel), if_pos rfl]

theorem State.regWrite_EVT_LOG_CTRL {s : State} {r : Req} (v : Word) (h : s.refusal r Reg.EVT_LOG_CTRL true = accOk) :
    s.regWrite r Reg.EVT_LOG_CTRL v = s.logClear v := by
  rw [State.regWrite_sup v h (by decide) (by decide) (by decide), State.writeSup, if_neg (by decide +kernel), if_neg (by decide +kernel), if_neg (by decide +kernel), if_neg (by decide +kernel), if_neg (by decide +kernel), if_neg (by decide +kernel), if_neg (by decide +kernel), if_neg (by decide +kernel), if_pos rfl]

theorem State.regWrite_SYS_RESET {s : State} {r : Req} (v : Word) (h : s.refusal r Reg.SYS_RESET true = accOk) :
    s.regWrite r Reg.SYS_RESET v = s.resetWrite r v s.boot.env := by
  rw [State.regWrite_sys v h (by decide) (by decide) (by decide), State.writeSys, if_neg (by decide +kernel), if_pos rfl]

theorem State.regWrite_SYS_RESCUE {s : State} {r : Req} (v : Word) (h : s.refusal r Reg.SYS_RESCUE true = accOk) :
    s.regWrite r Reg.SYS_RESCUE v = s.rescueWrite v := by
  rw [State.regWrite_sys v h (by decide) (by decide) (by decide), State.writeSys, if_neg (by decide +kernel), if_neg (by decide +kernel), if_pos rfl]

theorem State.regWrite_LC_CMD {s : State} {r : Req} (v : Word) (h : s.refusal r Reg.LC_CMD true = accOk) :
    s.regWrite r Reg.LC_CMD v = s.lcCmd r (bits v.toNat 24 8) (bits v.toNat 0 8) := by
  rw [State.regWrite_sys v h (by decide) (by decide) (by decide), State.writeSys, if_neg (by decide +kernel), if_neg (by decide +kernel), if_neg (by decide +kernel), if_pos rfl]

theorem State.regWrite_fence {s : State} {r : Req} {n : Nat} (v : Word) (hn : n < 32)
    (h : s.refusal r (Reg.LAYER_FENCE n) true = accOk) : s.regWrite r (Reg.LAYER_FENCE n) v = s.fenceWrite (s.writerOf r) n v := by
  have ha : Reg.LAYER_FENCE n = 0x12000058 + 0x80 * n := rfl
  have hv : isActiveView (Reg.LAYER_FENCE n) = false := by rw [isActiveView, ha]; simp; omega
  rw [State.regWrite_layer v h (by omega) hv, State.writeLayer]
  rw [if_pos (by omega), show (Reg.LAYER_FENCE n - 0x12000000) / 0x80 = n by omega]

end Sys2Proof.Machine
end

