-- ==== Sys2Proof/Laws/Post.lean ====
section
/-! SUPPORT. What posting an event can change (15 R372 to R379): the event unit, the registers of `evtWords`, the fault log in MRAM and the
events held back during start-up; nothing else. -/

namespace Sys2Proof.Machine

/-! Memories and tables. -/

theorem memWrite_out (m : Table Byte) (bs : List Byte) :
    ∀ a b : Nat, b < a ∨ a + bs.length ≤ b → (memWrite m a bs).get zeroByte b = m.get zeroByte b := by
  induction bs generalizing m with
  | nil => intro a b _; rfl
  | cons x bs ih =>
    intro a b h
    have h1 : b ≠ a := by simp only [List.length_cons] at h; omega
    have h2 : b < a + 1 ∨ a + 1 + bs.length ≤ b := by simp only [List.length_cons] at h; omega
    have := ih (m.set zeroByte a x) (a + 1) b h2
    simp only [memWrite, Table.setMany] at this ⊢
    rw [this, Table.get_set_ne zeroByte m x h1]

theorem memWrite_in (m : Table Byte) (bs : List Byte) :
    ∀ a i : Nat, (h : i < bs.length) → (memWrite m a bs).get zeroByte (a + i) = bs[i] := by
  induction bs generalizing m with
  | nil => intro a i h; exact absurd h (Nat.not_lt_zero _)
  | cons x bs ih =>
    intro a i h
    cases i with
    | zero =>
      have := memWrite_out (m.set zeroByte a x) bs (a + 1) a (Or.inl (Nat.lt_succ_self a))
      simp only [memWrite, Table.setMany, Nat.add_zero, List.getElem_cons_zero] at this ⊢
      rw [this, Table.get_set_same]
    | succ i =>
      have := ih (m.set zeroByte a x) (a + 1) i (by simpa using h)
      simp only [memWrite, Table.setMany, List.getElem_cons_succ] at this ⊢
      rw [← this]; congr 1; omega

theorem memWrite_wf (m : Table Byte) (a : Nat) (bs : List Byte) (h : Memory.wf m = true) : Memory.wf (memWrite m a bs) = true :=
  Table.wf_setMany zeroByte bs m a h

theorem leBytes_length (n v : Nat) : (leBytes n v).length = n := by
  induction n generalizing v with
  | zero => rfl
  | succ n ih => simp only [leBytes, List.length_cons, ih]

theorem leBytes_get (n v i : Nat) (h : i < (leBytes n v).length) : (leBytes n v)[i] = byte (v / 256 ^ i) := by
  induction n generalizing v i with
  | zero => exact absurd h (Nat.not_lt_zero _)
  | succ n ih =>
    cases i with
    | zero => simp [leBytes]
    | succ i =>
      simp only [leBytes, List.getElem_cons_succ]
      rw [ih, Nat.div_div_eq_div_mul, Nat.pow_succ, Nat.mul_comm]

/-- How many bytes a log entry has. -/
theorem logEntry_length (rec : List Byte) (a b c d : Nat) (h : rec.length ≤ 32) : (logEntry rec a b c d).length ≤ 64 := by
  simp only [logEntry, List.length_append, leBytes_length, List.length_replicate]; omega

theorem EvRec.bytes_length (r : EvRec) : r.bytes.length ≤ 32 := by
  simp only [EvRec.bytes, List.length_append, leBytes_length, List.length_take]; omega

/-! What posting leaves alone. -/

/-- `t` differs from `s` at most in what posting an event may change. -/
structure PostFrame (s t : State) : Prop where
  shape : t = { s with regs := t.regs, evt := t.evt, mram := t.mram, boot := { s.boot with events := t.boot.events } }
  regs : RegsBut evtWords s t
  log : ∀ a, ¬ inLog a → t.mramByte a = s.mramByte a

theorem PostFrame.refl (s : State) : PostFrame s s := ⟨rfl, fun _ _ => rfl, fun _ _ => rfl⟩

theorem PostFrame.trans {s t u : State} (h1 : PostFrame s t) (h2 : PostFrame t u) : PostFrame s u :=
  ⟨by have := h2.shape; rw [h1.shape] at this; exact this,
   fun a h => (h2.regs a h).trans (h1.regs a h), fun a h => (h2.log a h).trans (h1.log a h)⟩

theorem PostFrame.wr (s : State) (a : Nat) (v : Word) (h : a ∈ evtWords) : PostFrame s (s.wr a v) :=
  ⟨rfl, fun _ hb => State.rd_wr_ne s v (fun e => hb (e ▸ h)), fun _ _ => rfl⟩

theorem PostFrame.set (s : State) (f : Field) (v : Nat) (h : f.addr ∈ evtWords) : PostFrame s (s.set f v) := PostFrame.wr s _ _ h

theorem PostFrame.bump (s : State) (f : Field) (n : Nat) (h : f.addr ∈ evtWords) : PostFrame s (s.bump f n) :=
  PostFrame.set s _ _ h

theorem PostFrame.count (s : State) (f : Field) (h : f.addr ∈ evtWords) : PostFrame s (s.count f) := PostFrame.set s _ _ h

theorem PostFrame.evt (s : State) (e : Evt) : PostFrame s { s with evt := e } := ⟨rfl, fun _ _ => rfl, fun _ _ => rfl⟩

theorem State.get_lt (s : State) (f : Field) : s.get f < 2 ^ f.len := Nat.mod_lt _ (Nat.pow_pos (by omega))

theorem PostFrame.logWrite (s : State) (rec : List Byte) (w : Nat) (hl : rec.length ≤ 32) : PostFrame s (s.logWrite rec w) := by
  delta State.logWrite
  extract_lets head seq e x y z
  have hx : PostFrame s x := by
    refine ⟨rfl, fun _ _ => rfl, fun a ha => ?_⟩
    refine memWrite_out _ _ _ _ ?_
    have h1 : head < 2 ^ 14 := State.get_lt s Reg.EVT_LOG_STATUS.HEAD
    have h2 : e.length ≤ 64 := logEntry_length rec _ _ _ _ hl
    simp only [inLog, logBase] at ha ⊢
    omega
  clear_value x
  exact ((hx.trans (PostFrame.set x _ _ (by decide))).trans (PostFrame.set y _ _ (by decide))).trans
    (PostFrame.count z _ (by decide))

theorem PostFrame.logEvent (s : State) (rec : List Byte) (hl : rec.length ≤ 32) : PostFrame s (s.logEvent rec) := by
  delta State.logEvent
  have hr : PostFrame s s.refill := PostFrame.evt s _
  extract_lets x
  split
  · exact (hr.trans (PostFrame.evt _ _)).trans (PostFrame.bump _ _ _ (by decide))
  · exact (hr.trans (PostFrame.evt _ _)).trans (PostFrame.logWrite _ _ _ hl)

theorem PostFrame.toSupQ (s : State) (r : EvRec) : PostFrame s (s.toSupQ r) := by
  delta State.toSupQ
  extract_lets q e x
  split
  · exact (PostFrame.evt s _).trans (PostFrame.bump x _ _ (by decide))
  · exact PostFrame.evt s _

theorem PostFrame.toHostQ (s : State) (r : EvRec) : PostFrame s (s.toHostQ r) := by
  delta State.toHostQ
  extract_lets q e x
  split
  · exact (PostFrame.evt s _).trans (PostFrame.bump x _ _ (by decide))
  · exact PostFrame.evt s _

theorem PostFrame.postNow (s : State) (code sev : Nat) (pl : List Byte) : PostFrame s (s.postNow code sev pl) := by
  delta State.postNow
  extract_lets r e x z y
  have hz : PostFrame s z := PostFrame.trans (t := x) (PostFrame.evt s _) (PostFrame.toSupQ _ _)
  have hy : PostFrame s y := by
    simp only [y]
    split
    · exact PostFrame.evt s _
    · split
      · exact hz.trans (PostFrame.toHostQ _ _)
      · exact hz
  clear_value y
  split
  · split
    · exact hy.trans (PostFrame.logWrite _ _ _ r.bytes_length)
    · exact hy.trans (PostFrame.logEvent _ _ r.bytes_length)
  · exact hy

/-- Posting an event. -/
theorem PostFrame.post (s : State) (code sev : Nat) (pl : List Byte) : PostFrame s (s.post code sev pl) := by
  rw [State.post]
  split
  · exact ⟨rfl, fun _ _ => rfl, fun _ _ => rfl⟩
  · exact PostFrame.postNow ..

/-- Posting an event whose rule limits its rate. -/
theorem PostFrame.postOncePer (s : State) (a b c d : Nat) (pl : List Byte) : PostFrame s (s.postOncePer a b c d pl) := by
  rw [State.postOncePer]
  extract_lets l
  split
  · exact PostFrame.refl s
  · exact (PostFrame.evt s _).trans (PostFrame.post ..)

theorem PostFrame.pending {s t : State} (h : PostFrame s t) : t.pending = s.pending := by rw [h.shape]

@[simp] theorem State.post_pending (s : State) (code sev : Nat) (pl : List Byte) : (s.post code sev pl).pending = s.pending :=
  (PostFrame.post s code sev pl).pending

theorem PostFrame.act {s t : State} (h : PostFrame s t) : t.act = s.act := by rw [h.shape]

@[simp] theorem State.post_act (s : State) (code sev : Nat) (pl : List Byte) : (s.post code sev pl).act = s.act :=
  (PostFrame.post s code sev pl).act

theorem PostFrame.dirty {s t : State} (h : PostFrame s t) : t.dirty = s.dirty := by rw [h.shape]

@[simp] theorem State.post_dirty (s : State) (code sev : Nat) (pl : List Byte) : (s.post code sev pl).dirty = s.dirty :=
  (PostFrame.post s code sev pl).dirty

theorem PostFrame.hostT {s t : State} (h : PostFrame s t) : t.hostT = s.hostT := by rw [h.shape]

@[simp] theorem State.post_hostT (s : State) (code sev : Nat) (pl : List Byte) : (s.post code sev pl).hostT = s.hostT :=
  (PostFrame.post s code sev pl).hostT

theorem PostFrame.caps {s t : State} (h : PostFrame s t) : t.caps = s.caps := by rw [h.shape]

@[simp] theorem State.post_caps (s : State) (code sev : Nat) (pl : List Byte) : (s.post code sev pl).caps = s.caps :=
  (PostFrame.post s code sev pl).caps

theorem PostFrame.free {s t : State} (h : PostFrame s t) : t.free = s.free := by rw [h.shape]

@[simp] theorem State.post_free (s : State) (code sev : Nat) (pl : List Byte) : (s.post code sev pl).free = s.free :=
  (PostFrame.post s code sev pl).free

theorem PostFrame.out {s t : State} (h : PostFrame s t) : t.out = s.out := by rw [h.shape]

@[simp] theorem State.post_out (s : State) (code sev : Nat) (pl : List Byte) : (s.post code sev pl).out = s.out :=
  (PostFrame.post s code sev pl).out

theorem PostFrame.tcm {s t : State} (h : PostFrame s t) : t.tcm = s.tcm := by rw [h.shape]

@[simp] theorem State.post_tcm (s : State) (code sev : Nat) (pl : List Byte) : (s.post code sev pl).tcm = s.tcm :=
  (PostFrame.post s code sev pl).tcm

theorem PostFrame.hbm {s t : State} (h : PostFrame s t) : t.hbm = s.hbm := by rw [h.shape]

@[simp] theorem State.post_hbm (s : State) (code sev : Nat) (pl : List Byte) : (s.post code sev pl).hbm = s.hbm :=
  (PostFrame.post s code sev pl).hbm

theorem PostFrame.deck {s t : State} (h : PostFrame s t) : t.deck = s.deck := by rw [h.shape]

@[simp] theorem State.post_deck (s : State) (code sev : Nat) (pl : List Byte) : (s.post code sev pl).deck = s.deck :=
  (PostFrame.post s code sev pl).deck

theorem PostFrame.nt {s t : State} (h : PostFrame s t) : t.nt = s.nt := by rw [h.shape]

@[simp] theorem State.post_nt (s : State) (code sev : Nat) (pl : List Byte) : (s.post code sev pl).nt = s.nt :=
  (PostFrame.post s code sev pl).nt

theorem PostFrame.clk {s t : State} (h : PostFrame s t) : t.clk = s.clk := by rw [h.shape]

@[simp] theorem State.post_clk (s : State) (code sev : Nat) (pl : List Byte) : (s.post code sev pl).clk = s.clk :=
  (PostFrame.post s code sev pl).clk

theorem PostFrame.sup {s t : State} (h : PostFrame s t) : t.sup = s.sup := by rw [h.shape]

@[simp] theorem State.post_sup (s : State) (code sev : Nat) (pl : List Byte) : (s.post code sev pl).sup = s.sup :=
  (PostFrame.post s code sev pl).sup

theorem PostFrame.layers {s t : State} (h : PostFrame s t) : t.layers = s.layers := by rw [h.shape]

@[simp] theorem State.post_layers (s : State) (code sev : Nat) (pl : List Byte) : (s.post code sev pl).layers = s.layers :=
  (PostFrame.post s code sev pl).layers

theorem PostFrame.combs {s t : State} (h : PostFrame s t) : t.combs = s.combs := by rw [h.shape]

@[simp] theorem State.post_combs (s : State) (code sev : Nat) (pl : List Byte) : (s.post code sev pl).combs = s.combs :=
  (PostFrame.post s code sev pl).combs

theorem PostFrame.cells {s t : State} (h : PostFrame s t) : t.cells = s.cells := by rw [h.shape]

@[simp] theorem State.post_cells (s : State) (code sev : Nat) (pl : List Byte) : (s.post code sev pl).cells = s.cells :=
  (PostFrame.post s code sev pl).cells

theorem PostFrame.fs {s t : State} (h : PostFrame s t) : t.fs = s.fs := by rw [h.shape]

@[simp] theorem State.post_fs (s : State) (code sev : Nat) (pl : List Byte) : (s.post code sev pl).fs = s.fs :=
  (PostFrame.post s code sev pl).fs

theorem PostFrame.nec {s t : State} (h : PostFrame s t) : t.nec = s.nec := by rw [h.shape]

@[simp] theorem State.post_nec (s : State) (code sev : Nat) (pl : List Byte) : (s.post code sev pl).nec = s.nec :=
  (PostFrame.post s code sev pl).nec

theorem PostFrame.port {s t : State} (h : PostFrame s t) : t.port = s.port := by rw [h.shape]

@[simp] theorem State.post_port (s : State) (code sev : Nat) (pl : List Byte) : (s.post code sev pl).port = s.port :=
  (PostFrame.post s code sev pl).port

theorem PostFrame.key {s t : State} (h : PostFrame s t) : t.key = s.key := by rw [h.shape]

@[simp] theorem State.post_key (s : State) (code sev : Nat) (pl : List Byte) : (s.post code sev pl).key = s.key :=
  (PostFrame.post s code sev pl).key

theorem PostFrame.vdt {s t : State} (h : PostFrame s t) : t.vdt = s.vdt := by rw [h.shape]

@[simp] theorem State.post_vdt (s : State) (code sev : Nat) (pl : List Byte) : (s.post code sev pl).vdt = s.vdt :=
  (PostFrame.post s code sev pl).vdt

theorem PostFrame.piers {s t : State} (h : PostFrame s t) : t.piers = s.piers := by rw [h.shape]

@[simp] theorem State.post_piers (s : State) (code sev : Nat) (pl : List Byte) : (s.post code sev pl).piers = s.piers :=
  (PostFrame.post s code sev pl).piers

theorem PostFrame.hc {s t : State} (h : PostFrame s t) : t.hc = s.hc := by rw [h.shape]

@[simp] theorem State.post_hc (s : State) (code sev : Nat) (pl : List Byte) : (s.post code sev pl).hc = s.hc :=
  (PostFrame.post s code sev pl).hc

theorem PostFrame.thm {s t : State} (h : PostFrame s t) : t.thm = s.thm := by rw [h.shape]

@[simp] theorem State.post_thm (s : State) (code sev : Nat) (pl : List Byte) : (s.post code sev pl).thm = s.thm :=
  (PostFrame.post s code sev pl).thm

theorem PostFrame.cal {s t : State} (h : PostFrame s t) : t.cal = s.cal := by rw [h.shape]

@[simp] theorem State.post_cal (s : State) (code sev : Nat) (pl : List Byte) : (s.post code sev pl).cal = s.cal :=
  (PostFrame.post s code sev pl).cal

theorem PostFrame.pwr {s t : State} (h : PostFrame s t) : t.pwr = s.pwr := by rw [h.shape]

@[simp] theorem State.post_pwr (s : State) (code sev : Nat) (pl : List Byte) : (s.post code sev pl).pwr = s.pwr :=
  (PostFrame.post s code sev pl).pwr

theorem PostFrame.blt {s t : State} (h : PostFrame s t) : t.blt = s.blt := by rw [h.shape]

@[simp] theorem State.post_blt (s : State) (code sev : Nat) (pl : List Byte) : (s.post code sev pl).blt = s.blt :=
  (PostFrame.post s code sev pl).blt

theorem PostFrame.mr {s t : State} (h : PostFrame s t) : t.mr = s.mr := by rw [h.shape]

@[simp] theorem State.post_mr (s : State) (code sev : Nat) (pl : List Byte) : (s.post code sev pl).mr = s.mr :=
  (PostFrame.post s code sev pl).mr


/-- Posting an event changes no register word but those of `evtWords`. -/
theorem State.rd_post (s : State) (code sev : Nat) (pl : List Byte) {a : Nat} (h : a ∉ evtWords) :
    (s.post code sev pl).rd a = s.rd a := (PostFrame.post s code sev pl).regs a h

/-- Posting an event changes no register field outside `evtWords`. -/
theorem State.get_post (s : State) (code sev : Nat) (pl : List Byte) (f : Field) (h : f.addr ∉ evtWords) :
    (s.post code sev pl).get f = s.get f := by rw [State.get, State.get, State.rd_post s code sev pl h]

/-- Posting an event keeps every byte of HBM and TCM and of MRAM outside the fault log. -/
theorem MemSame.post (s : State) (code sev : Nat) (pl : List Byte) : MemSame s (s.post code sev pl) :=
  ⟨fun a => by rw [State.hbmByte, State.post_hbm]; rfl, fun a => by rw [State.tcmByte, State.post_tcm]; rfl,
   (PostFrame.post s code sev pl).log⟩

theorem MemSame.refl (s : State) : MemSame s s := ⟨fun _ => rfl, fun _ => rfl, fun _ _ => rfl⟩

theorem MemSame.trans {s t u : State} (h1 : MemSame s t) (h2 : MemSame t u) : MemSame s u :=
  ⟨fun a => (h2.1 a).trans (h1.1 a), fun a => (h2.2.1 a).trans (h1.2.1 a), fun a h => (h2.2.2 a h).trans (h1.2.2 a h)⟩

/-- Equal tables are equal memories. -/
theorem MemSame.of_eq {s t : State} (h1 : t.hbm = s.hbm) (h2 : t.tcm = s.tcm) (h3 : t.mram = s.mram) : MemSame s t :=
  ⟨fun a => by rw [State.hbmByte, h1]; rfl, fun a => by rw [State.tcmByte, h2]; rfl, fun a _ => by rw [State.mramByte, h3]; rfl⟩

theorem RegsBut.refl (as : List Nat) (s : State) : RegsBut as s s := fun _ _ => rfl

theorem RegsBut.trans {as : List Nat} {s t u : State} (h1 : RegsBut as s t) (h2 : RegsBut as t u) : RegsBut as s u :=
  fun a h => (h2 a h).trans (h1 a h)

theorem RegsBut.wr {as : List Nat} (s : State) {a : Nat} (v : Word) (h : a ∈ as) : RegsBut as s (s.wr a v) :=
  fun _ hb => State.rd_wr_ne s v (fun e => hb (e ▸ h))

theorem RegsBut.set {as : List Nat} (s : State) {f : Field} (v : Nat) (h : f.addr ∈ as) : RegsBut as s (s.set f v) :=
  RegsBut.wr s _ h

theorem RegsBut.post {as : List Nat} (s : State) (code sev : Nat) (pl : List Byte) (h : ∀ a ∈ evtWords, a ∈ as) :
    RegsBut as s (s.post code sev pl) :=
  fun _ hb => State.rd_post s code sev pl (fun hm => hb (h _ hm))

theorem RegsBut.of_eq {as : List Nat} {s t : State} (h : t.regs = s.regs) : RegsBut as s t :=
  fun a _ => by rw [State.rd, State.rd, h]

end Sys2Proof.Machine
end

