-- ==== Sys2Proof/Machine/Pins.lean ====
section
/-! DEFINITION. The package (18 R433 to R436): the name of a ball, the net on every ball of the grid, and the signals outside the pier
and Moror regions with their direction, supply and reset state. -/

namespace Sys2Proof.Machine

/-- The supplies of the package. -/
inductive Rail where
  | core
  | pier (k : Nat)
  | moror
  | io
  | safe
  | vpp
  | vddc
  | vddq
  deriving DecidableEq, Repr

/-- The direction of a pin. -/
inductive PinDir where
  | input
  | output
  | both
  deriving DecidableEq, Repr

/-- The reset state of a pin: an input with or without a pull resistor, a level, high impedance with or without a pull-down, an open
drain that is released, tied to VSS by the board, or undriven in reset of the island and then low. -/
inductive PinReset where
  | input
  | pullDown
  | pullUp
  | low
  | high
  | highZ
  | highZPullDown
  | released
  | tied
  | undrivenThenLow
  deriving DecidableEq, Repr

/-- A signal of R436 and its ball, by row index and column. -/
structure Pin where
  name  : String
  row   : Nat
  col   : Nat
  dir   : PinDir
  rail  : Rail
  reset : PinReset
  deriving DecidableEq, Repr

/-- What a ball carries (R434, R435). A Moror signal is named by port B, transmit, pair (8 the clock) and polarity. -/
inductive Net where
  | tp (pier : Nat) (neg : Bool)
  | moror (portB tx : Bool) (pair : Nat) (neg : Bool)
  | signal (name : String)
  | supply (r : Rail)
  | vss
  deriving DecidableEq, Repr

/-- The 19 letters of a row (R433). -/
def rowLetters : List String :=
  ["A", "B", "C", "D", "E", "F", "G", "H", "J", "K", "L", "M", "N", "P", "T", "U", "V", "W", "Y"]

/-- The letters of row `r`, counted from 1 (R433). -/
def rowName (r : Nat) : String :=
  ["", "A", "B", "C"].getD ((r - 1) / 19) "" ++ rowLetters.getD ((r - 1) % 19) ""

/-- The row and the column of TP_P (`neg` false) or TP_N of pier `p` (R434). -/
def tpBall (p : Nat) (neg : Bool) : Nat × Nat :=
  let i := p % 128
  let d := i / 16
  let pos := 3 * (i % 16) + (if neg then 2 else 1)
  match p / 128 with
  | 0 => (d + 1, pos)
  | 1 => (pos, 72 - d)
  | 2 => (72 - d, 73 - pos)
  | _ => (73 - pos, 1 + d)

/-- The signals on the north side, rows J to N (R436). -/
def northPins : List Pin :=
  [⟨"REFCLK_P", 9, 49, .input, .io, .input⟩, ⟨"REFCLK_N", 9, 50, .input, .io, .input⟩,
   ⟨"PPS_OUT", 9, 52, .output, .io, .low⟩, ⟨"XSPI_CLK", 9, 54, .output, .io, .low⟩,
   ⟨"XSPI_DQS", 9, 55, .input, .io, .pullDown⟩, ⟨"XSPI_CS_N", 9, 56, .output, .io, .high⟩,
   ⟨"XSPI_RESET_N", 9, 57, .output, .io, .low⟩, ⟨"BOOT_MODE[0]", 9, 59, .input, .io, .pullDown⟩,
   ⟨"BOOT_MODE[1]", 9, 60, .input, .io, .pullDown⟩, ⟨"BOOT_MODE[2]", 9, 61, .input, .io, .pullDown⟩,
   ⟨"TEST_EN", 9, 63, .input, .io, .tied⟩, ⟨"TCK", 11, 58, .input, .io, .input⟩, ⟨"TMS", 11, 59, .input, .io, .pullUp⟩,
   ⟨"TDI", 11, 60, .input, .io, .pullUp⟩, ⟨"TDO", 11, 61, .output, .io, .highZ⟩, ⟨"TRST_N", 11, 62, .input, .io, .pullDown⟩]

/-- XSPI_DQ[7:0] (R436). -/
def dqPins : List Pin :=
  ["XSPI_DQ[0]", "XSPI_DQ[1]", "XSPI_DQ[2]", "XSPI_DQ[3]", "XSPI_DQ[4]", "XSPI_DQ[5]", "XSPI_DQ[6]", "XSPI_DQ[7]"].mapIdx
    fun i n => ⟨n, 11, 49 + i, .both, .io, .highZPullDown⟩

/-- The signals on the south side, rows CB to CD (R436). -/
def southPins : List Pin :=
  [⟨"PORST_N", 59, 49, .input, .safe, .input⟩, ⟨"SYSRST_N", 59, 50, .input, .safe, .input⟩,
   ⟨"PMB_SCL", 59, 52, .both, .io, .released⟩, ⟨"PMB_SDA", 59, 53, .both, .io, .released⟩,
   ⟨"PMB_ALERT_N", 59, 54, .input, .io, .input⟩, ⟨"AVS_CLK", 59, 56, .output, .io, .low⟩,
   ⟨"AVS_MDATA", 59, 57, .output, .io, .low⟩, ⟨"AVS_SDATA", 59, 58, .input, .io, .input⟩,
   ⟨"KEY_REQ_A", 61, 49, .input, .safe, .pullDown⟩, ⟨"KEY_REQ_B", 61, 51, .input, .safe, .pullDown⟩,
   ⟨"FS_FAULT_N", 61, 53, .output, .safe, .undrivenThenLow⟩, ⟨"FS_HEARTBEAT", 61, 55, .output, .safe, .undrivenThenLow⟩,
   ⟨"THERM_TRIP_N", 61, 57, .output, .safe, .released⟩]

/-- All signals of R436. -/
def pins : List Pin := northPins ++ dqPins ++ southPins

/-- A ball at place `pos` and depth `d` of the band of quadrant `k` (R434). -/
def bandNet (k d pos : Nat) : Net :=
  if 48 < pos then (if pos % 2 = 1 then .supply (.pier k) else .vss)
  else
    let p := 128 * k + 16 * d + (pos - 1) / 3
    match (pos - 1) % 3 with
    | 0 => .tp p false
    | 1 => .tp p true
    | _ => .vss

/-- A ball of a Moror port whose transmit row is `tx` and whose receive row is `rx` (R435). -/
def mororNet (portB : Bool) (tx rx r c : Nat) : Net :=
  if (r = tx ∨ r = rx) ∧ (c - 9) % 4 < 2 then .moror portB (r == tx) ((c - 9) / 4) ((c - 9) % 4 == 1) else .vss

/-- A supply on the odd columns and VSS on the even ones. -/
def striped (v : Rail) (c : Nat) : Net := if c % 2 = 1 then .supply v else .vss

/-- A ball of a signal region, where a ball without a signal carries `v` or VSS (R435). -/
def signalNet (v : Rail) (r c : Nat) : Net :=
  match pins.find? fun p => p.row == r && p.col == c with
  | some p => .signal p.name
  | none => striped v c

/-- The net of an interior ball (R435). -/
def interiorNet (r c : Nat) : Net :=
  if r = 64 then .vss
  else if 14 ≤ r ∧ r ≤ 58 then
    (if c ≤ 56 then (if (r + c) % 2 = 0 then .supply .core else .vss)
    else if c = 57 then .supply .vpp else if c = 59 then .supply .vddc else striped .vddq c)
  else if c ≤ 44 then (if r ≤ 13 then mororNet false 10 12 r c else mororNet true 60 62 r c)
  else if c ≤ 48 then striped .moror c
  else signalNet (if 61 ≤ r then .safe else .io) r c

/-- The net on the ball of row `r` and column `c`, both 1 to 72 (R434, R435). -/
def ballNet (r c : Nat) : Net :=
  if r ≤ 8 ∧ c ≤ 64 then bandNet 0 (r - 1) c
  else if 65 ≤ c ∧ r ≤ 64 then bandNet 1 (72 - c) r
  else if 65 ≤ r ∧ 9 ≤ c then bandNet 2 (72 - r) (73 - c)
  else if c ≤ 8 then bandNet 3 (c - 1) (73 - r)
  else interiorNet r c

end Sys2Proof.Machine
end

