-- ==== Sys2Proof/Tests/Slice0.lean ====
section
/-! SUPPORT. Tests: a state for each hypothesis of the obligations, the checks of WellFormed, and worked examples of the spec. -/

namespace Sys2Proof.Tests

open Sys2Proof Sys2Proof.Machine

set_option Elab.async false
set_option linter.unusedVariables false

/-! States of the tests. -/

/-- The reset state with register fields set. -/
def put (s : State) (fs : List (Field × Nat)) : State := fs.foldl (fun t e => t.set e.1 e.2) s

/-- A state with fields of active copies set. -/
def puta (s : State) (fs : List (Field × Nat)) : State :=
  fs.foldl (fun t e => { t with act := t.act.set resetWord e.1.addr (putField (t.actW e.1.addr) e.1 e.2) }) s

/-- The reset state in the life-cycle state FIELD, where the REG ports do not act as the supervisor. -/
def fieldLc : State := { State.reset with boot := { resetBoot with lc := .field } }

/-! The Deck. -/

/-- A Deck that runs, with a frame of two lines of 20,000 ns in progress in its first line. -/
def inLine : State :=
  { puta (put State.reset [(Reg.DECK_CTRL.RUN, 1)]) [(Reg.DECK_LINES.LINES, 2), (Reg.DECK_LINE_PERIOD.PERIOD, 20000),
      (Reg.DECK_PERIOD_NUM.NUM, 16666666), (Reg.DECK_PERIOD_DEN.DEN, 1), (Reg.DECK_FLIP_OFFSET.OFFSET, 50000),
      (Reg.DECK_LEAD.LEAD, 2)] with
    deck := { resetDeck with dev := .normal, running := true, started := true, frameNum := 7, phase := .line 0, nextK := some 1,
                             lines := 2, linePeriod := 20000, latchNT := 40000, flipOffset := 50000 } }

/-- The same Deck armed for its first frame. -/
def armed : State := { inLine with deck := { inLine.deck with started := false, phase := .idle, nextK := some 0 } }

/-- The same Deck once line 0 has run for its period. -/
def lineDone : State := { inLine with nt := { resetNt with now8 := 160000 } }

/-- The same Deck at the latch point, with a commit of the host that is due, one that is not, and a dirty word of the supervisor. -/
def atLatch : State :=
  { inLine with
    nt := { resetNt with now8 := 320000, half := 80000 }
    dirty := [(Reg.DECK_LEAD, some .supervisor)]
    deck := { inLine.deck with
      phase := .waitLatch
      commits := [⟨1, 5, .host, none, [(Reg.DECK_LEAD, 3)], true, false, false⟩,
        ⟨2, 6, .supervisor, some 16000000, [(Reg.DECK_LEAD, 4)], true, false, false⟩] } }

/-- A Deck with a commit under validation, one of the other writer, and a dirty word. -/
def validating (reval : Bool) : State :=
  { armed with
    dirty := [(Reg.DECK_LEAD, some .supervisor)]
    deck := { armed.deck with commits := [⟨1, 5, .host, none, [(Reg.DECK_LEAD, 3)], false, reval, false⟩,
      ⟨2, 6, .supervisor, some 16000000, [], true, false, false⟩] } }

/-- Four commits pending. -/
def fourPending : State :=
  { validating false with deck := { resetDeck with commits := [⟨1, 5, .host, none, [], false, false, false⟩,
      ⟨2, 6, .supervisor, none, [], false, false, false⟩, ⟨3, 0, .host, none, [], false, false, false⟩,
      ⟨4, 0, .host, none, [], false, false, false⟩] } }

/-- A LUT load and a palette load in progress from an empty HBM, with the CRC that agrees. -/
def lutLoading (kind slot crc : Nat) : State :=
  { put State.reset [(Reg.HBM_STATUS.STATE, 3)] with layers := { State.reset.layers with load := some ⟨kind, slot, 0x1000, crc⟩ } }

/-- The row of the register map at an address. -/
def specAt (a : Nat) : RegSpec := (specOf a).getD ⟨0, [], 0, 0, 0, 0, 0, 0, 0⟩

/-- A CRC-32C has 32 bits. -/
theorem crc32c_lt (bs : List Byte) : crc32c bs < 4294967296 := by
  have step : ∀ c, c < 2 ^ 32 → crcStep 0x82F63B78 c < 2 ^ 32 := by
    intro c hc
    unfold crcStep
    split
    · exact Nat.xor_lt_two_pow (by omega) (by decide)
    · omega
  have all : ∀ (l : List Byte) c, c < 2 ^ 32 → l.foldl (crcByte 0x82F63B78) c < 2 ^ 32 := by
    intro l
    induction l with
    | nil => exact fun c hc => hc
    | cons b l ih =>
      intro c hc
      refine ih _ ?_
      exact step _ (step _ (step _ (step _ (step _ (step _ (step _ (step _
        (Nat.xor_lt_two_pow hc (Nat.lt_of_lt_of_le b.isLt (by decide))))))))))
  exact Nat.xor_lt_two_pow (all bs _ (by decide)) (by decide)

/-- A device after reset once HBM serves requests. -/
def served0 : State := put State.reset [(Reg.HBM_STATUS.STATE, 3)]

/-- A table load in progress leaves the device up, and HBM serves. -/
theorem lutLoading_ok (kind slot crc : Nat) : (lutLoading kind slot crc).up ∧ (lutLoading kind slot crc).hbmServes := by
  have h : served0.up ∧ served0.hbmServes := by decide +kernel
  exact h

/-! Combs. -/

/-- Pier 511 ACTIVE with a tile of two hogels by two, one ray each, served by comb 7, which is on with its twelve cells. -/
def combOn : State :=
  put inLine [(Reg.PIER_GEOM.NH 511, 2), (Reg.PIER_GEOM.NV 511, 2), (Reg.PIER_GEOM.H 511, 1), (Reg.PIER_GEOM.V 511, 1),
    (Reg.PIER_STATUS.STATE 511, 3), (Reg.COMB_STATUS.POWER 7, 2), (Reg.COMB_STATUS.CELLS_OK 7, 0xFFE)]

/-- A job of pier 511, line 0, hogel `u`. -/
def jobOf (u : Nat) (audit : Bool) : Job := ⟨511, 0, u, 160000, audit⟩

/-- Comb 7 with two jobs in its queue; cell 1 runs another. -/
def queued : State :=
  { combOn with
    combs := combOn.combs.set (fun c => resetComb c) 7 { resetComb 7 with queue := [jobOf 0 false, jobOf 1 false] }
    cells := [(85, ⟨.job (jobOf 0 false), 0, [], 0, false⟩)]
    port := { resetPort with slots := [(511, [⟨0, 0, none, some (some ([], 0x8000)), false⟩, ⟨0, 1, none, none, false⟩])]
                             nextU := [(511, 2)] } }

/-- The same past the deadline of both hogels. -/
def overdue : State := { queued with nt := { resetNt with now8 := 320000 } }

/-- The same with the values of hogel 1 written and its uniformity data missing. -/
def uniMissing : State :=
  { overdue with port := { overdue.port with slots := [(511, [⟨0, 1, some [1, 2, 3], none, false⟩])] } }

/-- Layer 5 enabled with a buffer to read; HBM without failure, or failed whole. -/
def layerOn (failed : Nat) : State :=
  let s := puta (put combOn [(Reg.HBM_STATUS.STATE, 3), (Reg.HBM_STATUS.FAILED, failed)]) [(Reg.LAYER_CTRL.ENABLE 5, 1), (Reg.LAYER_PITCH.PITCH 5, 64),
    (Reg.LAYER_SIZE.SRC_H 5, 8), (Reg.LAYER_SIZE.SRC_W 5, 8)]
  { s with layers := { s.layers with reading := [(5, some ⟨2, 0x10000, 0, 0⟩)] } }

/-- The same, whose comb fetches line 1. -/
def fetching (failed : Nat) : State :=
  { layerOn failed with combs := (layerOn failed).combs.set (fun c => resetComb c) 7 { resetComb 7 with fetchLine := some 1 } }

/-- The audit of hogel 0 on cell 2, whose original ran on cell 1. -/
def auditing (result : Option (List Nat)) : State :=
  { combOn with
    combs := combOn.combs.set (fun c => resetComb c) 7
      { resetComb 7 with audit := some ⟨jobOf 0 true, 1, [0, 0, 0], [], some 2, result⟩ }
    cells := [((if result.isNone then 86 else 87), ⟨.job (jobOf 0 true), 0, [], 0, false⟩)] }

/-- Cell 11 of comb 7 without its program. -/
def programLost : State :=
  { put combOn [(Reg.COMB_STATUS.CELLS_OK 7, 0x7FE)] with cells := [(95, ⟨.idle, 0, [], 0, true⟩)] }

/-- A word of the LUT store of comb 7 that has failed once. -/
def lutFailedOnce : State :=
  { combOn with combs := combOn.combs.set (fun c => resetComb c) 7 { resetComb 7 with lutFailed := [9] } }

/-- The cells before cell 3 of an audited comb with a result are idle. -/
theorem auditing_idle (r : List Nat) : ∀ i, i < 3 → ((auditing (some r)).cell 7 i).work = .idle := by
  intro i hi
  have : i = 0 ∨ i = 1 ∨ i = 2 := by omega
  rcases this with rfl | rfl | rfl <;> rfl

/-- The same state with the PIER_GEOM words of the piers without a tile written out. -/
def listed (s : State) : State := { s with regs := (List.range 511).map (fun p => (Reg.PIER_GEOM p, 0)) ++ s.regs }

/-- In such a state a pier below 511 has no tile. -/
theorem geoNh_listed (s : State) (p : Nat) (hp : p < 511) : (listed s).geoNh p = 0 := by
  have key : ∀ l : List Nat, p ∈ l →
      Table.get resetWord (l.map (fun q => (Reg.PIER_GEOM q, (0 : Word))) ++ s.regs) (Reg.PIER_GEOM p) = 0 := by
    intro l
    induction l with
    | nil => intro h; cases h
    | cons q l ih =>
      intro h
      simp only [List.map_cons, List.cons_append, Table.get]
      split
      · rfl
      · rename_i hne
        exact ih ((List.mem_cons.1 h).resolve_left fun e => hne (e ▸ rfl))
  have h := key (List.range 511) (List.mem_range.2 hp)
  show fieldOf (Table.get resetWord (listed s).regs (Reg.PIER_GEOM p)) (Reg.PIER_GEOM.NH p) = 0
  rw [show (listed s).regs = (List.range 511).map (fun q => (Reg.PIER_GEOM q, (0 : Word))) ++ s.regs from rfl, h]
  simp [fieldOf]

/-- The only tile of such a state is that of pier 511. -/
theorem tiles_listed (s : State) (h : (listed s).geoNh 511 ≠ 0) : (listed s).tiles = [511] := by
  have e : (List.range 511).filter (fun p => decide ((listed s).geoNh p ≠ 0)) = [] :=
    List.filter_eq_nil_iff.2 fun p hp => by simp [geoNh_listed s p (List.mem_range.1 hp)]
  show (List.range (511 + 1)).filter (fun p => decide ((listed s).geoNh p ≠ 0)) = [511]
  rw [List.range_succ, List.filter_append, e]
  simp [h]

/-- Comb 7 past the deadline of the bands of line 0. -/
def bandLate : State := listed { fetching 0 with nt := { resetNt with now8 := 400000 } }
/-- `fetching` with the tiles listed. -/
def fetchL (failed : Nat) : State := listed (fetching failed)
theorem fetchL_tiles : ∀ n ∈ [0, 65535], (fetchL n).tiles = [511] := fun n h => tiles_listed _ (by revert n; decide +kernel)

/-! The codec. -/

/-- A FILL block of an 8 × 8 cell of pixels C8A8, with its bytes at 0x200000. -/
def fillBlock (ctx fsn mode : Nat) (feeder : Bool) : NecBlock :=
  ⟨(⟨1, mode, 1, 1, ctx, fsn, 8, 8, 4, 3619209802⟩ : NecHdr).bytes, 28, [(0x200000, 28)], feeder⟩

/-- A FILL block of one row of 8 pixels, in work. -/
def fillRow : NecBlock := ⟨(⟨1, 3, 1, 1, 262142, 7, 8, 1, 4, 1629923888⟩ : NecHdr).bytes, 28, [(0x200000, 28)], false⟩

/-- Layer 31 in rotation with `n` cells of 8 × 8 pixels C8A8, from context 262,142 on. -/
def rotLayer (n : Nat) : State :=
  puta (put { inLine with hbm := memWrite [] 0x200018 (leBytes 4 0x04030201) } [(Reg.HBM_STATUS.STATE, 3), (Reg.NEC_CTRL.EN, 1), (Reg.THM_THROTTLE.LEVEL, 2)])
    [(Reg.LAYER_CTRL.ENABLE 31, 1), (Reg.LAYER_CTRL.FORMAT 31, 1), (Reg.LAYER_SIZE.SRC_W 31, 8 * n), (Reg.LAYER_SIZE.SRC_H 31, 8),
      (Reg.LAYER_CELL.CW 31, 8), (Reg.LAYER_CELL.CH 31, 8), (Reg.LAYER_STREAM.BASE 31, 262142), (Reg.LAYER_STREAM.COUNT 31, n),
      (Reg.LAYER_PITCH.PITCH 31, 64), (Reg.LAYER_BUF.ADDR 31 2, 256)]

/-- The same with a rotation state, a ring and deferred blocks. -/
def withNec (n : Nat) (l : NecLayer) (ring : List NecBlock) (us : Table NecUnit) : State :=
  { rotLayer n with nec := { State.reset.nec with layers := [(31, l)], ring := ring, units := us } }

/-- FSN 7 of `count` contexts open in buffer 2 with nothing landed, and blocks of later FSNs deferred. -/
def open7 (count : Nat) (deferred : List NecBlock) : NecLayer := ⟨true, true, 7, 2, count, [], ⟨0, 0⟩, ⟨3, 6⟩, ⟨1, 7⟩, 9, deferred⟩

/-- FSN 6 complete in buffer 1 and none open. -/
def done6 (deferred : List NecBlock) : NecLayer := ⟨true, false, 6, 1, 1, [0], ⟨0, 0⟩, ⟨3, 6⟩, ⟨0, 0⟩, 9, deferred⟩

/-- A codec with a job queue of 16 entries at HBM address 64, whose descriptor 1 is `op` for context 5. -/
def jobs (op : Nat) : State :=
  { put (rotLayer 1) [(Reg.NEC_JQ_BASE.ADDR, 1), (Reg.NEC_JQ_SIZE.ENTRIES, 16), (Reg.NEC_JQ_TAIL.TAIL, 2), (Reg.NEC_JQ_HEAD.HEAD, 15)] with
    hbm := memWrite [] 128 (leBytes 4 op ++ leBytes 4 5)
    nec := { State.reset.nec with jqTaken := 1 } }

/-- A unit that works on the bad job descriptor 1. -/
def badJob : State := { jobs 7 with nec := { State.reset.nec with units := [(31, ⟨.seg 1 (memRead (jobs 7).hbm 128 64), 0⟩)] } }

/-- A modified and a clean record in the cache while a flush runs. -/
def flushing : State :=
  { put (rotLayer 1) [(Reg.NEC_STATUS.FLUSH_BUSY, 1), (Reg.NEC_CTX_BASE.ADDR, 1)] with
    nec := { State.reset.nec with cache := [(3, List.replicate 1024 (7 : Byte), true), (5, List.replicate 1024 (8 : Byte), false)] } }

/-- A clip at address 0x100: one frame with one block of layer 31. -/
def clipState (mode : Nat) : State :=
  let h := leBytes 4 0x4E434C50 ++ leBytes 2 1 ++ leBytes 2 0 ++ leBytes 4 1 ++ leBytes 4 (2 ^ 31) ++ leBytes 4 3 ++ leBytes 4 64
    ++ leBytes 36 0
  let b := (fillBlock 262142 0 mode true).hdr ++ leBytes 4 0x04030201
  { put (rotLayer 1) [(Reg.NEC_PLAY_CLIP.ADDR, 1), (Reg.LAYER_INFO.OWNER 31, 1)] with
    hbm := memWrite [] 256 (h ++ leBytes 4 (crc32c h) ++ leBytes 4 72 ++ leBytes 4 b.length ++ b) }

/-- The same clip playing, in blanking, when its frame is due. -/
def playing : State :=
  let s := put (clipState 3) [(Reg.NEC_PLAY_STATUS.STATE, 1)]
  { s with deck := { s.deck with phase := .blank }
           nec := { s.nec with playClip := 1, playMask := 2 ^ 31, ring := [fillBlock 262142 5 3 false] } }

/-- The HBM address of entry i of the job queue. -/
def jq (s : State) (i : Nat) : Nat := s.get Reg.NEC_JQ_BASE.ADDR * 64 + 64 * i
/-- A fill block of m pixels for the record of context 262142. -/
def beB (m : Nat) : NecBlock := fillBlock 262142 7 m false
/-- Unit 31 at that block, with n bytes of layer 31 open. -/
def beS (n m : Nat) : State := withNec n (open7 n []) [] [(31, ⟨.block 31 (beB m), 0⟩)]
/-- The state once the record is read. -/
def beV (n m : Nat) : State := (((beS n m).ctxLoad 262142).getD (ctxFresh, State.reset)).2
/-- A fresh record has no history. -/
theorem ctxFresh_history (e f : Nat) : ctxFresh.hasHistory e f = false := rfl

/-- Unit 31 at the block of one row, with one cell of layer 31 open. -/
def rowS : State := withNec 1 (open7 1 []) [] [(31, ⟨.block 31 fillRow, 0⟩)]
/-- The state once the record is read. -/
def rowV : State := ((rowS.ctxLoad 262142).getD (ctxFresh, State.reset)).2

/-! The port stage, Keystone and Viaduct. -/

/-- Pier 511 with one slot for hogel 1 of line 0, whose turn it is. -/
def hogelTurn (x : Slot) : State :=
  { put combOn [(Reg.HBM_STATUS.STATE, 3)] with port := { resetPort with slots := [(511, [x])], nextU := [(511, 2)], doneU := [(511, 1)] } }

/-- A slot that is complete. -/
def fullSlot : Slot := ⟨0, 1, some [10, 20, 30], some (some (List.replicate 32 (0x88 : Byte), 0x8000)), false⟩

/-- The same pier in KEYSTONE_ONLY. -/
def keyOnly : State := { combOn with deck := { combOn.deck with dev := .keystoneOnly } }

/-- KEY_REQ pins held at levels since the reset, and the debounce time has passed. -/
def keyPins (a b : Bool) : State :=
  { State.reset with key := { resetKey with pinA := a, pinB := b }, nt := { resetNt with isl8 := 7600000 } }

/-- A load of a post-blend set in progress. -/
def plutLoading (crc : Nat) : State := { put State.reset [(Reg.HBM_STATUS.STATE, 3)] with port := { resetPort with load := some ⟨0, 12, 0x100, crc⟩ } }

/-- A rectangle over a section without tiles, in a mode of CFG, evaluated for frame 7. -/
def rectState (w : Rect) : State := { State.reset with port := { resetPort with prevRects := [(63, w)], prevFrame := 7 } }

/-- A packet of CTRL, BULK or RAY in a queue of a pier. -/
def pkt (ptype tag : Nat) : QPkt := ⟨ptype, 0x10000, List.replicate 8 (1 : Byte), tag, none, 0, 0, false, 0, 1, true, false, 0⟩

/-- Pier 511 with packets in its queues. -/
def queuesOf (v : VPier) : State :=
  { combOn with vdt := { State.reset.vdt with piers := [(511, v)] }, nt := { resetNt with now8 := 1000 } }

/-- Group 15 with a list of three entries, gated, that is not tied to the Deck; the first two last 1,000 ns. -/
def gated (v : VGroup) : State :=
  { put inLine [(Reg.VDT_CTRL.GATE_EN, 1), (Reg.VDT_G_B_CFG.COUNT 15 0, 3), (Reg.VDT_G_B_CFG.DEN 15 0, 1),
      (Reg.VDT_G_B_CYCLE.NUM 15 0, 10000), (Reg.VDT_G_B_CFG.FRAME_SYNC 15 0, 0), (Reg.VDT_G_B_CFG.FRAME_SYNC 15 1, 0),
      (Reg.VDT_G_B_E_TIME.INTERVAL 15 0 0, 1000), (Reg.VDT_G_B_E_TIME.INTERVAL 15 0 1, 1000),
      (Reg.VDT_G_B_CFG.COUNT 15 1, 1), (Reg.VDT_G_B_CFG.DEN 15 1, 1), (Reg.VDT_G_B_CYCLE.NUM 15 1, 10000)] with
    vdt := { State.reset.vdt with groups := [(15, v)] }, nt := { resetNt with now8 := 8000, half := 2000 } }

/-- The gating of a group at entry 0. -/
def atEntry0 : VGroup := ⟨true, none, false, 0, 0, some (1, 1000), none, 0, none, 0⟩

/-- The same for the loader of the PostBlend tables. -/
theorem plutLoading_ok (crc : Nat) : (plutLoading crc).up ∧ (plutLoading crc).hbmServes := by
  have h : served0.up ∧ served0.hbmServes := by decide +kernel
  exact h

/-- A rectangle of one hogel at the origin of the section, without its tap, beside the tile of pier 511. -/
def rectOn : State := listed { combOn with port := (rectState ⟨0, 0, 0, 2, 5, 0⟩).port }
theorem rectOn_tiles : rectOn.tiles = [511] := tiles_listed _ (by decide +kernel)

/-- No fault in a lane. -/
def noF : LaneFault := ⟨.none, .none⟩
/-- A fault that lasts. -/
def peF : LaneFault := ⟨.product 1 3, .product 1 3⟩
/-- The composite of pier 511 with a lane outcome. -/
def hp (s : State) : LaneBad → Option (List Nat) := s.compositePass 511 [10,20,30] (List.replicate 32 (0x88 : Byte)) 0x8000
/-- Keystone alone, with three stored nibbles. -/
def kgS : State := {(put keyOnly [(Reg.KEY_PAGE_SIZE.W 3, 8), (Reg.KEY_PAGE_SIZE.H 3, 8)]) with key := { resetKey with active := 8, store := [(0x40000*3, 0x55)], palette := [(3*64+20, 1000), (3*64+21, 2000), (3*64+22, 65535)]}}
/-- Nothing is held back where the offers are empty. -/
theorem settled_of (s : State) {p : Nat} (h : (s.vp p).offer = []) : s.settled p := by
  intro c o k
  rw [h] at k
  cases k

/-- What holds of every packet in the queues holds of the eligible ones. -/
theorem of_eligible (s : State) (p : Nat) (P : QPkt → Prop) (h : ∀ c, c < 4 → ∀ k ∈ (s.vp p).q c, P k) :
    ∀ c k, c < 4 → s.eligible p c k → P k :=
  fun c k hc e => h c hc k (List.mem_of_head? e.1)

/-- No packet in the queues of pier 511, and packets of all classes. -/
def noneQueued : State := queuesOf ⟨[], [], [], 0, none, 0, 0, [], 0, [], 0⟩
def fourQueued : State :=
  queuesOf ⟨[(0, [pkt 1 4]), (1, [pkt 4 9]), (2, [pkt 3 3, pkt 3 4]), (3, [pkt 5 7])], [], [], 0, none, 0, 0, [], 5, [], 0⟩

/-- The Keystone page in a NORMAL device. -/
def kgN : State := { kgS with deck := { kgS.deck with dev := .normal } }

/-! Pier links. -/

/-- Pier 511 in a state of R206 with link state `x`, while the Deck is stopped. -/
def linkOf (st : Nat) (x : PierSt) : State :=
  let s := put State.reset [(Reg.PIER_GEOM.NH 511, 2), (Reg.PIER_GEOM.NV 511, 2), (Reg.PIER_GEOM.H 511, 1), (Reg.PIER_GEOM.V 511, 1),
    (Reg.PIER_STATUS.STATE 511, st), (Reg.PIER_CTRL.FREE_TURN, 1), (Reg.PIER_CTRL.EN, 1), (Reg.PIER_CFG.EN 511, 1),
    (Reg.PIER_FLIPLAT.LAT 511, 500), (Reg.PIER_LATMIN.LAT 511, 100), (Reg.PIER_LATMAX.LAT 511, 1000)]
  { s with piers := [(511, x)], deck := { resetDeck with lastLatch := some 7, frameNum := 8 } }

/-- A link with a window open until 9,000. -/
def inWindow : PierSt := { pier0 with win := some ⟨8, some 3, 9000, 9000, [], false⟩, missRun := 2 }

/-- The window with the burst so far. -/
def winOf (b : List RevPkt) : Win := ⟨8, some 3, 9000, 9000, b, false⟩
/-- A link in a window with a burst. -/
def inBurst (b : List RevPkt) : PierSt := { pier0 with win := some (winOf b), missRun := 2 }
/-- Enough good blocks for lock, and the bytes of a TURN with DIR 1. -/
def seen16 : List BlockSeen := List.replicate 16 .good
def turnD : List Byte := let d := [(1 : Byte), 0, 0, 0, 0, 0]
  d ++ [BitVec.ofNat 8 (crc8 d)]

/-- A pier with a CTRL packet without acknowledgement. -/
def unacked (st : Nat) (x : PierSt) (k : QPkt) : State :=
  { linkOf st x with vdt := { State.reset.vdt with piers := [(511, { vpier0 with unacked := [(2, k)], seq := 6 })] } }

/-- A CTRL packet sent with SEQ 5. -/
def sentPkt (op tries : Nat) : QPkt := ⟨3, op * 65536 + 5, List.replicate 8 (1 : Byte), 4, some 5, tries, 0, false, 0, 0, false, false, 0⟩

/-- A declaration that fits the tile of pier 511. -/
def fitting : Declared := ⟨1, 2, 2, 1, 1, 7, 500, 500, 9⟩

/-- A FLIP due on an ACTIVE pier in blanking. -/
def flipState (late : Bool) : State :=
  { linkOf 3 { pier0 with flipDue := true, flipLate := late, kp := 500 } with
    nt := { resetNt with half := 200000, now8 := 800000 }
    deck := { inLine.deck with phase := .blank, flipNT := 90000 } }

/-- The link of pier 511 alone, whose flip latency fits the active state or not. -/
def latEarly : State := listed (linkOf 3 inWindow)
/-- The same with a flip offset of 50,000 ns. -/
def latFits : State := listed (puta (linkOf 3 inWindow) [(Reg.DECK_FLIP_OFFSET.OFFSET, 50000)])
theorem latFits_tiles : latFits.tiles = [511] := tiles_listed _ (by decide +kernel)

/-- The end of a good reverse packet. -/
def rxE (ptype info : Nat) (d : List Byte) : RxEnd := ⟨d.length / 8, crc32c (sopBytes ptype d.length info ++ d), false⟩

/-- One command for each packet that a tile sends, with its type, INFO word, payload and what waits for the TURN. -/
def tilePackets : List ((RxEnd → Instr) × Nat × Nat × List Byte × RevPkt) :=
  [(fun e => .frameAck ⟨511, e⟩ 7 5 4095 9 ⟨true, false⟩, 9, 7 + 2 ^ 24, leBytes 4 5 ++ leBytes 2 4095 ++ leBytes 2 9, .ack 7 5 4095 9 true false),
   (fun e => .echoRep ⟨511, e⟩ 3 10000 100, 10, 3, leBytes 3 100 ++ leBytes 5 0, .echo 3 10000 100),
   (fun e => .nak ⟨511, e⟩ ⟨4095, 1⟩, 11, 8191, [], .nak 4095),
   (fun e => .declare ⟨511, 2, e⟩ fitting, 8, 2 + 65536, declareBytes fitting, .declare fitting),
   (fun e => .status ⟨511, 2, e⟩ (-40) 1 2 3, 8, 2 + 2 * 65536, leBytes 2 (unsignedOf 16 (-40)) ++ leBytes 2 1 ++ leBytes 2 2 ++ leBytes 2 3,
     .plain 2 (leBytes 2 (unsignedOf 16 (-40)) ++ leBytes 2 1 ++ leBytes 2 2 ++ leBytes 2 3)),
   (fun e => .readData ⟨511, 2, e⟩ (leBytes 8 5), 8, 2 + 3 * 65536, leBytes 8 5, .plain 3 (leBytes 8 5)),
   (fun e => .testResult ⟨511, 2, e⟩ 3 1000, 8, 2 + 4 * 65536, leBytes 4 3 ++ leBytes 4 1000, .result 3 1000),
   (fun e => .tileTelem ⟨511, 2, e⟩ 255 (leBytes 256 7), 8, 2 + 255 * 65536, leBytes 256 7, .tile 255 (leBytes 256 7))]

/-! Network time and clocking. -/

/-- A Deck armed for frame 1, with a slew in progress and alarm 0 armed. -/
def timed : State :=
  { armed with
    deck := { armed.deck with nextK := some 1 }
    nt := { resetNt with slew := some 65536, armed := [(0, some (0, true)), (7, some (200, false))] } }

/-- A clock in holdover of the reference REFCLK, with the forwarded clock valid or not, and a held offset. -/
def holding (fwd : Bool) : State :=
  { put State.reset [(Reg.CLK_REF_CFG.FALLBACK_EN, 1), (Reg.CLK_DCO.FINE, 100), (Reg.CLK_DCO.MEDIUM, 5)] with
    clk := { State.reset.clk with state := .holdover, mraOk := fwd }
    nt := { resetNt with held := some 65536, freqHeld := some 5 } }

/-- A locked clock on REFCLK, with the forwarded clock valid or not. -/
def locked (fwd : Bool) : State :=
  { put (holding fwd) [(Reg.CLK_REF_CFG.REVERT, 1)] with clk := { State.reset.clk with state := .locked, refclkOk := true, mraOk := fwd } }

/-- Port A of the Moror in a state of R292. -/
def mrIn (st : Nat) : State := put State.reset [(Reg.MR_STATUS.STATE 0, st)]

/-- The end of a good TIME frame. -/
def rxT (msg : List Byte) : RxEnd := ⟨ceilDiv msg.length 8, crc32 (sofBytes 4 true true msg.length 0xFFFF ++ msg), false⟩
/-- The end of a TIME frame with a wrong CRC. -/
def rxTb (msg : List Byte) : RxEnd := ⟨ceilDiv msg.length 8, 1 + crc32 (sofBytes 4 true true msg.length 0xFFFF ++ msg), false⟩
/-- Both ports ACTIVE, with a receive latency and an epoch. -/
def mrA : State := put (mrIn mrActive) [(Reg.NT_LAT_RX.LAT 0, 77), (Reg.NT_STATUS.EPOCH, 77)]
/-- The same with TIME frames waiting. -/
def mrWaits (n : Nat) : State := { mrA with mr := [(0, { mrA.mp 0 with timeWait := n })] }

/-! The Moror. -/

/-- Six bytes with their CRC-8. -/
def crcd (d : List Byte) : List Byte := d ++ [byte (crc8 d)]

/-- The AMs of one slot on the eight lanes, with their times of arrival in UI. -/
def amsAt (arrive : List Nat) : List (List Byte × Nat) :=
  (arrive.zip (List.range 8)).map fun e => ((amBlock e.2 77).bytes.drop 1, e.1)

/-- A frame sent and not acknowledged. -/
def sentFrame (seq : Nat) : MrFrame := ⟨2, true, true, seq, leBytes 8 7, 0⟩

/-- A port that has sent and received. -/
def usedPort : MrPort :=
  { mr0 with txSeq := 9, rxSeq := 5, replay := [sentFrame 7, sentFrame 8], limit := [(2, 64), (3, 64), (5, 64)], used := [(2, 32)],
             scene := some [1, 2], m2Want := true, runs := 2 }

/-- Port `x` in a state of R292, with `p`, once the island time has reached 80 ms. -/
def moror (x st : Nat) (p : MrPort) : State :=
  ({ put State.reset [(Reg.MR_STATUS.STATE x, st), (Reg.MR_PM_CFG.M1_IDLE x, 5), (Reg.MR_CTRL.EN x, 1), (Reg.MR_CTRL.ROLE 1, 2)] with
    nt := { resetNt with isl8 := 640000000 } }).setMp x p

/-- Three runs of sync headers. -/
def rxs : List (List Bool) := [List.replicate 100 true, [true,false,true], (List.range 90).map fun k => k % 3 == 0]

/-! The classes of the Moror link. -/

/-- A port with credit in every class. -/
def readyPort : MrPort :=
  { mr0 with txSeq := 4095, rxSeq := 4095, limit := [(1, 64), (2, 64), (3, 64), (5, 64), (6, 64)] }

/-- Port A ACTIVE as device end, with port B ACTIVE as host end or not. -/
def chain (b : Bool) : State :=
  ((put State.reset ([(Reg.MR_STATUS.STATE 0, mrActive)] ++
      if b then [(Reg.MR_STATUS.STATE 1, mrActive), (Reg.MR_STATUS.ROLE_NOW 1, 1)] else [])).setMp 0 readyPort).setMp 1 readyPort

/-- The same in the life-cycle state FIELD. -/
def chainField (b : Bool) : State := { chain b with boot := fieldLc.boot }

/-- What follows the SOF of a frame that arrives whole. -/
def rxFrame (c seq : Nat) (f l : Bool) (d : List Byte) : RxEnd := ⟨ceilDiv d.length 8, crc32 (sofBytes c f l d.length seq ++ d), false⟩

/-- The bytes of a SCENE block of 24 header bytes with PAYLOAD_LEN `n`, and `n` bytes of payload. -/
def sceneBlock (n : Nat) : List Byte := List.replicate 16 1 ++ leBytes 4 n ++ List.replicate (4 + n) 1

/-- A state with HBM running. -/
def served3 (s : State) : State := put s [(Reg.HBM_STATUS.STATE, 3)]
/-- The same with an input ring of 1 MiB. -/
def ringed (s : State) : State := put (served3 s) [(Reg.NEC_RING_BASE.ADDR, 1), (Reg.NEC_RING_SIZE.MIB, 1)]

/-! The HBM controller. -/

/-- HBM in a state of R294, with a unit. -/
def hbmIn (st : Nat) (h : Hbm) : State :=
  { put State.reset [(Reg.HBM_STATUS.STATE, st), (Reg.HBM_TRAIN_CFG.EN, 1), (Reg.HBM_SCRUB_CFG.EN, 1), (Reg.HBM_PM_CFG.SR_EN, 1)] with
    hc := h, nt := { resetNt with now8 := 800000 } }

/-- A unit in which pseudo-channel 5 is due, after `n` retries, with 7 refreshes behind. -/
def duePc (n : Nat) : Hbm :=
  { State.reset.hc with due := [(5, some 2), (9, some 1)], fails := [(5, n)], behind := [(5, 7), (6, 3)], refBank := [(5, 31)] }

/-! Start-up and the life cycle. -/

/-- The inputs of a start in the start mode of the two straps. -/
def bootIn (mode : Nat) : BootIn := ⟨mode, true, true, false, true, 0⟩

/-- A device in full operation: memories, queues and registers written. -/
def busyDevice (lc : LcState) : State :=
  { put (chain true) [(Reg.SYS_BOOT_CTRL.RESCUE_NEXT, 1), (Reg.DECK_LEAD.LEAD, 9), (Reg.BLT_CFG.GAP, 7)] with
    hbm := [(0, 3), (256, 7)], tcm := [(4, 9)], mram := [(0xE0000, 1), (0x205000, 2), (0x220000, 3), (0x7FFFFF, 4)],
    deck := atLatch.deck, dirty := atLatch.dirty,
    evt := { State.reset.evt with eseq := 5, supQ := [⟨1, 2, true, 3, 4, 5, [6, 7, 8, 9]⟩] },
    thm := { State.reset.thm with sensor := 77 }
    pwr := { State.reset.pwr with on := [0, 1, 2, 3] }
    boot := { resetBoot with lc := lc, fuses := { resetBoot.fuses with testDone := decide (lc ≠ .test), retired := decide (lc = .retired) },
                             lcRec := { resetBoot.lcRec with service := decide (lc = .service) } } }

/-- Phase 4 is about to end in a start mode. -/
def phase4 (lc : LcState) (mode : Nat) : State :=
  { busyDevice lc with boot := { (busyDevice lc).boot with loading := true, mode := mode, env := bootIn mode } }

/-- A recorded operation that falls due now. -/
def lcDue (op : Nat) : State :=
  { busyDevice .field with boot := { (busyDevice .field).boot with lcRec := { resetBoot.lcRec with op := op, arg := 1 }, lcResetAt := some 0 } }

/-- RESCUE with a staged image of which 16 bytes are to be programmed, or none. -/
def rescuing (slot : Option Nat) : State :=
  { State.reset with hbm := [(0, 1), (8, 16), (15, 9)]
                     boot := { resetBoot with rescue := true, prog := slot, flash := [(5, 8), (slotSize - 1, 1), (slotSize, 2), (2 * slotSize, 3)] } }

/-- Phase 7, or phase 8 with a released supervisor. -/
def phase (n : Nat) : State :=
  { put State.reset [(Reg.SYS_BOOT_STATUS.PHASE, n)] with sup := { State.reset.sup with released := true } }

/-! The blitter. -/

/-- A descriptor: its first two words, DST with its pitch, DX and DY, W and H, SRC with its pitch, SX and SY, FG and BG. -/
def descr (w0 w1 dst pitch dxy wh src spitch sxy fg bg : Nat) : List Byte :=
  leBytes 4 w0 ++ leBytes 4 w1 ++ leBytes 8 dst ++ leBytes 4 pitch ++ leBytes 4 dxy ++ leBytes 4 wh ++ leBytes 4 0 ++ leBytes 8 src ++
    leBytes 4 spitch ++ leBytes 4 sxy ++ leBytes 5 fg ++ leBytes 5 bg ++ List.replicate 6 0

/-- FILL, COPY, CONVERT, EXPAND with TRANSP, and TEXT of few pixels. -/
def descrOf (kind : Nat) : List Byte :=
  match kind with
  | 1 => descr 1 0xFF00 0x1000 64 0x10001 0x20003 0 0 0 0x123456789A 0
  | 2 => descr 0x32 0xFF11 0x1000 64 0x10001 0x20003 0x2000 64 0x10001 0 0
  | 3 => descr 3 0xFF01 0x1000 64 0x10001 0x20003 0x2000 64 0x10001 0 0
  | 4 => descr 0x20044 0xFF80 0x1000 64 0x10001 0x20003 0x2000 8 0x10001 0xF123456789 7
  | _ => descr 5 0xFF03 0x1000 64 0 2 0x2000 0 0 0x12 0x34

/-- A run of a descriptor at pixel 1. -/
def runOf (kind : Nat) : BltRun := ⟨descrOf kind, 3, 0, 1, false, false, false, false, false⟩

/-- The blitter with a run, and its queue of 16 entries at 0x40000. -/
def blitting (c : Option BltRun) : State :=
  { put State.reset [(Reg.BLT_CTRL.EN, 1), (Reg.BLT_Q_BASE.ADDR, 0x1000), (Reg.BLT_Q_SIZE.ENTRIES, 16), (Reg.BLT_CTRL.STOP_ON_ERR, 1),
      (Reg.BLT_Q_HEAD.HEAD, 3), (Reg.BLT_Q_TAIL.TAIL, 4),
      (Reg.HBM_STATUS.STATE, 3)] with
    blt := ⟨c, 0⟩
    hbm := memWrite (memWrite [] 0x2000 (leBytes 512 (2 ^ 4096 / 7 - 12345))) 0x400C0 (descrOf 2) }

/-! Temperature, calibration and power. -/

/-- A thermal block at level 6 after a sample at 100 °C, with a hold that has passed, and HYST 4. -/
def warm (x : Thm) (off : Int) : State :=
  { put State.reset [(Reg.THM_CFG.HYST, 4), (Reg.THM_THROTTLE.FORCE, 3)] with
    thm := { x with lt := 6 }
    cal := { State.reset.cal with d := [(qOffA, off)] }
    nt := { resetNt with isl8 := oneSecond } }

/-- A calibration unit in a state of R350 with the tile of pier 511 up and a run in progress. -/
def calibrating (st : Nat) (c : Cal) : State :=
  { put (linkOf 3 pier0) [(Reg.CAL_STATUS.STATE, st), (Reg.CAL_CFG.MIN_INTERVAL, 2)] with
    cal := c, clk := (locked false).clk, nt := { resetNt with isl8 := 100 * oneSecond, now8 := 400000 } }

/-- A field record with SEQ `n`. -/
def fieldRec (n : Nat) : FieldRec := ⟨n, [(qTdc, 80)], 640, 5, 7, []⟩

/-- A unit with measurements of the four quantities of the ADPLL and one pier measured in both passes. -/
def measured : Cal :=
  { State.reset.cal with slot0 := some (fieldRec 9), m1 := [(qTdc, some 80), (qMed, some 4000)], m2 := [(qTdc, some 80), (qMed, some 4100)],
                         done := [511], runTj := 77 }

/-- Rails under way: `w` is being brought up. -/
def railing (x : Pwr) : State :=
  { put State.reset [(Reg.PWR_AVS_CFG.EN, 1), (Reg.PWR_AVS.TARGET, 848), (Reg.PWR_AVS_CFG.STEP, 5), (Reg.PWR_AVS_CFG.MARGIN, 20)] with
    pwr := x, sup := { State.reset.sup with released := true }, nt := { resetNt with isl8 := 100 * oneSecond } }

/-- Pass 1 with pier 511 still to be measured. -/
def passing1 : State := listed (calibrating 3 { measured with done := [], tries := [(511, 7)] })
theorem passing1_tiles : passing1.tiles = [511] := tiles_listed _ (by decide +kernel)
/-- Pass 2 with pier 511 still to be measured. -/
def passing2 : State := listed (calibrating 5 { measured with done := [], tries := [(511, 7)] })
theorem passing2_tiles : passing2.tiles = [511] := tiles_listed _ (by decide +kernel)
/-- The first pass a step of 40,000 ns before its slot. -/
def passing3 : State :=
  let s := calibrating 3 { measured with done := [], tries := [(511, 7)] }
  listed { s with nt := { s.nt with now8 := 319999 } }
theorem passing3_tiles : passing3.tiles = [511] := tiles_listed _ (by decide +kernel)
/-- The end of pass 2. -/
def passed : State := listed (calibrating 5 measured)
theorem passed_tiles : passed.tiles = [511] := tiles_listed _ (by decide +kernel)

/-! The supervisor and the safety island. -/

/-- A released supervisor whose watchdog started at the reset, `ms` milliseconds ago, in the life-cycle state SERVICE. -/
def watched (ms : Nat) : State :=
  { put State.reset [(Reg.EVT_LOG_STATUS.HEAD, 16383), (Reg.SUP_WDT_CFG.OPEN, 400), (Reg.EVT_LOG_SEQ.LOGSEQ, 9)] with
    sup := { State.reset.sup with released := true, wdtOn := true }
    nt := { resetNt with isl8 := ms * 8000000 }
    boot := { resetBoot with lc := .service }
    pwr := { State.reset.pwr with on := [0, 1, 7] } }

/-- A record of an event. -/
def evRec (sev : Nat) : EvRec := ⟨0x8001, sev, true, 4, 5, 6, [7, 8, 9]⟩

/-- Queues of `n` records, one of them of severity 2 when `low`, and 3 suppressed events. -/
def evtQueued (n : Nat) (low : Bool) : State :=
  { watched 0 with evt := { State.reset.evt with supQ := (if low then [evRec 2] else [evRec 3]) ++ List.replicate (n - 1) (evRec 3),
                                                 supLost := true, hostLost := true, suppressed := 3, eseq := 65535 } }

/-- A state whose fault pin holds the causes EXPIRED and RECT and the fault of pier 32, with a test pulse until `e`. -/
def faulting (e : Nat) : State :=
  { put (watched 1000) [(Reg.FS_CAUSE.EXPIRED, 1), (Reg.FS_CAUSE.RECT, 1), (Reg.FS_PIER.PIER 1, 3)] with
    fs := { State.reset.fs with testEnd := some e }
    port := { resetPort with failRun := [(33, 2)] } }

/-! Commands outside the ranges of the spec are refused by `Instr.wf`. -/

theorem test_wf_busAddr : (Instr.registerWrite .sup (2 ^ 32) 0).wf = false ∧ (Instr.registerWrite .sup (2 ^ 32 - 4) 0).wf = true := by decide
theorem test_wf_below : (Instr.flipEmission 512).wf = false ∧ (Instr.flipEmission 511).wf = true := by decide
theorem test_wf_framePayload : (Instr.ctrlFrameReceive 0 0 [] ⟨0, 0, false⟩).wf = false ∧ (Instr.ctrlFrameReceive 0 0 [1] ⟨1, 0, false⟩).wf = true := by decide
theorem test_wf_blockBytes : (Instr.mrEieReceive 0 [1, 2, 3]).wf = false ∧ (Instr.mrEieReceive 0 (List.replicate 7 1)).wf = true := by decide
theorem test_wf_laneList : (Instr.mrEqPresetDone 0 [1]).wf = false ∧ (Instr.mrEqPresetDone 0 (List.replicate 8 1)).wf = true := by decide
theorem test_wf_countWords : (Instr.write 0 0 []).wf = false ∧ (Instr.write 0 0 [1]).wf = true := by decide
theorem test_wf_calValues : (Instr.calRunStart []).wf = false ∧ (Instr.calRunStart (List.replicate 4 (0, 0))).wf = true := by decide
theorem test_wf_calVals : (Instr.calPierMeasure 0 (some [])).wf = false ∧ (Instr.calPierMeasure 0 none).wf = true := by decide
theorem test_wf_tileKind : (Instr.tileTelem ⟨0, 0, ⟨0, 0, false⟩⟩ 0x7F []).wf = false ∧
    (Instr.tileTelem ⟨0, 0, ⟨0, 0, false⟩⟩ 0x80 []).wf = true := by decide
theorem test_wf_memFind : (Instr.cellJobComplete 0 0 (.corrected 5 0)).wf = false ∧ (Instr.cellJobComplete 0 0 (.corrected 4 0)).wf = true := by
  decide
theorem test_wf_hbmFind : (Instr.lutLoadDone (.damaged [(36, 1)])).wf = false ∧ (Instr.lutLoadDone (.damaged [(35, 1)])).wf = true := by decide
theorem test_wf_jobFind : (Instr.necJobEnd 0 (some (0, .damaged [(0, 0)]))).wf = false ∧ (Instr.necJobEnd 0 none).wf = true := by decide
theorem test_wf_declared : (Instr.declare ⟨0, 0, ⟨5, 0, false⟩⟩ ⟨1, 256, 1, 1, 1, 1, 1, 1, 1⟩).wf = false ∧
    (Instr.declare ⟨0, 0, ⟨5, 0, false⟩⟩ ⟨1, 255, 1, 1, 1, 1, 1, 1, 1⟩).wf = true := by
  decide
theorem test_wf_bootIn : (Instr.powerOnReset (bootIn 8)).wf = false ∧ (Instr.powerOnReset (bootIn 7)).wf = true := by decide

/-- No row of the table has encoding bits, so no word spells a command. -/
theorem test_no_word : decodeTableWord 32 0xFFFFFFFF = none := by decide

/-! Worked examples of the spec. -/

/-- 06 R141: the first row of the A4 cell. -/
theorem test_row_example :
    (encodeRow ⟨4, false, true, [], [], []⟩ true (statesInit 4) [[3], [3], [3], [3], [9], [9], [2], [2]]).1
      = [0x70, 0x14, 0x90, 0x08, 0xD8, 0x00] := by decide +kernel

/-- 08 R193: the check value of CRC-8. -/
theorem test_crc8_check : crc8 ("123456789".toList.map fun c => byte c.toNat) = 0xF4 := by decide +kernel

/-- 08 R203: the FLIP block of pier 70 (F = 18,000,033,066,666 ns, Kp = 150,000 ns, Cp = 74.218 ns). -/
theorem test_flip_example :
    ({ State.reset with
        nt := { resetNt with sec := 18000 }, deck := { resetDeck with flipNT := 18000033066666 }
        piers := [(70, { pier0 with kp := 150000, cpSum := 15199846, cpN := 1000 })] } : State).flipPlace 70
      = (18000032916586, 15, 22) := by decide +kernel

/-- 12 R298: both addresses of the pixel of the example. -/
theorem test_hbm_map_example :
    State.reset.hbmPc 0x10F256395 = 13 ∧ State.reset.hbmBank 0x10F256395 = 22 ∧
    State.reset.hbmPc 0x110256395 = 3 ∧ State.reset.hbmBank 0x110256395 = 9 := by decide +kernel

/-- 15 R374: the record of the underrun. -/
theorem test_record_example :
    (⟨0x0205, 1, false, 18000007666667, 0x42, 0x12345, [5, 15]⟩ : EvRec).bytes
      = [0x05, 0x02, 0x01, 0x02, 0xEB, 0x1B, 0x10, 0xF4, 0x5E, 0x10, 0x42, 0x00, 0x45, 0x23, 0x01, 0x00, 0x05, 0x0F]
        ++ List.replicate 14 (0 : Byte) := by decide +kernel

/-! Witnesses for statements about functions, and for hypotheses that name the opaque signature check. -/

theorem wit_RowRoundTrip :
    (∃ (c : RowCtx) (row : PixRow), PixRow.fits c.fmt row ∧ (c.inter = false → PixRow.fits c.fmt c.up) ∧ row.length ≤ 4096 ∧ row ≠ []) ∧
    (∃ (n x p : Nat) (e : Int), 0 < n ∧ x < 2 ^ n ∧ p < 2 ^ n ∧
      e = (if 2 ^ (n - 1) ≤ ((x : Int) - p) % 2 ^ n then ((x : Int) - p) % 2 ^ n - 2 ^ n else ((x : Int) - p) % 2 ^ n)) :=
  ⟨⟨⟨4, false, true, [], [], []⟩, [[15]], by unfold PixRow.fits; decide, fun _ => by unfold PixRow.fits; decide, by decide, by decide⟩,
   ⟨12, 4095, 0, -1, by decide⟩⟩

theorem wit_BlitterConversions :
    (runOf 1).kind = 1 ∧ (runOf 2).kind = 2 ∧ (runOf 3).kind = 3 ∧
    (∃ c : BltRun, c.kind = 3 ∧ (c.srcFmt, c.dstFmt) ∉ [(1, 0), (0, 1), (3, 2)]) :=
  ⟨by decide +kernel, by decide +kernel, by decide +kernel,
   ⟨⟨descr 3 0x22 0 64 0 0x10001 0 64 0 0 0, 0, 0, 1, false, false, false, false, false⟩, by decide +kernel⟩⟩

theorem wit_StepTakesFront : ∃ (c : Instr) (rest : List Instr) (s : State), s.pending = c :: rest :=
  ⟨.frameStart, [], { State.reset with pending := [.frameStart] }, rfl⟩

theorem wit_MemoriesCanonical : ∃ s t : State, s.memWf ∧ step s = .next t :=
  ⟨State.reset, _, by unfold State.memWf; decide, rfl⟩

theorem wit_SafeHaltExit : ∃ (c : Instr) (s t : State), s.deck.dev = .safeHalt ∧ exec c s = .next t :=
  ⟨.frameStart, { State.reset with deck := { resetDeck with dev := .safeHalt } }, _, rfl, rfl⟩

/-- A slot passes R390 only with a signature that verifies, which is opaque (log 7): whatever flash makes slot A pass, the
other hypotheses hold beside it. -/
theorem wit_SupervisorRelease_1 (m : Table Byte) (s : State)
    (hs : s = { phase4 .field 1 with boot := { (phase4 .field 1).boot with flash := m } }) (h : s.checkSlot 0 = bootOk) :
    s.boot.loading = true ∧ s.sup.released = false ∧ s.boot.mode ≤ 2 ∧ s.deck.dev ≠ .safeHalt ∧ s.boot.lc ≠ .retired ∧
    (s.trySlots (slotOrder s.boot.mode s.boot.lcRec)).find? (fun e => e.2 == bootOk) = some (0, bootOk) := by
  have hm : s.boot.mode = 1 := by subst hs; rfl
  refine ⟨by subst hs; rfl, by subst hs; rfl, by omega, by subst hs; exact (by decide : (phase4 .field 1).deck.dev ≠ .safeHalt),
    by subst hs; exact (by decide : (phase4 .field 1).boot.lc ≠ .retired), ?_⟩
  rw [hm]
  simp [slotOrder, State.trySlots, h]

/-- As `wit_SupervisorRelease_1`, for a staged image that passes: HBM holds what makes it so. -/
theorem wit_RescueAndLateStart_1_1_ok (m : Table Byte) (s : State) (hs : s = { rescuing none with hbm := m }) (_h : s.checkStaged = bootOk) :
    s.mayWrite .sup Reg.SYS_RESCUE ∧ s.boot.rescue = true ∧ s.boot.lc ≠ .retired ∧ s.boot.prog = none ∧ s.deck.dev ≠ .safeHalt := by
  subst hs
  exact (by decide +kernel : (rescuing none).mayWrite .sup Reg.SYS_RESCUE ∧ (rescuing none).boot.rescue = true ∧
    (rescuing none).boot.lc ≠ .retired ∧ (rescuing none).boot.prog = none ∧ (rescuing none).deck.dev ≠ .safeHalt)


/-! Witnesses: wit_X_p shows, for each case of clause p of Obligations.X, a state and operands that meet all its hypotheses together. -/

theorem wit_PlainWriteCodes :
    (∃ (r : Req) (a : Nat) (s : State) (w : RegSpec), (a / 2 ^ 24 = 28 ∨ a / 2 ^ 24 = 30) ∧ (¬a ∈ [Reg.HBM_TRAIN_REQ, Reg.THM_LIMITS, Reg.THM_THROTTLE, Reg.CAL_CFG, Reg.PWR_AVS_CFG, Reg.PWR_PMB_CMD]) ∧ specOf a = some w ∧ isActiveView a = false ∧ s.mayWrite r a ∧ s.actsSup r = true) ∧
    (∃ (r : Req) (a : Nat) (s : State) (w : RegSpec), (a / 2 ^ 24 = 28 ∨ a / 2 ^ 24 = 30) ∧ (¬a ∈ [Reg.HBM_TRAIN_REQ, Reg.THM_LIMITS, Reg.THM_THROTTLE, Reg.CAL_CFG, Reg.PWR_AVS_CFG, Reg.PWR_PMB_CMD]) ∧ specOf a = some w ∧ isActiveView a = false ∧ s.mayWrite r a ∧ s.actsSup r = false) :=
  ⟨⟨.sup, Reg.HBM_PM_CFG, State.reset, (specAt Reg.HBM_PM_CFG), by decide +kernel⟩,
   ⟨.portB, Reg.PWR_PMB_DATA, fieldLc, (specAt Reg.PWR_PMB_DATA), by decide +kernel⟩⟩

theorem wit_MappedWrites_1_1 : ∃ (r : Req) (a : Nat) (s : State), regionOf a = Region.tcm ∧ s.mayWrite r a :=
  ⟨.sup, 0xFFFFC, State.reset, by decide +kernel⟩

theorem wit_MappedWrites_1_2 : ∃ (r : Req) (a : Nat) (s : State), regionOf a = Region.mram ∧ s.mayWrite r a ∧ s.mramTakes (a - 536870912) = false :=
  ⟨.sup, 0x20100000, State.reset, by decide +kernel⟩

theorem wit_MappedWrites_2 : ∃ (r : Req) (a : Nat) (s : State), (¬s.mayWrite r a) :=
  ⟨.sup, 0x12, State.reset, by decide +kernel⟩

theorem wit_ShadowWrite : ∃ (r : Req) (a : Nat) (s : State), (a / 2 ^ 24 = 17 ∨ a / 2 ^ 24 = 19 ∨ a / 2 ^ 24 = 21) ∧ rwsMask a ≠ 0 ∧ isActiveView a = false ∧ s.mayWrite r a :=
  ⟨.portA, Reg.DECK_LEAD, {fieldLc with dirty := [(Reg.DECK_LEAD, some .supervisor)]}, by decide +kernel⟩

theorem wit_DeckControls_1_1 : ∃ (r : Req) (s : State), s.deck.dev ≠ DevState.safeHalt ∧ s.mayWrite r Reg.DECK_CTRL ∧ s.deck.running = false :=
  ⟨.sup, (put State.reset [(Reg.SYS_BOOT_STATUS.PHASE, 8)]), by decide +kernel⟩

theorem wit_DeckControls_1_2_1 : ∃ (r : Req) (s : State), s.deck.dev ≠ DevState.safeHalt ∧ s.mayWrite r Reg.DECK_CTRL ∧ s.flag Reg.KEY_STATUS.HW_REQ = false ∧ s.deck.running = true ∧ s.deck.busy = true :=
  ⟨.sup, inLine, by decide +kernel⟩

theorem wit_DeckControls_1_2_2 : ∃ (r : Req) (s : State), s.mayWrite r Reg.DECK_CTRL ∧ s.flag Reg.KEY_STATUS.HW_REQ = true :=
  ⟨.sup, (put inLine [(Reg.KEY_STATUS.HW_REQ, 1)]), by decide +kernel⟩

theorem wit_DeckControls_2 : ∃ (r : Req) (s : State), s.deck.dev ≠ DevState.safeHalt ∧ s.mayWrite r Reg.DECK_STATE :=
  ⟨.sup, (put inLine [(Reg.DECK_STATE.REFUSED, 1)]), by decide +kernel⟩

theorem wit_CommitGo :
    (∃ (r : Req) (s : State), s.deck.dev ≠ DevState.safeHalt ∧ s.mayWrite r Reg.DECK_COMMIT ∧ s.deck.commits.length < 4) ∧
    (∃ (r : Req) (s : State), s.deck.dev ≠ DevState.safeHalt ∧ s.mayWrite r Reg.DECK_COMMIT ∧ 4 ≤ s.deck.commits.length) :=
  ⟨⟨.sup, (validating false), by decide +kernel⟩,
   ⟨.portA, fourPending, by decide +kernel⟩⟩

theorem wit_CommitQueue_1_1 : ∃ (s : State) (c : Commit), s.up ∧ (s.deck.commits.any fun x ↦ x.reval) = false ∧ List.find? (fun x ↦ !x.valid) s.deck.commits = some c :=
  ⟨(validating false), ⟨1, 5, .host, none, [(Reg.DECK_LEAD, 3)], false, false, false⟩, by decide +kernel⟩

theorem wit_CommitQueue_1_2 : ∃ (s : State) (c : Commit), s.up ∧ List.find? (fun x ↦ x.reval) s.deck.commits = some c :=
  ⟨(validating true), ⟨1, 5, .host, none, [(Reg.DECK_LEAD, 3)], false, true, false⟩, by decide +kernel⟩

theorem wit_CommitQueue_2 : ∃ (r : Req) (s : State), s.mayWrite r Reg.DECK_COMMIT :=
  ⟨.sup, fourPending, by decide +kernel⟩

theorem wit_FrameCourse_1_1 : ∃ (s : State) (k : Int), s.up ∧ (s.deck.phase = Phase.idle ∨ s.deck.phase = Phase.blank ∧ s.deck.flipDone = true) ∧ s.deck.nextK = some k ∧ s.due (s.schedS k) = false :=
  ⟨{ armed with deck := { armed.deck with nextK := some 1 } }, 1, by decide +kernel⟩

theorem wit_FrameCourse_1_2 : ∃ (s : State) (k : Int), s.up ∧ (s.deck.phase = Phase.idle ∨ s.deck.phase = Phase.blank ∧ s.deck.flipDone = true) ∧ s.deck.nextK = some k ∧ s.due (s.schedS k) = true :=
  ⟨armed, 0, by decide +kernel⟩

theorem wit_FrameCourse_2_1 :
    (∃ (s : State) (v : Nat), s.up ∧ s.deck.phase = Phase.line v ∧ s.lineOver v = false) ∧
    (∃ (s : State) (v : Nat), s.up ∧ s.deck.phase = Phase.line v ∧ s.lineOver v = true) :=
  ⟨⟨inLine, 0, by decide +kernel⟩,
   ⟨lineDone, 0, by decide +kernel⟩⟩

theorem wit_FrameCourse_2_2 : ∃ (s : State), s.up ∧ s.deck.phase = Phase.waitLatch ∧ (s.deck.rephased = true ∨ s.due s.deck.latchNT = true) ∧ (s.get Reg.CAL_STATUS.STATE = 3 ∨ s.get Reg.CAL_STATUS.STATE = 5) :=
  ⟨{ put (linkOf 3 pier0) [(Reg.CAL_STATUS.STATE, 3)] with deck := atLatch.deck, nt := atLatch.nt, dirty := atLatch.dirty, act := atLatch.act, cal := { State.reset.cal with tries := [(511, 7)], cut := [511] } }, by decide +kernel⟩

theorem wit_LayerFence :
    (∃ (r : Req) (n : Nat) (s : State), n < 32 ∧ s.mayWrite r (Reg.LAYER_FENCE n) ∧ s.layerOwner n = s.writerOf r) ∧
    (∃ (r : Req) (n : Nat) (s : State), n < 32 ∧ s.mayWrite r (Reg.LAYER_FENCE n) ∧ s.layerOwner n ≠ s.writerOf r) :=
  ⟨⟨.sup, 31, (put State.reset [(Reg.LAYER_INFO.OWNER 31, 1)]), by decide +kernel⟩,
   ⟨.sup, 31, State.reset, by decide +kernel⟩⟩

theorem wit_TableLoads_1 :
    (∃ (r : Req) (v : Word) (s : State), s.mayWrite r Reg.LAYER_LUT_LOAD ∧ s.layers.load = none ∧ s.lutInUse (BitVec.toNat v % 32) = false) ∧
    (∃ (r : Req) (v : Word) (s : State), s.mayWrite r Reg.LAYER_LUT_LOAD ∧ (s.layers.load.isSome = true ∨ s.lutInUse (BitVec.toNat v % 32) = true)) :=
  ⟨⟨.sup, 0x80000005, (put State.reset [(Reg.LAYER_LUT_LOADED.LOADED, 32)]), by decide +kernel⟩,
   ⟨.sup, 0x80000005, (lutLoading 0 3 7), by decide +kernel⟩⟩

theorem wit_TableLoads_2_1 :
    (∃ (r : Req) (v : Word) (s : State), s.mayWrite r Reg.LAYER_LUT_LOAD ∧ 7 < BitVec.toNat v % 32) ∧
    (∃ (r : Req) (v : Word) (s : State), s.mayWrite r Reg.LAYER_LUT_LOAD ∧ BitVec.toNat v % 32 ≤ 7 ∧ s.layers.load = none) :=
  ⟨⟨.sup, 8, State.reset, by decide +kernel⟩,
   ⟨.sup, 7, State.reset, by decide +kernel⟩⟩

theorem wit_TableLoads_2_2 :
    (∃ (s : State) (l : TableLoad) (bs : List Byte), s.up ∧ s.layers.load = some l ∧ s.hbmServes ∧ l.kind < 2 ∧
      bs = memRead s.hbm (l.src % 2 ^ 34) (if l.kind = 0 then 24576 else 2048) ∧ crc32c bs = l.crc ∧ l.kind = 0 ∧ l.slot < 32) ∧
    (∃ (s : State) (l : TableLoad) (bs : List Byte), s.up ∧ s.layers.load = some l ∧ s.hbmServes ∧ l.kind < 2 ∧
      bs = memRead s.hbm (l.src % 2 ^ 34) (if l.kind = 0 then 24576 else 2048) ∧ crc32c bs = l.crc ∧ l.kind = 1) ∧
    (∃ (s : State) (l : TableLoad) (bs : List Byte), s.up ∧ s.layers.load = some l ∧ s.hbmServes ∧ l.kind < 2 ∧
      bs = memRead s.hbm (l.src % 2 ^ 34) (if l.kind = 0 then 24576 else 2048) ∧ crc32c bs ≠ l.crc) :=
  have ⟨bs, hb⟩ : ∃ bs, bs = memRead (lutLoading 0 0 0).hbm (0x1000 % 2 ^ 34) 24576 := ⟨_, rfl⟩
  have ⟨ps, hp⟩ : ∃ ps, ps = memRead (lutLoading 0 0 0).hbm (0x1000 % 2 ^ 34) 2048 := ⟨_, rfl⟩
  ⟨⟨lutLoading 0 31 (crc32c bs), ⟨0, 31, 0x1000, crc32c bs⟩, bs,
     (lutLoading_ok ..).1, rfl, (lutLoading_ok ..).2, (by decide : 0 < 2), hb, rfl, rfl, (by decide : 31 < 32)⟩,
   ⟨lutLoading 1 7 (crc32c ps), ⟨1, 7, 0x1000, crc32c ps⟩, ps,
     (lutLoading_ok ..).1, rfl, (lutLoading_ok ..).2, (by decide : 1 < 2), hp, rfl, rfl⟩,
   ⟨lutLoading 1 7 4294967296, ⟨1, 7, 0x1000, 4294967296⟩, ps,
     (lutLoading_ok ..).1, rfl, (lutLoading_ok ..).2, (by decide : 1 < 2), hp, Nat.ne_of_lt (crc32c_lt ps)⟩⟩


theorem wit_CellJobCourse_1 : ∃ (s : State) (p : Nat) (c : Nat) (v : Nat) (u : Nat), s.up ∧ s.deck.dev = DevState.normal ∧ p < 512 ∧ s.deck.phase = Phase.line v ∧ s.combFor p = some c ∧ s.get (Reg.COMB_STATUS.POWER c) ≠ 0 ∧ (s.slotsOf p).length < s.effLead p ∧ s.issueDue p v = true ∧ v < s.geoNv p ∧ v < s.ac Reg.DECK_LINES.LINES ∧ u < 64 ∧ u < s.geoNh p ∧ s.needsJob p v u = true ∧ Table.get (fun x ↦ 0) s.port.nextU p ≤ v * 64 + u ∧ (∀ (w : Nat), w < u → Table.get (fun x ↦ 0) s.port.nextU p ≤ v * 64 + w → s.needsJob p v w = false) :=
  ⟨combOn, 511, 7, 0, 0, by decide +kernel⟩

theorem wit_CellJobCourse_2_1_1 : ∃ (s : State) (c : Nat) (k : Nat) (j : Job) (js : List Job), s.up ∧ s.deck.dev = DevState.normal ∧ c < 8 ∧ s.get (Reg.COMB_STATUS.POWER c) = 2 ∧ (s.cb c).queue = j :: js ∧ k ∈ s.jobCells c j ∧ (∀ (i : Nat), i < k → ¬i ∈ s.jobCells c j) :=
  ⟨queued, 7, 2, (jobOf 0 false), [jobOf 1 false], by decide +kernel⟩

theorem wit_CellJobCourse_2_1_2 : ∃ (s : State) (c : Nat) (k : Nat) (j : Job), s.up ∧ s.deck.dev = DevState.normal ∧ c < 8 ∧ k < 12 ∧ (s.cell c k).work = CellWork.job j ∧ j.audit = false ∧ s.bandReady c j.line (s.cell c k).off = true ∧ s.pastDeadline j = false :=
  ⟨(put queued [(Reg.THM_THROTTLE.LEVEL, 3)]), 7, 1, (jobOf 0 false), by decide +kernel⟩

theorem wit_CellJobCourse_2_2_1 : ∃ (s : State) (p : Nat) (u : Nat) (v : Nat) (c : Nat) (x : Slot), s.up ∧ s.deck.dev = DevState.normal ∧ p < 512 ∧ s.deck.phase = Phase.line v ∧ s.deck.start8 + s.deadline8 p v u ≤ s.nt.now8 ∧ List.find? (fun y ↦ y.line == v && y.u == u) (s.slotsOf p) = some x ∧ x.hold = false ∧ x.vals = none ∧ s.combFor p = some c :=
  ⟨overdue, 511, 0, 0, 7, ⟨0, 0, none, some (some ([], 0x8000)), false⟩, by decide +kernel⟩

theorem wit_CellJobCourse_2_2_2 : ∃ (s : State) (p : Nat) (u : Nat) (v : Nat) (x : Slot), s.up ∧ s.deck.dev = DevState.normal ∧ p < 512 ∧ s.deck.phase = Phase.line v ∧ s.deck.start8 + s.deadline8 p v u ≤ s.nt.now8 ∧ List.find? (fun y ↦ y.line == v && y.u == u) (s.slotsOf p) = some x ∧ x.hold = false ∧ x.vals.isSome = true ∧ (∀ (e : List Byte × Nat), x.uni ≠ some (some e)) :=
  ⟨uniMissing, 511, 1, 0, ⟨0, 1, some [1,2,3], none, false⟩, by decide +kernel, by decide +kernel, by decide +kernel, by decide +kernel, by decide +kernel, by decide +kernel, by decide +kernel, by decide +kernel, fun e h => by cases h⟩

theorem wit_PlaneBands_1 : ∃ (s : State) (c : Nat) (v : Nat), s.up ∧ s.deck.dev = DevState.normal ∧ c < 8 ∧ s.get (Reg.COMB_STATUS.POWER c) = 2 ∧ s.deckRunning = true ∧ (s.deck.phase = Phase.blank ∧ v = 0 ∨ s.get (Reg.COMB_STATUS.GAPPED c) = 0 ∧ ∃ w, s.deck.phase = Phase.line w ∧ v = w + 1) ∧ (s.cb c).fetchLine ≠ some v ∧ v < s.deck.lines :=
  ⟨(layerOn 0), 7, 1, by decide +kernel, by decide +kernel, by decide +kernel, by decide +kernel, by decide +kernel, Or.inr ⟨by decide +kernel, 0, rfl, rfl⟩, by decide +kernel⟩

theorem wit_PlaneBands_2_1 :
    (∃ (s : State) (c n v : Nat), s.up ∧ c < 8 ∧ n < 32 ∧ 3 ≤ s.get Reg.HBM_STATUS.STATE ∧ (s.cb c).fetchLine = some v ∧ s.nextBand c v = some n ∧
      ∀ x ∈ s.bandSpans c v n, s.hbmOk x.1 x.2 = true) ∧
    (∃ (s : State) (c n v : Nat), s.up ∧ c < 8 ∧ n < 32 ∧ 3 ≤ s.get Reg.HBM_STATUS.STATE ∧ (s.cb c).fetchLine = some v ∧ s.nextBand c v = some n ∧
      ∃ x ∈ s.bandSpans c v n, s.hbmOk x.1 x.2 = false) :=
  have a : (fetchL 0).bandSpans 7 1 5 = [(65536, 40)] := by
    unfold State.bandSpans State.bandRows State.lineRows State.served
    rw [fetchL_tiles 0 (by decide)]
    decide +kernel
  have b : (fetchL 65535).bandSpans 7 1 5 = [(65536, 40)] := by
    unfold State.bandSpans State.bandRows State.lineRows State.served
    rw [fetchL_tiles 65535 (by decide)]
    decide +kernel
  ⟨⟨fetchL 0, 7, 5, 1, by decide +kernel, by decide, by decide, by decide +kernel, by decide +kernel, by decide +kernel, by rw [a]; decide +kernel⟩,
   ⟨fetchL 65535, 7, 5, 1, by decide +kernel, by decide, by decide, by decide +kernel, by decide +kernel, by decide +kernel, by rw [b]; decide +kernel⟩⟩


theorem wit_PlaneBands_2_2 : ∃ (s : State) (c : Nat), s.up ∧ s.deck.dev = DevState.normal ∧ c < 8 ∧ s.get (Reg.COMB_STATUS.POWER c) = 2 :=
  ⟨bandLate, 7, by decide +kernel⟩

theorem wit_AuditsAndMemories_1_1 :
    (∃ (s : State) (c : Nat) (k : Nat) (a : Audit) (j : Job) (f : Option (List Nat)), s.up ∧ s.deck.dev = DevState.normal ∧ c < 8 ∧ k < 12 ∧ (s.cb c).audit = some a ∧ a.cell = some k ∧ a.result = none ∧ (s.cell c k).work = CellWork.job j ∧ j.audit = true ∧ s.bandReady c j.line a.off = true ∧ s.pastDeadline j = false ∧ f.getD (s.hogelValues (s.ac (Reg.COMB_RECIPE.SLOT c)) j.pier j.u j.line a.off) = a.copied) ∧
    (∃ (s : State) (c : Nat) (k : Nat) (a : Audit) (j : Job) (f : Option (List Nat)), s.up ∧ s.deck.dev = DevState.normal ∧ c < 8 ∧ k < 12 ∧ (s.cb c).audit = some a ∧ a.cell = some k ∧ a.result = none ∧ (s.cell c k).work = CellWork.job j ∧ j.audit = true ∧ s.bandReady c j.line a.off = true ∧ s.pastDeadline j = false ∧ f.getD (s.hogelValues (s.ac (Reg.COMB_RECIPE.SLOT c)) j.pier j.u j.line a.off) ≠ a.copied) :=
  ⟨⟨(auditing none), 7, 2, ⟨jobOf 0 true, 1, [0, 0, 0], [], some 2, none⟩, (jobOf 0 true), (none : Option (List Nat)), by decide +kernel⟩,
   ⟨(auditing none), 7, 2, ⟨jobOf 0 true, 1, [0, 0, 0], [], some 2, none⟩, (jobOf 0 true), some [1,2,3], by decide +kernel⟩⟩

theorem wit_AuditsAndMemories_1_2 :
    (∃ (s : State) (c : Nat) (k : Nat) (m : Nat) (a : Audit) (j : Job) (r : List Nat) (x : List Nat), s.up ∧ c < 8 ∧ k ∈ s.cellsOk c ∧ (s.cb c).audit = some a ∧ a.cell = some m ∧ m < 12 ∧ a.orig < 12 ∧ a.result = some r ∧ (s.cell c k).work = CellWork.job j ∧ j.audit = true ∧ s.pastDeadline a.job = false ∧ (∀ (i : Nat), i < k → i ∈ s.cellsOk c → ∀ (l : Job), (s.cell c i).work = CellWork.job l → l.audit = false) ∧ x ≠ a.copied ∧ x ≠ r) ∧
    (∃ (s : State) (c : Nat) (k : Nat) (m : Nat) (a : Audit) (j : Job) (r : List Nat) (x : List Nat), s.up ∧ c < 8 ∧ k ∈ s.cellsOk c ∧ (s.cb c).audit = some a ∧ a.cell = some m ∧ m < 12 ∧ a.orig < 12 ∧ a.result = some r ∧ (s.cell c k).work = CellWork.job j ∧ j.audit = true ∧ s.pastDeadline a.job = false ∧ (∀ (i : Nat), i < k → i ∈ s.cellsOk c → ∀ (l : Job), (s.cell c i).work = CellWork.job l → l.audit = false) ∧ x = a.copied ∧ x = r) :=
  ⟨⟨(auditing (some [1, 2, 3])), 7, 3, 2, ⟨jobOf 0 true, 1, [0, 0, 0], [], some 2, some [1,2,3]⟩, (jobOf 0 true), [1,2,3], [5], by decide +kernel, by decide, by decide +kernel, by decide +kernel, rfl, by decide, by decide, rfl, by decide +kernel, rfl, by decide +kernel, (fun i hi _ l hl => by rw [auditing_idle _ i hi] at hl; cases hl), by decide, by decide⟩,
   ⟨(auditing (some [0, 0, 0])), 7, 3, 2, ⟨jobOf 0 true, 1, [0, 0, 0], [], some 2, some [0,0,0]⟩, (jobOf 0 true), [0,0,0], [0,0,0], by decide +kernel, by decide, by decide +kernel, by decide +kernel, rfl, by decide, by decide, rfl, by decide +kernel, rfl, by decide +kernel, (fun i hi _ l hl => by rw [auditing_idle _ i hi] at hl; cases hl), by decide, by decide⟩⟩

theorem wit_AuditsAndMemories_2_1 : ∃ (s : State) (c : Nat), s.up ∧ c < 8 ∧ s.get (Reg.COMB_STATUS.POWER c) = 1 :=
  ⟨(put combOn [(Reg.COMB_STATUS.POWER 7, 1)]), 7, by decide +kernel⟩

theorem wit_AuditsAndMemories_2_2_1 : ∃ (s : State) (c : Nat) (k : Nat), s.up ∧ c < 8 ∧ k < 12 ∧ (s.cell c k).progLost = true :=
  ⟨programLost, 7, 11, by decide +kernel⟩

theorem wit_AuditsAndMemories_2_2_2 :
    (∃ (s : State) (c : Nat) (a : Nat), s.up ∧ c < 8 ∧ a ∈ (s.cb c).lutFailed ∧ s.combFailed c = false ∧ (s.cb c).failNext = none) ∧
    (∃ (s : State) (c : Nat) (a : Nat), s.up ∧ c < 8 ∧ (¬a ∈ (s.cb c).lutFailed)) :=
  ⟨⟨lutFailedOnce, 7, 9, by decide +kernel⟩,
   ⟨lutFailedOnce, 7, 8, by decide +kernel⟩⟩

theorem wit_BlockIntake_1 :
    (∃ (s : State) (u : Nat) (b : NecBlock) (rest : List NecBlock) (n : Nat), s.up ∧ s.mayTake u ∧ s.noneDeferred ∧ s.nec.ring = b :: rest ∧ s.nec.cache.length < 2048 ∧ s.blockCheck b = (nrOk, n) ∧ n < 32 ∧ s.ctxBusy (necHdr b.hdr).ctx = false ∧ (s.necL n).isOpen = true ∧ (s.necL n).fsn % 2 ^ 32 = (necHdr b.hdr).fsn % 2 ^ 32 ∧ (¬(necHdr b.hdr).ctx - s.ac (Reg.LAYER_STREAM.BASE n) ∈ (s.necL n).landed)) ∧
    (∃ (s : State) (u : Nat) (b : NecBlock) (rest : List NecBlock) (n : Nat) (k : Nat) (m : Nat), s.up ∧ s.mayTake u ∧ s.noneDeferred ∧ s.nec.ring = b :: rest ∧ s.nec.cache.length < 2048 ∧ s.blockCheck b = (nrOk, n) ∧ n < 32 ∧ s.inFlight n = false ∧ (s.necL n).isOpen = false ∧ ((s.necL n).opened = false ∧ k = 0 ∨ (s.necL n).opened = true ∧ k = ((s.necL n).buf + 1) % 3 ∧ 0 < diff32 (necHdr b.hdr).fsn (s.necL n).fsn) ∧ ((s.necL n).getBuf k).st = 0 ∧ m ≠ n) ∧
    (∃ (s : State) (u : Nat) (b : NecBlock) (rest : List NecBlock) (n : Nat) (k : Nat) (w : Nat), s.up ∧ s.mayTake u ∧ s.noneDeferred ∧ s.nec.ring = b :: rest ∧ s.nec.cache.length < 2048 ∧ s.blockCheck b = (nrOk, n) ∧ n < 32 ∧ s.inFlight n = false ∧ (s.necL n).isOpen = false ∧ ((s.necL n).opened = false ∧ k = 0 ∨ (s.necL n).opened = true ∧ k = ((s.necL n).buf + 1) % 3 ∧ 0 < diff32 (necHdr b.hdr).fsn (s.necL n).fsn) ∧ ((s.necL n).getBuf k).st = 0 ∧ w ≠ u) ∧
    (∃ (s : State) (u : Nat) (b : NecBlock) (rest : List NecBlock), s.up ∧ s.mayTake u ∧ s.noneDeferred ∧ s.nec.ring = b :: rest ∧ s.nec.cache.length < 2048 ∧ b.feeder = false ∧ ((s.blockCheck b).fst ≠ nrOk ∨ (s.blockCheck b).snd < 32 ∧ (s.necL (s.blockCheck b).snd).isOpen = true ∧ diff32 (necHdr b.hdr).fsn (s.necL (s.blockCheck b).snd).fsn < 0)) :=
  ⟨⟨(withNec 1 (open7 1 []) [fillBlock 262142 7 3 false] []), 31, (fillBlock 262142 7 3 false), [], 31, by unfold State.noneDeferred State.mayTake; decide +kernel⟩,
   ⟨(withNec 1 (done6 []) [fillBlock 262142 7 3 false, fillBlock 262142 8 3 false] []), 31, (fillBlock 262142 7 3 false), [fillBlock 262142 8 3 false], 31, 2, 2, by unfold State.noneDeferred State.mayTake; decide +kernel⟩,
   ⟨(withNec 1 (done6 []) [fillBlock 262142 7 3 false, fillBlock 262142 8 3 false] []), 31, (fillBlock 262142 7 3 false), [fillBlock 262142 8 3 false], 31, 2, 2, by unfold State.noneDeferred State.mayTake; decide +kernel⟩,
   ⟨(withNec 1 (open7 1 []) [fillBlock 262142 6 3 false] []), 31, (fillBlock 262142 6 3 false), [], by unfold State.noneDeferred State.mayTake; decide +kernel⟩⟩

theorem wit_BlockIntake_2_1 : ∃ (s : State) (u : Nat) (n : Nat) (k : Nat) (b : NecBlock) (rest : List NecBlock), s.up ∧ s.mayTake u ∧ n < 32 ∧ s.nec.cache.length < 2048 ∧ (s.necL n).deferred = b :: rest ∧ s.blockCheck b = (nrOk, n) ∧ (s.necL n).isOpen = true ∧ (s.necL n).opened = true ∧ s.inFlight n = false ∧ 0 < diff32 (necHdr b.hdr).fsn (s.necL n).fsn ∧ k = ((s.necL n).buf + 1) % 3 ∧ (s.necL n).buf < 3 ∧ ((s.necL n).getBuf k).st = 0 :=
  ⟨(withNec 1 (open7 1 [fillBlock 262142 9 3 false,fillBlock 262142 7 3 false]) [] []), 31, 31, 0, (fillBlock 262142 9 3 false), [fillBlock 262142 7 3 false], by unfold State.mayTake; decide +kernel⟩

theorem wit_BlockIntake_2_2 : ∃ (s : State) (u : Nat) (n : Nat) (k : Nat) (b : NecBlock) (rest : List NecBlock), s.up ∧ s.mayTake u ∧ n < 32 ∧ s.nec.cache.length < 2048 ∧ (s.necL n).deferred = b :: rest ∧ s.blockCheck b = (nrOk, n) ∧ (s.necL n).isOpen = false ∧ s.inFlight n = false ∧ ((s.necL n).opened = false ∧ k = 0 ∨ (s.necL n).opened = true ∧ k = ((s.necL n).buf + 1) % 3 ∧ 0 < diff32 (necHdr b.hdr).fsn (s.necL n).fsn) ∧ ((s.necL n).getBuf k).st = 0 :=
  ⟨(withNec 1 (done6 [fillBlock 262142 9 3 false,fillBlock 262142 7 3 false]) [] []), 31, 31, 2, (fillBlock 262142 9 3 false), [fillBlock 262142 7 3 false], by unfold State.mayTake; decide +kernel⟩

theorem wit_BlockEnd :
    (∃ (s : State) (u n : Nat) (b : NecBlock) (r : CtxRec) (v : State) (pay : List Byte), s.up ∧ u < 32 ∧ n < 32 ∧ (s.necU u).work = .block n b ∧
      s.get Reg.HBM_STATUS.FAILED = 0 ∧ s.nec.cache.length < 2048 ∧ 8 ≤ b.size ∧ (necHdr b.hdr).ctx < 2 ^ 18 ∧
      s.ctxLoad (necHdr b.hdr).ctx = some (r, v) ∧ s.blockPayload b = some pay ∧
      ((necHdr b.hdr).mode = 0 ∨ (necHdr b.hdr).mode = 3 ∨ r.hasHistory (s.necL n).epoch (necHdr b.hdr).fsn = true) ∧
      b.size = 24 + (necHdr b.hdr).len ∧
      ((v.touchSpans b.spans).decodeBlock (necHdr b.hdr) ⟨r.histAddr, r.histPitch⟩ pay (r.startStates (necHdr b.hdr).fmt (necHdr b.hdr).reset)
        (s.cellAddr n (s.necL n).buf (s.cellOf n (necHdr b.hdr).ctx)) (s.ac (Reg.LAYER_PITCH.PITCH n))).1 = nrOk ∧
      (s.necL n).isOpen = true ∧ (s.necL n).fsn = (necHdr b.hdr).fsn) ∧
    (∃ (s : State) (u n : Nat) (b : NecBlock) (r : CtxRec) (v : State) (pay : List Byte), s.up ∧ u < 32 ∧ n < 32 ∧ (s.necU u).work = .block n b ∧
      s.get Reg.HBM_STATUS.FAILED = 0 ∧ s.nec.cache.length < 2048 ∧ 8 ≤ b.size ∧ (necHdr b.hdr).ctx < 2 ^ 18 ∧
      s.ctxLoad (necHdr b.hdr).ctx = some (r, v) ∧ s.blockPayload b = some pay ∧ ((necHdr b.hdr).mode = 1 ∨ (necHdr b.hdr).mode = 2) ∧
      r.hasHistory (s.necL n).epoch (necHdr b.hdr).fsn = false) :=
  ⟨⟨rowS, 31, 31, fillRow, ctxFresh, rowV, [1, 2, 3, 4], by decide +kernel, by decide, by decide, by decide +kernel, by decide +kernel, by decide +kernel,
     by decide +kernel, by decide +kernel, by decide +kernel, by decide +kernel, by decide +kernel, by decide +kernel, by decide +kernel, by decide +kernel,
     by decide +kernel⟩,
   ⟨beS 2 2, 31, 31, beB 2, ctxFresh, beV 2 2, [1, 2, 3, 4], by decide +kernel, by decide, by decide, by decide +kernel, by decide +kernel, by decide +kernel,
     by decide +kernel, by decide +kernel, by decide +kernel, by decide +kernel, by decide +kernel, ctxFresh_history _ _⟩⟩


theorem wit_CodecJobs_1_1 : ∃ (r : Req) (s : State), s.mayWrite r Reg.NEC_JQ_TAIL ∧ s.actsSup r = true :=
  ⟨.sup, (jobs 1), by decide +kernel⟩

theorem wit_CodecJobs_1_2 : ∃ (s : State) (u : Nat) (d : List Byte) (i : Instr), s.up ∧ s.mayTake u ∧ 0 < s.get Reg.NEC_JQ_SIZE.ENTRIES ∧ s.nec.jqTaken ≠ s.get Reg.NEC_JQ_TAIL.TAIL ∧ s.nec.cache.length < 2048 ∧ s.get Reg.HBM_STATUS.FAILED = 0 ∧ (s.nec.ring = [] ∧ s.noneDeferred ∨ s.jobUnits < s.get Reg.NEC_CTRL.JOB_UNITS ∧ (i = Instr.decode u ∨ i = Instr.encode u ∨ i = Instr.resume u)) ∧ d = memRead s.hbm ((s.get Reg.NEC_JQ_BASE.ADDR * 64 + 64 * s.nec.jqTaken) % 2 ^ 34) 64 ∧ s.ctxBusy (leNat (List.take 4 (List.drop 4 d)) % 2 ^ 18) = false ∧ (i = Instr.decode u ∧ leNat (List.take 4 d) % 16 = 1 ∧ bit (leNat (List.take 4 d)) 8 = false ∨ i = Instr.encode u ∧ leNat (List.take 4 d) % 16 = 2 ∧ bit (leNat (List.take 4 d)) 8 = false ∨ i = Instr.resume u ∧ bit (leNat (List.take 4 d)) 8 = true ∨ i = Instr.necThrottlePauseEnd u) :=
  ⟨(jobs 1), 31, (memRead (jobs 1).hbm 128 64), (.decode 31), by unfold State.noneDeferred State.mayTake; decide +kernel⟩

theorem wit_CodecJobs_2 :
    (∃ (s : State) (u : Nat) (i : Nat) (a : Nat) (d : List Byte) (e : JobEnd), s.up ∧ u < 32 ∧ (s.necU u).work = UnitWork.seg i d ∧ e = s.runJob d ∧ a = s.get Reg.NEC_JQ_BASE.ADDR * 64 + 64 * i ∧ s.get Reg.HBM_STATUS.FAILED = 0 ∧ a + 64 ≤ 2 ^ 34) ∧
    (∃ (s : State) (u : Nat) (i : Nat) (a : Nat) (d : List Byte) (e : JobEnd), s.up ∧ u < 32 ∧ (s.necU u).work = UnitWork.seg i d ∧ e = s.runJob d ∧ a = s.get Reg.NEC_JQ_BASE.ADDR * 64 + 64 * i ∧ d ≠ [] ∧ (leNat (List.take 4 d) % 16 ≠ 1 ∧ leNat (List.take 4 d) % 16 ≠ 2 ∨ (s.layerOfCtx (leNat (List.take 4 (List.drop 4 d)) % 2 ^ 18)).isSome = true)) :=
  ⟨⟨badJob, 31, 1, (jq badJob 1), (memRead (jobs 7).hbm 128 64), (badJob.runJob (memRead (jobs 7).hbm 128 64)), by decide +kernel, by decide +kernel, by decide +kernel, rfl, rfl, by decide +kernel, by decide +kernel⟩,
   ⟨badJob, 31, 1, (jq badJob 1), (memRead (jobs 7).hbm 128 64), (badJob.runJob (memRead (jobs 7).hbm 128 64)), by decide +kernel, by decide +kernel, by decide +kernel, rfl, rfl, by decide +kernel, by decide +kernel⟩⟩

theorem wit_FlushAndClips_1_1 : ∃ (r : Req) (s : State), s.mayWrite r Reg.NEC_CTRL ∧ s.actsSup r = true :=
  ⟨.sup, (put flushing [(Reg.NEC_STATUS.FLUSH_BUSY, 0)]), by decide +kernel⟩

theorem wit_FlushAndClips_1_2 : ∃ (s : State), s.up ∧ s.get Reg.NEC_STATUS.FLUSH_BUSY = 1 ∧ s.hbmServes ∧ (∀ (e : Nat × List Byte × Bool), e ∈ s.nec.cache → e.snd.fst.length = 1024 ∧ s.ctxAddr e.fst + 1024 ≤ 2 ^ 34) ∧ (List.map (fun x ↦ x.fst) s.nec.cache).Nodup :=
  ⟨flushing, by decide +kernel⟩

theorem wit_FlushAndClips_2_1 :
    (∃ (r : Req) (v : Word) (s : State) (h : List Byte) (bs : List NecBlock), s.mayWrite r Reg.NEC_PLAY_CTRL ∧ s.actsSup r = true ∧ bit (BitVec.toNat v) 30 = false ∧ 3 ≤ s.get Reg.HBM_STATUS.STATE ∧ s.clipHeader (s.get Reg.NEC_PLAY_CLIP.ADDR) = some h ∧ s.clipFrame (s.get Reg.NEC_PLAY_CLIP.ADDR) h 0 = some bs ∧ s.clipFrameOk (leAt h 12 4) true bs = true) ∧
    (∃ (r : Req) (v : Word) (s : State) (h : List Byte) (bs : List NecBlock), s.mayWrite r Reg.NEC_PLAY_CTRL ∧ s.actsSup r = true ∧ bit (BitVec.toNat v) 30 = false ∧ 3 ≤ s.get Reg.HBM_STATUS.STATE ∧ s.clipHeader (s.get Reg.NEC_PLAY_CLIP.ADDR) = some h ∧ s.clipFrame (s.get Reg.NEC_PLAY_CLIP.ADDR) h 0 = some bs ∧ s.clipFrameOk (leAt h 12 4) true bs = false) ∧
    (∃ (r : Req) (v : Word) (s : State), s.mayWrite r Reg.NEC_PLAY_CTRL ∧ s.actsSup r = true ∧ bit (BitVec.toNat v) 30 = false ∧ 3 ≤ s.get Reg.HBM_STATUS.STATE ∧ s.clipHeader (s.get Reg.NEC_PLAY_CLIP.ADDR) = none) :=
  ⟨⟨.sup, 0x80000000, (clipState 3), ((clipState 3).clipHeader 1).get!, (((clipState 3).clipFrame 1 (((clipState 3).clipHeader 1).get!) 0).get!), by decide +kernel⟩,
   ⟨.sup, 0x80000000, (clipState 2), ((clipState 2).clipHeader 1).get!, (((clipState 2).clipFrame 1 (((clipState 2).clipHeader 1).get!) 0).get!), by decide +kernel⟩,
   ⟨.sup, 0x80000000, (put (clipState 2) [(Reg.NEC_PLAY_CLIP.ADDR, 2)]), by decide +kernel⟩⟩

theorem wit_FlushAndClips_2_2_1 : ∃ (r : Req) (s : State), s.mayWrite r Reg.NEC_PLAY_CTRL ∧ s.actsSup r = true ∧ s.get Reg.NEC_PLAY_STATUS.STATE = 1 :=
  ⟨.sup, playing, by decide +kernel⟩

theorem wit_FlushAndClips_2_2_2 : ∃ (s : State) (h : List Byte) (bs : List NecBlock), s.up ∧ s.get Reg.NEC_PLAY_STATUS.STATE = 1 ∧ s.nec.playHold = 0 ∧ s.deck.phase = Phase.blank ∧ s.clipHeader s.nec.playClip = some h ∧ s.nec.playNext < leAt h 8 4 ∧ s.clipFrame s.nec.playClip h s.nec.playNext = some bs ∧ s.clipFrameOk s.nec.playMask (s.nec.playNext == 0) bs = true :=
  ⟨playing, (playing.clipHeader 1).get!, (playing.clipFrame 1 ((playing.clipHeader 1).get!) 0).get!, by decide +kernel⟩

theorem wit_HogelCourse_1 : ∃ (s : State) (p : Nat) (u : Nat) (x : Slot), s.up ∧ p < 512 ∧ s.hbmServes ∧ List.find? (fun y ↦ y.u == u && y.uni.isNone) (s.slotsOf p) = some x :=
  ⟨(hogelTurn ⟨0, 1, none, none, false⟩), 511, 1, ⟨0, 1, none, none, false⟩, by decide +kernel⟩

theorem wit_HogelCourse_2 :
    (∃ (s : State) (p : Nat) (v : Nat) (u : Nat) (x : Slot) (q : Nat) (c : Nat), s.up ∧ p < 512 ∧ s.carries p = true ∧ s.turn p = some (v, u) ∧ s.keyPath p v u = false ∧ s.holdsWithoutJob p = false ∧ s.noOversize p 0 ∧ List.find? (fun y ↦ y.line == v && y.u == u) (s.slotsOf p) = some x ∧ (x.hold = true ∨ ∃ vals d, x.vals = some vals ∧ x.uni = some (some d)) ∧ (q ≠ p ∨ c ≠ 0)) ∧
    (∃ (s : State) (p : Nat) (v : Nat) (u : Nat) (x : Slot), s.up ∧ p < 512 ∧ s.carries p = true ∧ s.turn p = some (v, u) ∧ s.keyPath p v u = false ∧ s.holdsWithoutJob p = false ∧ s.noOversize p 0 ∧ List.find? (fun y ↦ y.line == v && y.u == u) (s.slotsOf p) = some x ∧ (x.hold = true ∨ ∃ vals d, x.vals = some vals ∧ x.uni = some (some d)) ∧ x.hold = true) :=
  ⟨⟨(hogelTurn {fullSlot with hold := true}), 511, 0, 1, {fullSlot with hold := true}, 0x8000, 0x8000, by decide +kernel, by decide, by decide +kernel, by decide +kernel, by decide +kernel, by decide +kernel, by unfold State.noOversize; decide +kernel, by decide +kernel, Or.inl rfl, by decide⟩,
   ⟨(hogelTurn {fullSlot with hold := true}), 511, 0, 1, {fullSlot with hold := true}, by decide +kernel, by decide, by decide +kernel, by decide +kernel, by decide +kernel, by decide +kernel, by unfold State.noOversize; decide +kernel, by decide +kernel, Or.inl rfl, rfl⟩⟩

theorem wit_Keystone_1 :
    ∃ (s : State) (p v u : Nat) (ecc : Option Nat) (f : LaneFault) (idx : Option (Nat × Nat)) (tap : List Nat) (pass : LaneBad → Option (List Nat)),
      s.up ∧ p < 512 ∧ s.carries p = true ∧ s.turn p = some (v, u) ∧ s.keyPath p v u = true ∧ s.hasLane p = true ∧ s.noOversize p 0 ∧
      idx = (s.laneEcc p u v ecc).laneKey p u v ∧ tap = (match idx with
        | some e => s.keyColour e
        | none => [0, 0, 0]) ∧
      pass = s.keyPass p idx tap ∧ s.deck.dev = .keystoneOnly ∧ pass f.first = none ∧ pass f.retry = none :=
  ⟨keyOnly, 511, 0, 0, none, peF, none, [0, 0, 0], keyOnly.keyPass 511 none [0, 0, 0], by decide +kernel, by decide, by decide +kernel, by decide +kernel,
   by decide +kernel, by decide +kernel, by unfold State.noOversize; decide +kernel, by decide +kernel, rfl, rfl, rfl, by decide +kernel, by decide +kernel⟩

/-- A page over the hogel needs the place of the tile, which is opaque (log 10): its index is used, and none where the lane finds its
word uncorrectable. -/
theorem wit_Keystone_1_page (hx : Config.tileX 511 = 0) (hy : Config.tileY 511 = 0) :
    (∃ (s : State) (p v u : Nat) (ecc : Option Nat) (f : LaneFault) (idx : Option (Nat × Nat)) (cs : List Nat),
      s.up ∧ p < 512 ∧ s.carries p = true ∧ s.turn p = some (v, u) ∧ s.keyPath p v u = true ∧ s.hasLane p = true ∧ s.noOversize p 0 ∧
      idx = (s.laneEcc p u v ecc).laneKey p u v ∧ idx = some (3, 5) ∧ s.keyPass p idx (s.keyColour (3, 5)) f.first = some cs) ∧
    (∃ (s : State) (p v u : Nat) (ecc : Option Nat) (idx : Option (Nat × Nat)),
      s.up ∧ p < 512 ∧ s.carries p = true ∧ s.turn p = some (v, u) ∧ s.keyPath p v u = true ∧ s.hasLane p = true ∧ s.noOversize p 0 ∧
      idx = (s.laneEcc p u v ecc).laneKey p u v ∧ idx = none ∧ s.deck.dev ≠ .keystoneOnly) := by
  have k : (kgN.hogelKey 511 0 0) = some (3, 5) := by unfold State.hogelKey sectionHogel; rw [hx, hy]; decide +kernel
  have p : kgN.keyPath 511 0 0 = true := by show (kgN.hogelKey 511 0 0).isSome = true; rw [k]; rfl
  have a : (kgN.laneEcc 511 0 0 none).laneKey 511 0 0 = some (3, 5) := by
    unfold State.laneEcc State.laneKey State.pagesRead State.hogelKey sectionHogel; rw [hx, hy]; decide +kernel
  have b : (kgN.laneEcc 511 0 0 (some 3)).laneKey 511 0 0 = none := by
    unfold State.laneEcc State.laneKey State.pagesRead State.hogelKey sectionHogel; rw [hx, hy]; decide +kernel
  exact ⟨⟨kgN, 511, 0, 0, none, noF, some (3, 5), ((kgN.keyPass 511 (some (3, 5)) (kgN.keyColour (3, 5)) noF.first).getD []),
      by decide +kernel, by decide, by decide +kernel, by decide +kernel, p, by decide +kernel, by unfold State.noOversize; decide +kernel,
      a.symm, rfl, by decide +kernel⟩,
    ⟨kgN, 511, 0, 0, some 3, none, by decide +kernel, by decide, by decide +kernel, by decide +kernel, p, by decide +kernel,
      by unfold State.noOversize; decide +kernel, b.symm, rfl, by decide +kernel⟩⟩


theorem wit_Keystone_2_1 : ∃ (a : Bool) (b : Bool) (s : State), (¬(s.key.pinA = a ∧ s.key.pinB = b)) :=
  ⟨true, false, State.reset, by decide +kernel⟩

theorem wit_Keystone_2_2_1 :
    (∃ (s : State), s.key.deb = true ∧ s.key.since + 7600000 ≤ s.isl ∧ s.key.pinA ≠ s.key.pinB) ∧
    (∃ (s : State), s.key.deb = true ∧ s.key.since + 7600000 ≤ s.isl ∧ s.key.pinA = s.key.pinB) :=
  ⟨⟨(keyPins true false), by decide +kernel⟩,
   ⟨(keyPins true true), by decide +kernel⟩⟩

theorem wit_Keystone_2_2_2_1 :
    (∃ (r : Req) (s : State), s.mayWrite r Reg.KEY_SUP_MASK ∧ r = Req.sup) ∧
    (∃ (r : Req) (s : State), s.mayWrite r Reg.KEY_SUP_MASK ∧ r ≠ Req.sup) :=
  ⟨⟨.sup, State.reset, by decide +kernel⟩,
   ⟨.portA, fieldLc, by decide +kernel⟩⟩

theorem wit_Keystone_2_2_2_2 : ∃ (s : State), s.up :=
  ⟨(put State.reset [(Reg.KEY_PAGES.PRESENT, 0x8001), (Reg.KEY_PAGE_CRC.CRC 0, 5)]), by decide +kernel⟩

theorem wit_PortChecks_1_1 :
    (∃ (r : Req) (v : Word) (s : State), s.mayWrite r Reg.PORT_LUT_LOAD ∧ s.actsSup r = true ∧ 12 < BitVec.toNat v % 16) ∧
    (∃ (r : Req) (v : Word) (s : State), s.mayWrite r Reg.PORT_LUT_LOAD ∧ s.actsSup r = true ∧ BitVec.toNat v % 16 ≤ 12 ∧ s.port.load.isSome = true) ∧
    (∃ (r : Req) (v : Word) (s : State), s.mayWrite r Reg.PORT_LUT_LOAD ∧ s.actsSup r = true ∧ BitVec.toNat v % 16 ≤ 12 ∧ s.port.load = none) :=
  ⟨⟨.sup, 13, State.reset, by decide +kernel⟩,
   ⟨.sup, 12, (plutLoading 5), by decide +kernel⟩,
   ⟨.sup, 12, State.reset, by decide +kernel⟩⟩

theorem wit_PortChecks_1_2 :
    (∃ (s : State) (l : TableLoad) (bs : List Byte), s.up ∧ s.port.load = some l ∧ s.hbmServes ∧ l.slot < 13 ∧
      bs = memRead s.hbm l.src 6150 ∧ crc32c bs = l.crc) ∧
    (∃ (s : State) (l : TableLoad) (bs : List Byte), s.up ∧ s.port.load = some l ∧ s.hbmServes ∧ l.slot < 13 ∧
      bs = memRead s.hbm l.src 6150 ∧ crc32c bs ≠ l.crc) :=
  have ⟨bs, hb⟩ : ∃ bs, bs = memRead (plutLoading 0).hbm 0x100 6150 := ⟨_, rfl⟩
  ⟨⟨plutLoading (crc32c bs), ⟨0, 12, 0x100, crc32c bs⟩, bs,
     (plutLoading_ok _).1, rfl, (plutLoading_ok _).2, (by decide : 12 < 13), hb, rfl⟩,
   ⟨plutLoading 4294967296, ⟨0, 12, 0x100, 4294967296⟩, bs,
     (plutLoading_ok _).1, rfl, (plutLoading_ok _).2, (by decide : 12 < 13), hb, Nat.ne_of_lt (crc32c_lt bs)⟩⟩


theorem wit_PortChecks_2 :
    (∃ (s : State) (r : Nat) (w : Rect) (taps : List (Option Tap)), s.up ∧ r < 64 ∧ s.port.prevRects.find? (fun e => e.1 == r) = some (r, w) ∧
      taps = (s.rectHogels w).map (fun e => s.port.prevTap.get noTap (tapKey e)) ∧ none ∉ taps ∧ w.cfg % 4 = 1) ∧
    (∃ (s : State) (r : Nat) (w : Rect) (taps : List (Option Tap)), s.up ∧ r < 64 ∧ s.port.prevRects.find? (fun e => e.1 == r) = some (r, w) ∧
      taps = (s.rectHogels w).map (fun e => s.port.prevTap.get noTap (tapKey e)) ∧ w.cfg % 4 = 2 ∧ s.skipReason w taps = 0 ∧
      crc32c (taps.flatMap fun x => (x.map (tapBytes w)).getD []) = w.exp) ∧
    (∃ (s : State) (r : Nat) (w : Rect) (taps : List (Option Tap)), s.up ∧ r < 64 ∧ s.port.prevRects.find? (fun e => e.1 == r) = some (r, w) ∧
      taps = (s.rectHogels w).map (fun e => s.port.prevTap.get noTap (tapKey e)) ∧ w.cfg % 4 = 2 ∧ s.skipReason w taps = 0 ∧
      crc32c (taps.flatMap fun x => (x.map (tapBytes w)).getD []) ≠ w.exp) :=
  ⟨⟨rectState ⟨1, 0, 0, 1, 0, 0⟩, 63, ⟨1, 0, 0, 1, 0, 0⟩, [], by decide +kernel⟩,
   ⟨rectState ⟨1, 0, 0, 2, 0, 0⟩, 63, ⟨1, 0, 0, 2, 0, 0⟩, [], by decide +kernel⟩,
   ⟨rectState ⟨1, 0, 0, 2, 5, 0⟩, 63, ⟨1, 0, 0, 2, 5, 0⟩, [], by decide +kernel⟩⟩

/-- The case of a missing tap needs a tile where the rectangle lies; the positions of tiles are opaque (log 10). -/
theorem wit_PortChecks_2_missing (hx : Config.tileX 511 = 0) (hy : Config.tileY 511 = 0) :
    ∃ (s : State) (r : Nat) (w : Rect) (taps : List (Option Tap)), s.up ∧ r < 64 ∧ s.port.prevRects.find? (fun e => e.1 == r) = some (r, w) ∧
      taps = (s.rectHogels w).map (fun e => s.port.prevTap.get noTap (tapKey e)) ∧ none ∈ taps :=
  have h : rectOn.rectHogels ⟨0, 0, 0, 2, 5, 0⟩ = [(0, 0)] := by
    have a : rectOn.geoNh 511 = 2 := by decide +kernel
    have b : rectOn.geoNv 511 = 2 := by decide +kernel
    simp [State.rectHogels, rectOn_tiles, hx, hy, a, b, bits, List.range_succ]
  ⟨rectOn, 63, ⟨0, 0, 0, 2, 5, 0⟩, [none], by decide +kernel, by decide, by decide +kernel, by rw [h]; decide +kernel, by decide⟩


theorem wit_ViaductPackets_1_1 :
    (∃ (s : State) (p : Nat) (c : Nat) (d : List Byte), s.up ∧ p < 512 ∧ (c = 1 ∨ c = 2) ∧ 8 ≤ d.length ∧ d.length ≤ 256 ∧ d.length % 8 = 0 ∧ s.noOversize p c) ∧
    (∃ (s : State) (p : Nat) (c : Nat) (d : List Byte), s.up ∧ p < 512 ∧ (c = 1 ∨ c = 2) ∧ 8 ≤ d.length ∧ d.length ≤ 256 ∧ d.length % 8 = 0 ∧ s.waiting p c = [] ∧ s.oversize (groupOf p) c (d.length / 8 + 2) = true) :=
  ⟨⟨combOn, 511, 2, (List.replicate 256 1), by unfold State.noOversize; decide +kernel⟩,
   ⟨(put (gated atEntry0) [(Reg.VDT_G_B_E_TIME.INTERVAL 15 0 0, 100), (Reg.VDT_G_B_E_GATE.BULK 15 0 0, 1), (Reg.VDT_G_B_E_GATE.CTRL 15 0 0, 1)]), 511, 2, (List.replicate 256 1), by decide +kernel⟩⟩

theorem wit_ViaductPackets_1_2_1 : ∃ (s : State) (p : Nat) (c : Nat), s.up ∧ p < 512 ∧ (c = 0 ∨ c = 3) ∧ s.noOversize p c ∧ s.settled p :=
  ⟨combOn, 511, 3, by decide +kernel, by decide, by decide, by unfold State.noOversize; decide +kernel, settled_of _ (by decide +kernel)⟩

theorem wit_ViaductPackets_1_2_2 : ∃ (s : State) (p : Nat) (d : List Byte), s.up ∧ p < 512 ∧ 8 ≤ d.length ∧ d.length ≤ 256 ∧ d.length % 8 = 0 ∧ (s.vp p).q 2 = [] ∧ (∀ (o : Nat × QPkt), o ∈ (s.vp p).offer → o.fst ≠ 2) ∧ (∀ (k : QPkt), (s.vp p).tx ≠ some (2, k)) ∧ s.noOversize p 2 :=
  ⟨combOn, 511, (List.replicate 16 1), by decide +kernel, by decide, by decide, by decide, by decide, by decide +kernel, (fun o ho => by rw [(by decide +kernel : (combOn.vp 511).offer = [])] at ho; cases ho), (fun k hk => by rw [(by decide +kernel : (combOn.vp 511).tx = none)] at hk; cases hk), by unfold State.noOversize; decide +kernel⟩

theorem wit_ViaductPackets_2_1 :
    (∃ (s : State) (p : Nat), s.up ∧ p < 512 ∧ (s.vp p).tx = none ∧ (s.vp p).eop8 + 330 ≤ s.block8 p ∧ s.lineHeld p = false ∧
      1 ≤ s.pierState p ∧ s.pierState p ≤ 4 ∧ (∀ c, c < 4 → s.noOversize p c) ∧ s.settled p ∧
      (∀ c k, c < 4 → s.eligible p c k → (diff48 k.tag (s.vp p).v).natAbs < 2 ^ 46) ∧ ∀ c k, c < 4 → ¬ s.eligible p c k) ∧
    (∃ (s : State) (p : Nat), s.up ∧ p < 512 ∧ (s.vp p).tx = none ∧ (s.vp p).eop8 + 330 ≤ s.block8 p ∧ s.lineHeld p = false ∧
      1 ≤ s.pierState p ∧ s.pierState p ≤ 4 ∧ (∀ c, c < 4 → s.noOversize p c) ∧ s.settled p ∧
      (∀ c k, c < 4 → s.eligible p c k → (diff48 k.tag (s.vp p).v).natAbs < 2 ^ 46) ∧ ∃ c k, c < 4 ∧ s.eligible p c k) :=
  ⟨⟨noneQueued, 511, by decide +kernel, by decide, by decide +kernel, by decide +kernel, by decide +kernel, by decide +kernel, by decide +kernel,
    by unfold State.noOversize; decide +kernel, settled_of _ (by decide +kernel), of_eligible _ _ _ (by decide +kernel),
    of_eligible _ _ (fun _ => False) (by decide +kernel)⟩,
   ⟨fourQueued, 511, by decide +kernel, by decide, by decide +kernel, by decide +kernel, by decide +kernel, by decide +kernel, by decide +kernel,
    by unfold State.noOversize; decide +kernel, settled_of _ (by decide +kernel), of_eligible _ _ _ (by decide +kernel),
    2, pkt 3 3, by decide, by unfold State.eligible; decide +kernel⟩⟩


theorem wit_ViaductPackets_2_2 :
    (∃ (s : State) (p : Nat) (c : Nat) (k : QPkt), s.up ∧ p < 512 ∧ (s.vp p).tx = some (c, k) ∧ (s.vp p).txEnd8 ≤ s.nt.now8 ∧ (s.vp p).queue = []) ∧
    (∃ (s : State) (p : Nat) (c : Nat) (k : QPkt), s.up ∧ p < 512 ∧ (s.vp p).tx = some (c, k) ∧ (s.vp p).txEnd8 ≤ s.nt.now8 ∧ (k.ptype ≠ 1 ∧ k.ptype ≠ 2 ∨ k.last = false)) ∧
    (∃ (s : State) (p : Nat) (c : Nat) (k : QPkt), s.up ∧ p < 512 ∧ (s.vp p).tx = some (c, k) ∧ (s.vp p).txEnd8 ≤ s.nt.now8 ∧ (s.vp p).queue ≠ []) ∧
    (∃ (s : State) (p : Nat) (c : Nat) (k : QPkt), s.up ∧ p < 512 ∧ (s.vp p).tx = some (c, k) ∧ (s.vp p).txEnd8 ≤ s.nt.now8 ∧ (k.ptype = 1 ∨ k.ptype = 2) ∧ k.last = true ∧ s.deck.dev ≠ DevState.normal) :=
  ⟨⟨(queuesOf ⟨[], [], [(1,7)], 5, some (2, pkt 3 5), 900, 0, [], 5, [], 0⟩), 511, 2, (pkt 3 5), by decide +kernel⟩,
   ⟨(queuesOf ⟨[], [], [(1,7)], 5, some (2, pkt 3 5), 900, 0, [], 5, [], 0⟩), 511, 2, (pkt 3 5), by decide +kernel⟩,
   ⟨{(queuesOf ⟨[(1, [pkt 4 9])], [], [(1,7)], 5, some (0, pkt 1 5), 900, 0, [], 5, [], 0⟩) with deck := { inLine.deck with dev := .hold}, port := (hogelTurn fullSlot).port}, 511, 0, (pkt 1 5), by decide +kernel⟩,
   ⟨{(queuesOf ⟨[(1, [pkt 4 9])], [], [(1,7)], 5, some (0, pkt 1 5), 900, 0, [], 5, [], 0⟩) with deck := { inLine.deck with dev := .hold}, port := (hogelTurn fullSlot).port}, 511, 0, (pkt 1 5), by decide +kernel⟩⟩

theorem wit_GateLists_1_1 :
    (∃ (s : State) (g : Nat) (x : Nat) (m : Int), s.up ∧ g < 16 ∧ (s.vg g).nextC = some (m, x) ∧ s.frameSync g (s.bankOf g) = false ∧ s.due x = true ∧ (s.vg g).wantAt8 ≤ s.nt.now8) ∧
    (∃ (s : State) (g : Nat) (x : Nat) (m : Int), s.up ∧ g < 16 ∧ (s.vg g).nextC = some (m, x) ∧ s.frameSync g (s.bankOf g) = false ∧ s.due x = true ∧ s.nt.now8 < (s.vg g).wantAt8) :=
  ⟨⟨(gated {atEntry0 with wantOn := some false}), 15, 1000, 1, by decide +kernel⟩,
   ⟨(gated {atEntry0 with wantOn := some false, wantAt8 := 9000}), 15, 1000, 1, by decide +kernel⟩⟩

theorem wit_GateLists_1_2 : ∃ (s : State) (g : Nat) (e : Nat) (f : Nat), s.up ∧ g < 16 ∧ s.gating g = Gating.list ∧ (s.entrySeq g (s.bankOf g))[(s.vg g).pos]? = some e ∧ (s.entrySeq g (s.bankOf g))[(s.vg g).pos + 1]? = some f ∧ f < 64 ∧ (s.vg g).begun8 + s.get (Reg.VDT_G_B_E_TIME.INTERVAL g (s.bankOf g) e) * 8 ≤ s.nt.now8 :=
  ⟨(gated atEntry0), 15, 0, 1, by decide +kernel⟩

theorem wit_GateLists_2_1 :
    (∃ (r : Req) (v : Word) (s : State) (g : Nat), s.mayWrite r Reg.VDT_CTRL ∧ s.actsSup r = true ∧ s.get Reg.VDT_CTRL.GATE_EN ≠ BitVec.toNat v % 2 ∧ s.boot.loading = false ∧ g < 16 ∧ s.frameSync g (s.bankOf g) = true ∧ s.deckRunning = true) ∧
    (∃ (r : Req) (v : Word) (s : State) (g : Nat), s.mayWrite r Reg.VDT_CTRL ∧ s.actsSup r = true ∧ s.get Reg.VDT_CTRL.GATE_EN ≠ BitVec.toNat v % 2 ∧ s.boot.loading = false ∧ g < 16 ∧ s.frameSync g (s.bankOf g) = true ∧ s.deckRunning = false) ∧
    (∃ (r : Req) (s : State), s.mayWrite r Reg.VDT_CTRL ∧ s.actsSup r = false) :=
  ⟨⟨.sup, 0, (put (gated atEntry0) [(Reg.VDT_G_B_CFG.FRAME_SYNC 0 0, 1)]), 0, by decide +kernel⟩,
   ⟨.sup, 0, {(put (gated atEntry0) [(Reg.VDT_G_B_CFG.FRAME_SYNC 0 0, 1)]) with deck := resetDeck}, 0, by decide +kernel⟩,
   ⟨.portA, fieldLc, by decide +kernel⟩⟩

theorem wit_GateLists_2_2_1 :
    (∃ (r : Req) (a : Nat) (g : Nat) (b : Nat) (s : State), bankAt a = some (g, b) ∧ s.mayWrite r a ∧ s.actsSup r = true ∧ (b = s.bankOf g ∧ s.get Reg.VDT_CTRL.GATE_EN = 1 ∨ b ≠ s.bankOf g ∧ (s.vg g).swap.isSome = true)) ∧
    (∃ (r : Req) (a : Nat) (g : Nat) (b : Nat) (s : State), bankAt a = some (g, b) ∧ s.mayWrite r a ∧ s.actsSup r = true ∧ (¬(b = s.bankOf g ∧ s.get Reg.VDT_CTRL.GATE_EN = 1 ∨ b ≠ s.bankOf g ∧ (s.vg g).swap.isSome = true))) :=
  ⟨⟨.sup, (Reg.VDT_G_B_CFG 15 0), 15, 0, (gated atEntry0), by decide +kernel⟩,
   ⟨.sup, (Reg.VDT_G_B_CFG 15 1), 15, 1, (gated atEntry0), by decide +kernel⟩⟩

theorem wit_GateLists_2_2_2_1 :
    (∃ (r : Req) (g : Nat) (s : State), g < 16 ∧ s.mayWrite r (Reg.VDT_G_SWAP g) ∧ s.actsSup r = true ∧ s.bankError g (1 - s.bankOf g) = none ∧ (s.vg g).swap = none) ∧
    (∃ (r : Req) (g : Nat) (s : State), g < 16 ∧ s.mayWrite r (Reg.VDT_G_SWAP g) ∧ s.actsSup r = true ∧ s.bankError g (1 - s.bankOf g) = none ∧ (s.vg g).swap.isSome = true) ∧
    (∃ (r : Req) (g : Nat) (s : State) (e : Nat), g < 16 ∧ s.mayWrite r (Reg.VDT_G_SWAP g) ∧ s.actsSup r = true ∧ s.bankError g (1 - s.bankOf g) = some e) :=
  ⟨⟨.sup, 15, (gated atEntry0), by decide +kernel⟩,
   ⟨.sup, 15, (gated {atEntry0 with swap := some (some (1, 5), false)}), by decide +kernel⟩,
   ⟨.sup, 15, (put (gated atEntry0) [(Reg.VDT_G_B_CFG.DEN 15 1, 65)]), 5, by decide +kernel⟩⟩

theorem wit_GateLists_2_2_2_2 : ∃ (s : State) (g : Nat) (x : Nat) (m : Int) (late : Bool), s.up ∧ g < 16 ∧ (s.vg g).swap = some (some (m, x), late) ∧ s.due x = true :=
  ⟨(gated {atEntry0 with swap := some (some (1, 500), false)}), 15, 500, 1, false, by decide +kernel⟩

theorem wit_ReverseWindows_1 :
    (∃ (s : State) (p : Nat), s.up ∧ p < 512 ∧ s.flag Reg.PIER_CTRL.FREE_TURN = true ∧ s.gating (groupOf p) ≠ Gating.list ∧ s.deckRunning = false ∧ s.nt.half % 400000 < 5 ∧ (s.pierState p = 3 ∨ s.pierState p = 4) ∧ s.geoNh p ≠ 0 ∧ s.lineHeld p = false ∧ s.echoIsDue p = false ∧ (s.vp p).tx = none ∧ s.nextFlip p = none ∧ ((s.pr p).period = some s.periodNow ∨ (s.pr p).period = none ∨ (s.pr p).usedWin = true) ∧ 8 ≤ (s.pr p).grantOf 160000) ∧
    (∃ (s : State) (p : Nat), s.up ∧ p < 512 ∧ s.flag Reg.PIER_CTRL.FREE_TURN = true ∧ s.gating (groupOf p) ≠ Gating.list ∧ s.deckRunning = false ∧ s.nt.half % 400000 < 5 ∧ (s.pierState p = 3 ∨ s.pierState p = 4) ∧ s.geoNh p ≠ 0 ∧ s.lineHeld p = false ∧ s.echoIsDue p = false ∧ (s.vp p).tx = none ∧ s.nextFlip p = none ∧ ((s.pr p).period = some s.periodNow ∨ (s.pr p).period = none ∨ (s.pr p).usedWin = true) ∧ (s.pr p).grantOf 160000 < 8) :=
  ⟨⟨(linkOf 3 pier0), 511, by decide +kernel⟩,
   ⟨(linkOf 4 {pier0 with cpSum := 1863680, cpN := 1}), 511, by decide +kernel⟩⟩

theorem wit_ReverseWindows_2_1 :
    (∃ (s : State) (p : Nat) (w : Win) (seen : List BlockSeen) (d : List Byte), s.inBurst p w [] ∧ turnGood seen d ∧ s.pierState p ≠ 1 ∧ (s.pr p).test = none ∧ (s.vp p).tx = none) ∧
    (∃ (s : State) (p : Nat) (w : Win) (seen : List BlockSeen) (d : List Byte), s.inBurst p w [] ∧ (¬turnGood seen d)) :=
  ⟨⟨(linkOf 3 (inBurst [])), 511, (winOf []), seen16, turnD, by unfold State.inBurst turnGood; decide +kernel⟩,
   ⟨(linkOf 3 (inBurst [])), 511, (winOf []), (seen16.drop 1), turnD, by unfold State.inBurst turnGood; decide +kernel⟩⟩

theorem wit_ReverseWindows_2_2_1 :
    (∃ (s : State) (p : Nat) (w : Win) (b : List RevPkt), s.inBurst p w b ∧ w.latest8 ≤ s.nt.now8) ∧
    (∃ (s : State) (p : Nat) (w : Win) (b : List RevPkt), s.inBurst p w b ∧ s.nt.now8 < w.latest8) :=
  ⟨⟨{linkOf 3 (inBurst []) with nt := {resetNt with now8 := 9000}}, 511, (winOf []), [], by unfold State.inBurst; decide +kernel⟩,
   ⟨(linkOf 3 (inBurst [.nak 3])), 511, (winOf [.nak 3]), [.nak 3], by unfold State.inBurst; decide +kernel⟩⟩

theorem wit_ReverseWindows_2_2_2 :
    (∃ (s : State) (p : Nat), s.up ∧ p < 512 ∧ s.deckRunning = false ∧ (s.pr p).period ≠ some s.periodNow ∧ (s.pr p).period ≠ none ∧ (s.pr p).usedWin = false) ∧
    (∃ (s : State) (p : Nat), s.up ∧ p < 512 ∧ s.deckRunning = false ∧ (s.pr p).period ≠ some s.periodNow ∧ ((s.pr p).period = none ∨ (s.pr p).usedWin = true)) ∧
    (∃ (s : State) (p : Nat), s.up ∧ p < 512 ∧ s.deckRunning = false ∧ (s.pr p).period = some s.periodNow) :=
  ⟨⟨(linkOf 3 {pier0 with missRun := 2, period := some 5}), 511, by decide +kernel⟩,
   ⟨(linkOf 3 {pier0 with missRun := 2, usedWin := true, period := some 5}), 511, by decide +kernel⟩,
   ⟨(linkOf 3 {pier0 with period := some (linkOf 3 pier0).periodNow}), 511, by decide +kernel⟩⟩

/-- Each packet of a tile, whole. -/
theorem wit_TileMessages_1_1 : ∀ q ∈ tilePackets, ∃ (s : State) (w : Win) (b : List RevPkt) (e : RxEnd), s.inBurst 511 w b ∧
    tileSends 511 e (q.1 e) q.2.1 q.2.2.1 q.2.2.2.1 q.2.2.2.2 ∧
    (q.2.2.2.1.length % 8 = 0 ∧ q.2.2.2.1.length ≤ 256 ∧ e.cut = false ∧ e.blocks = q.2.2.2.1.length / 8 ∧
      e.crc = crc32c (sopBytes q.2.1 q.2.2.2.1.length q.2.2.1 ++ q.2.2.2.1)) := by
  intro q hq
  have g : ∀ q ∈ tilePackets, q.2.2.2.1.length % 8 = 0 ∧ q.2.2.2.1.length ≤ 256 := by decide +kernel
  have h : (linkOf 3 (inBurst [])).inBurst 511 (winOf []) [] := by unfold State.inBurst; decide +kernel
  refine ⟨_, _, _, rxE q.2.1 q.2.2.1 q.2.2.2.1, h, ?_, (g q hq).1, (g q hq).2, rfl, rfl, rfl⟩
  simp only [tilePackets, List.mem_cons, List.not_mem_nil, or_false] at hq
  unfold tileSends
  rcases hq with rfl | rfl | rfl | rfl | rfl | rfl | rfl | rfl
  · exact .inl ⟨7, 5, 4095, 9, true, false, rfl, rfl, rfl, rfl, rfl⟩
  · exact .inr (.inl ⟨3, 10000, 100, rfl, rfl, rfl, rfl, rfl⟩)
  · exact .inr (.inr (.inl ⟨4095, 1, rfl, rfl, rfl, rfl, rfl⟩))
  · exact .inr (.inr (.inr (.inl ⟨2, fitting, rfl, rfl, rfl, rfl, rfl⟩)))
  · exact .inr (.inr (.inr (.inr (.inl ⟨2, 1, 2, 3, -40, rfl, rfl, rfl, rfl, rfl⟩))))
  · exact .inr (.inr (.inr (.inr (.inr (.inl ⟨2, rfl, rfl, rfl, rfl⟩)))))
  · exact .inr (.inr (.inr (.inr (.inr (.inr (.inl ⟨2, 3, 1000, rfl, rfl, rfl, rfl, rfl⟩))))))
  · exact .inr (.inr (.inr (.inr (.inr (.inr (.inr ⟨2, 255, rfl, rfl, rfl, rfl⟩))))))

/-- A packet of a tile that is not whole. -/
theorem wit_TileMessages_1_1_bad : ∃ (s : State) (p : Nat) (w : Win) (b : List RevPkt) (e : RxEnd) (i : Instr) (ptype info : Nat) (d : List Byte)
    (k : RevPkt), s.inBurst p w b ∧ tileSends p e i ptype info d k ∧
    ¬ (d.length % 8 = 0 ∧ d.length ≤ 256 ∧ e.cut = false ∧ e.blocks = d.length / 8 ∧ e.crc = crc32c (sopBytes ptype d.length info ++ d)) :=
  ⟨linkOf 3 (inBurst []), 511, winOf [], [], rxE 11 4096 [], .nak ⟨511, rxE 11 4096 []⟩ ⟨4095, 1⟩, 11, 8191, [], .nak 4095,
   by unfold State.inBurst; decide +kernel, by unfold tileSends; exact .inr (.inr (.inl ⟨4095, 1, rfl, rfl, rfl, rfl, rfl⟩)), by decide +kernel⟩


theorem wit_TileMessages_1_2_1 :
    (∃ (s : State) (p : Nat) (frame : Nat) (crc : Nat) (ack : Nat) (kept : Nat) (n : Nat) (he : Bool) (fm : Bool) (w : Win) (seen : List BlockSeen) (d : List Byte), s.inBurst p w [RevPkt.ack frame crc ack kept he fm] ∧ turnGood seen d ∧ (s.pr p).test = none ∧ s.pierState p = 3 ∧ (∀ (e : Nat × QPkt), e ∈ (s.vp p).unacked → e.snd.ptype ≠ 3) ∧ s.deck.lastLatch = some n ∧ (s.pr p).firstF ≤ n ∧ (s.pr p).ackDone ≠ some n ∧ frame % 2 ^ 24 = n % 2 ^ 24 ∧ s.alarmCovered p = false ∧ crc = Table.get (fun x ↦ 0) s.port.crcPrev p) ∧
    (∃ (s : State) (p : Nat) (frame : Nat) (crc : Nat) (ack : Nat) (kept : Nat) (n : Nat) (he : Bool) (fm : Bool) (w : Win) (seen : List BlockSeen) (d : List Byte), s.inBurst p w [RevPkt.ack frame crc ack kept he fm] ∧ turnGood seen d ∧ (s.pr p).test = none ∧ s.pierState p = 3 ∧ (∀ (e : Nat × QPkt), e ∈ (s.vp p).unacked → e.snd.ptype ≠ 3) ∧ s.deck.lastLatch = some n ∧ (s.pr p).firstF ≤ n ∧ (s.pr p).ackDone ≠ some n ∧ frame % 2 ^ 24 = n % 2 ^ 24 ∧ s.alarmCovered p = false ∧ crc ≠ Table.get (fun x ↦ 0) s.port.crcPrev p) :=
  ⟨⟨({linkOf 3 (inBurst [.ack 7 0 5 0 false true]) with vdt := { State.reset.vdt with piers := [(511, { vpier0 with unacked := [(1, {sentPkt 5 1 with ptype := 4})], seq := 6 })] }}), 511, 7, 0, 5, 0, 7, false, true, (winOf [.ack 7 0 5 0 false true]), seen16, turnD, by unfold State.inBurst turnGood; decide +kernel⟩,
   ⟨({linkOf 3 (inBurst [.ack 7 5 4 0 false true]) with vdt := { State.reset.vdt with piers := [(511, { vpier0 with unacked := [(1, {sentPkt 5 1 with ptype := 4})], seq := 6 })] }}), 511, 7, 5, 4, 0, 7, false, true, (winOf [.ack 7 5 4 0 false true]), seen16, turnD, by unfold State.inBurst turnGood; decide +kernel⟩⟩

theorem wit_TileMessages_1_2_2_1 :
    (∃ (s : State) (p : Nat) (id : Nat) (rtt : Nat) (res : Nat) (w : Win) (seen : List BlockSeen) (d : List Byte), s.inBurst p w [RevPkt.echo id rtt res] ∧ turnGood seen d ∧ (s.pr p).test = none ∧ s.pierState p ≠ 1 ∧ w.echo = some id ∧ s.get (Reg.PIER_CABLE.SAMPLES p) < s.echoAvg) ∧
    (∃ (s : State) (p : Nat) (id : Nat) (rtt : Nat) (res : Nat) (w : Win) (seen : List BlockSeen) (d : List Byte), s.inBurst p w [RevPkt.echo id rtt res] ∧ turnGood seen d ∧ (s.pr p).test = none ∧ s.pierState p ≠ 1 ∧ w.echo ≠ some id) :=
  ⟨⟨(linkOf 3 (inBurst [.echo 3 10000 100])), 511, 3, 10000, 100, (winOf [.echo 3 10000 100]), seen16, turnD, by unfold State.inBurst turnGood; decide +kernel⟩,
   ⟨(linkOf 3 (inBurst [.echo 4 10000 100])), 511, 4, 10000, 100, (winOf [.echo 4 10000 100]), seen16, turnD, by unfold State.inBurst turnGood; decide +kernel⟩⟩

theorem wit_TileMessages_1_2_2_2_1 :
    (∃ (s : State) (p : Nat) (n : Nat) (e : Nat × QPkt) (w : Win) (seen : List BlockSeen) (d : List Byte), s.inBurst p w [RevPkt.nak n] ∧ turnGood seen d ∧ (s.pr p).test = none ∧ s.pierState p ≠ 1 ∧ (s.vp p).unacked = [e] ∧ (e.fst = 1 ∨ e.fst = 2) ∧ 0 ≤ diff12 (e.snd.seq.getD 0) n ∧ 8 ≤ e.snd.tries) ∧
    (∃ (s : State) (p : Nat) (n : Nat) (e : Nat × QPkt) (w : Win) (seen : List BlockSeen) (d : List Byte), s.inBurst p w [RevPkt.nak n] ∧ turnGood seen d ∧ (s.pr p).test = none ∧ s.pierState p ≠ 1 ∧ (s.vp p).unacked = [e] ∧ (e.fst = 1 ∨ e.fst = 2) ∧ 0 ≤ diff12 (e.snd.seq.getD 0) n ∧ e.snd.tries < 8) :=
  ⟨⟨(unacked 3 (inBurst [.nak 5]) (sentPkt 1 8)), 511, 5, (2, sentPkt 1 8), (winOf [.nak 5]), seen16, turnD, by unfold State.inBurst turnGood; decide +kernel⟩,
   ⟨(unacked 3 (inBurst [.nak 5]) (sentPkt 1 7)), 511, 5, (2, sentPkt 1 7), (winOf [.nak 5]), seen16, turnD, by unfold State.inBurst turnGood; decide +kernel⟩⟩

theorem wit_TileMessages_1_2_2_2_2 : ∃ (s : State) (p : Nat) (k : Nat) (b : List Byte) (d : List Byte) (w : Win) (seen : List BlockSeen), s.inBurst p w [RevPkt.plain k b] ∧ turnGood seen d ∧ (s.pr p).test = none ∧ s.pierState p ≠ 1 :=
  ⟨(linkOf 3 (inBurst [.plain 3 []])), 511, 3, [], turnD, (winOf [.plain 3 []]), seen16, by unfold State.inBurst turnGood; decide +kernel⟩

theorem wit_TileMessages_2_1 : ∃ (s : State) (p : Nat) (d : Declared) (w : Win) (seen : List BlockSeen) (b : List Byte), s.inBurst p w [RevPkt.declare d] ∧ turnGood seen b ∧ (s.pr p).test = none ∧ (s.pierState p = 1 ∨ s.pierState p = 4) ∧ s.noOversize p 2 :=
  ⟨(linkOf 1 (inBurst [.declare fitting])), 511, fitting, (winOf [.declare fitting]), seen16, turnD, by unfold State.inBurst turnGood State.noOversize; decide +kernel⟩

theorem wit_TileMessages_2_2 :
    (∃ (s : State) (p : Nat), s.up ∧ p < 512 ∧ s.pierState p = 4 ∧ (s.pr p).discoverAt + oneSecond ≤ s.nt.now8 ∧ (∀ (k : QPkt), k ∈ (s.vp p).q 2 → k.isDiscover = false) ∧ (∀ (x : Nat × QPkt), (s.vp p).tx = some x → x.snd.isDiscover = false)) ∧
    (∃ (s : State) (p : Nat), s.up ∧ p < 512 ∧ (s.pierState p ≠ 4 ∨ s.nt.now8 < (s.pr p).discoverAt + oneSecond)) :=
  ⟨⟨{linkOf 4 pier0 with nt := {resetNt with now8 := oneSecond}}, 511, by decide +kernel⟩,
   ⟨(linkOf 3 pier0), 511, by decide +kernel⟩⟩

theorem wit_PierCommands_1_1 :
    (∃ (r : Req) (p : Option Nat) (s : State), s.up ∧ p.getD 0 < 512 ∧
      s.mayWrite r (match p with
        | some q => Reg.PIER_CFG q
        | none => Reg.PIER_CTRL) ∧ s.actsSup r = true) ∧
    (∃ (r : Req) (p : Option Nat) (s : State), s.up ∧ p.getD 0 < 512 ∧
      s.mayWrite r (match p with
        | some q => Reg.PIER_CFG q
        | none => Reg.PIER_CTRL) ∧ s.actsSup r = false) :=
  ⟨⟨.sup, some 511, linkOf 3 inWindow, by decide +kernel⟩,
   ⟨.portA, none, { linkOf 3 pier0 with boot := fieldLc.boot }, by decide +kernel⟩⟩


theorem wit_PierCommands_1_2_1 :
    (∃ (r : Req) (p : Nat) (v : Word) (s : State), s.up ∧ p < 512 ∧ s.mayWrite r (Reg.PIER_FLIPLAT p) ∧ s.actsSup r = true ∧ ((s.pierState p = 2 ∨ s.pierState p = 3) ∧ (BitVec.toNat v < s.get (Reg.PIER_LATMIN.LAT p) ∨ s.get (Reg.PIER_LATMAX.LAT p) < BitVec.toNat v) ∨ s.get Reg.PIER_NTF.NTF < s.ntfOf (some (p, BitVec.toNat v)) ∧ s.leastFlipOffset < s.ntfOf (some (p, BitVec.toNat v)) + 100)) ∧
    (∃ (r : Req) (p : Nat) (v : Word) (s : State), s.up ∧ p < 512 ∧ s.mayWrite r (Reg.PIER_FLIPLAT p) ∧ s.actsSup r = true ∧ s.pierState p = 3 ∧ s.get (Reg.PIER_LATMIN.LAT p) ≤ BitVec.toNat v ∧ BitVec.toNat v ≤ s.get (Reg.PIER_LATMAX.LAT p) ∧ s.noOversize p 2 ∧ (s.ntfOf (some (p, BitVec.toNat v)) ≤ s.get Reg.PIER_NTF.NTF ∨ s.ntfOf (some (p, BitVec.toNat v)) + 100 ≤ s.leastFlipOffset)) ∧
    (∃ (r : Req) (p : Nat) (s : State), s.up ∧ p < 512 ∧ s.mayWrite r (Reg.PIER_FLIPLAT p) ∧ s.actsSup r = false) :=
  ⟨⟨.sup, 511, 1001, latEarly, by decide +kernel, by decide +kernel, by decide +kernel, by decide +kernel, Or.inl ⟨by decide +kernel, by decide +kernel⟩⟩,
   ⟨.sup, 511, 300, latFits, by decide +kernel, by decide +kernel, by decide +kernel, by decide +kernel, by decide +kernel, by decide +kernel, by decide +kernel, by unfold State.noOversize; decide +kernel, Or.inr (by rw [State.ntfOf, latFits_tiles]; decide +kernel)⟩,
   ⟨.portA, 511, ({linkOf 3 inWindow with boot := fieldLc.boot}), by decide +kernel⟩⟩

theorem wit_PierCommands_1_2_2 :
    (∃ (r : Req) (v : Word) (s : State) (p : Nat) (mode : Nat), s.up ∧ s.mayWrite r Reg.PIER_TEST ∧ s.actsSup r = true ∧ p = fieldOf v Reg.PIER_TEST.PIER ∧ mode = fieldOf v Reg.PIER_TEST.MODE ∧ 1 ≤ mode ∧ mode ≤ 3 ∧ s.pierState p ≠ 0 ∧ s.pierState p < 5 ∧ (s.pierState p = 3 → s.deckRunning = false) ∧ s.noOversize p 2 ∧ s.pierState p ≠ 1) ∧
    (∃ (r : Req) (v : Word) (s : State) (p : Nat) (mode : Nat), s.up ∧ s.mayWrite r Reg.PIER_TEST ∧ s.actsSup r = true ∧ p = fieldOf v Reg.PIER_TEST.PIER ∧ mode = fieldOf v Reg.PIER_TEST.MODE ∧ 1 ≤ mode ∧ mode ≤ 3 ∧ s.pierState p ≠ 0 ∧ s.pierState p < 5 ∧ (s.pierState p = 3 → s.deckRunning = false) ∧ s.noOversize p 2 ∧ s.pierState p = 1) :=
  ⟨⟨.sup, (putField (putField (putField (putField 0 Reg.PIER_TEST.PIER 511) Reg.PIER_TEST.MODE 3) Reg.PIER_TEST.DIR 1) Reg.PIER_TEST.LEN 1023), (linkOf 3 inWindow), 511, 3, by unfold State.noOversize; decide +kernel⟩,
   ⟨.sup, (putField (putField (putField 0 Reg.PIER_TEST.PIER 511) Reg.PIER_TEST.MODE 1) Reg.PIER_TEST.LEN 1), (linkOf 1 inWindow), 511, 1, by unfold State.noOversize; decide +kernel⟩⟩

theorem wit_PierCommands_2_1 : ∃ (s : State) (p : Nat) (frame : Nat) (crc : Nat) (ack : Nat) (kept : Nat) (he : Bool) (fm : Bool) (c : Nat) (k : QPkt) (x : PierTest) (w : Win) (seen : List BlockSeen) (d : List Byte), s.inBurst p w [RevPkt.ack frame crc ack kept he fm] ∧ turnGood seen d ∧ (s.vp p).unacked = [(c, k)] ∧ k.ptype = 3 ∧ k.op = 5 ∧ (s.pr p).test = some x ∧ x.running = false ∧ 0 ≤ diff12 ack (k.seq.getD 0) ∧ x.reverse = false :=
  ⟨(unacked 1 { inBurst [.ack 7 0 5 7 false false] with test := some ⟨false, 2, 1024, false, 0⟩ } (sentPkt 5 1)), 511, 7, 0, 5, 7, false, false, 2, (sentPkt 5 1), ⟨false, 2, 1024, false, 0⟩, (winOf [.ack 7 0 5 7 false false]), seen16, turnD, by unfold State.inBurst turnGood; decide +kernel⟩

theorem wit_PierCommands_2_2 :
    (∃ (s : State) (p : Nat) (errors : Nat) (bits : Nat) (x : PierTest) (w : Win) (seen : List BlockSeen) (d : List Byte), turnGood seen d ∧ (s.pr p).test = some x ∧ x.running = true ∧ x.reverse = false ∧ s.inBurst p w [RevPkt.result errors bits]) ∧
    (∃ (s : State) (p : Nat) (x : PierTest) (w : Win) (seen : List BlockSeen) (d : List Byte), turnGood seen d ∧ (s.pr p).test = some x ∧ x.running = true ∧ x.reverse = true ∧ s.inBurst p w []) :=
  ⟨⟨(linkOf 5 { inBurst [.result 3 1000] with test := some ⟨false, 2, 1024, true, 0⟩ }), 511, 3, 1000, ⟨false, 2, 1024, true, 0⟩, (winOf [.result 3 1000]), seen16, turnD, by unfold State.inBurst turnGood; decide +kernel⟩,
   ⟨(linkOf 5 { inBurst [] with test := some ⟨true, 2, 1024, true, 0⟩ }), 511, ⟨true, 2, 1024, true, 0⟩, (winOf []), seen16, turnD, by unfold State.inBurst turnGood; decide +kernel⟩⟩

theorem wit_FlipEmission_1 : ∃ (s : State) (p : Nat), s.up ∧ p < 512 ∧ (s.pr p).flipDue = true ∧ (∀ (w : Win), (s.pr p).win = some w → w.turned = true) ∧ s.flipCome p = true ∧ s.pierState p = 3 ∧ s.configOpen p (s.deck.frameNum % 2 ^ 24) = false :=
  ⟨(flipState false), 511, by decide +kernel⟩

theorem wit_TimeCorrection_1 :
    (∃ (r : Req) (v : Word) (s : State) (o : Int), s.mayWrite r (Reg.NT_ADJ + 4) ∧ s.actsSup r = true ∧ s.nt.gateStep = none ∧ o = signed 64 (s.nt.adjLo + 2 ^ 32 * BitVec.toNat v) ∧ s.stepThresh * 65536 < o.natAbs) ∧
    (∃ (r : Req) (v : Word) (s : State) (o : Int), s.mayWrite r (Reg.NT_ADJ + 4) ∧ s.actsSup r = true ∧ s.nt.gateStep = none ∧ o = signed 64 (s.nt.adjLo + 2 ^ 32 * BitVec.toNat v) ∧ o.natAbs ≤ s.stepThresh * 65536 ∧ s.clk.state ≠ AdpllState.holdover ∧ s.nt.held = none) ∧
    (∃ (r : Req) (v : Word) (s : State) (o : Int), s.mayWrite r (Reg.NT_ADJ + 4) ∧ s.actsSup r = true ∧ s.nt.gateStep = none ∧ o = signed 64 (s.nt.adjLo + 2 ^ 32 * BitVec.toNat v) ∧ o.natAbs ≤ s.stepThresh * 65536 ∧ (s.clk.state = AdpllState.holdover ∨ s.nt.held.isSome = true)) :=
  ⟨⟨.sup, 255, timed, 1095216660480, by decide +kernel⟩,
   ⟨.sup, 0, {timed with nt := {timed.nt with adjLo := 65536*50}}, 3276800, by decide +kernel⟩,
   ⟨.sup, 0xFFFFFFFF, {holding false with nt := {timed.nt with adjLo := 0xFFFFFFF7, half := 5}}, (-9), by decide +kernel⟩⟩

theorem wit_TimeCorrection_2_1_1 :
    (∃ (s : State) (l : Int), s.up ∧ s.nt.slew = some l ∧ s.nt.slewPhi = 0 ∧ l.natAbs < 400000000) ∧
    (∃ (s : State) (l : Int), s.up ∧ s.nt.slew = some l ∧ (s.nt.slewPhi ≠ 0 ∨ 400000000 ≤ l.natAbs)) :=
  ⟨⟨{timed with nt := {timed.nt with slew := some (-399999999)}}, (-399999999), by decide +kernel⟩,
   ⟨{timed with nt := {timed.nt with slew := some 400000000}}, 400000000, by decide +kernel⟩⟩

theorem wit_TimeCorrection_2_1_2 : ∃ (r : Req) (v : Word) (s : State) (f : Int), s.mayWrite r Reg.NT_FREQ ∧ s.actsSup r = true ∧ f = max (-51200000) (min 51200000 (signed 32 (BitVec.toNat v))) :=
  ⟨.sup, 0x80000000, timed, (-51200000), by decide +kernel⟩

theorem wit_TimeCorrection_2_2 :
    (∃ (r : Req) (v : Word) (s : State) (o : Int) (h : Int) (j : Int), s.mayWrite r (Reg.NT_ADJ + 4) ∧ s.actsSup r = true ∧ s.deck.dev ≠ DevState.safeHalt ∧ s.nt.gateStep = none ∧ o = signed 64 (s.nt.adjLo + 2 ^ 32 * BitVec.toNat v) ∧ s.stepThresh * 65536 < o.natAbs ∧ h = ((o + 2 ^ 14).fdiv (2 ^ 15)).fdiv 2 ∧ s.deck.busy = false ∧ s.deck.nextK = some j ∧ 0 < h) ∧
    (∃ (r : Req) (v : Word) (s : State) (o : Int) (h : Int) (j : Int), s.mayWrite r (Reg.NT_ADJ + 4) ∧ s.actsSup r = true ∧ s.deck.dev ≠ DevState.safeHalt ∧ s.nt.gateStep = none ∧ o = signed 64 (s.nt.adjLo + 2 ^ 32 * BitVec.toNat v) ∧ s.stepThresh * 65536 < o.natAbs ∧ h = ((o + 2 ^ 14).fdiv (2 ^ 15)).fdiv 2 ∧ s.deck.busy = false ∧ s.deck.nextK = some j ∧ h < 0 ∧ -h * (↑(s.ac Reg.DECK_PERIOD_DEN.DEN) : Int) ≤ (↑(s.ac Reg.DECK_PERIOD_NUM.NUM) : Int)) ∧
    (∃ (r : Req) (v : Word) (s : State) (o : Int) (h : Int) (j : Int), s.mayWrite r (Reg.NT_ADJ + 4) ∧ s.actsSup r = true ∧ s.deck.dev ≠ DevState.safeHalt ∧ s.nt.gateStep = none ∧ o = signed 64 (s.nt.adjLo + 2 ^ 32 * BitVec.toNat v) ∧ s.stepThresh * 65536 < o.natAbs ∧ h = ((o + 2 ^ 14).fdiv (2 ^ 15)).fdiv 2 ∧ s.deck.busy = false ∧ s.deck.nextK = some j ∧ h < 0 ∧ (↑(s.ac Reg.DECK_PERIOD_NUM.NUM) : Int) < -h * (↑(s.ac Reg.DECK_PERIOD_DEN.DEN) : Int)) :=
  ⟨⟨.sup, 255, timed, 1095216660480, (16711680), 1, by decide +kernel⟩,
   ⟨.sup, 0xFFFFFFFF, timed, (-2^32), (-65536), 1, by decide +kernel⟩,
   ⟨.sup, 0xFFFFFF00, timed, (-256*2^32), (-256*65536), 1, by decide +kernel⟩⟩

theorem wit_TimeSet :
    (∃ (r : Req) (v : Word) (s : State) (w : Nat), s.mayWrite r (Reg.NT_SET + 8) ∧ s.actsSup r = true ∧ s.nt.gateStep = none ∧ w = s.nt.set0 + 2 ^ 32 * s.nt.set1 + 2 ^ 64 * BitVec.toNat v ∧ bits w 16 32 < 1000000000) ∧
    (∃ (r : Req) (v : Word) (s : State) (w : Nat), s.mayWrite r (Reg.NT_SET + 8) ∧ s.actsSup r = true ∧ s.nt.gateStep = none ∧ w = s.nt.set0 + 2 ^ 32 * s.nt.set1 + 2 ^ 64 * BitVec.toNat v ∧ 1000000000 ≤ bits w 16 32) :=
  ⟨⟨.sup, 0xFFFF0000, {timed with nt := {timed.nt with set0 := 0xC9FF0000, set1 := 0x3B9A}}, (0xC9FF0000 + 2^32*0x3B9A + 2^64*0xFFFF0000), by decide +kernel⟩,
   ⟨.sup, 0xFFFF0000, {timed with nt := {timed.nt with set0 := 0xCA000000, set1 := 0x3B9A}}, (0xCA000000 + 2^32*0x3B9A + 2^64*0xFFFF0000), by decide +kernel⟩⟩

theorem wit_AlarmsAndFrames_1_1 : ∃ (r : Req) (n : Nat) (s : State), n < 8 ∧ s.mayWrite r (Reg.NT_ALARM_CTRL n) ∧ s.actsSup r = true :=
  ⟨.sup, 7, (put timed [(Reg.NT_ALARM_LO.T 7, 5)]), by decide +kernel⟩

theorem wit_AlarmsAndFrames_1_2_1 :
    (∃ (n : Nat) (T : Nat) (late : Bool) (s : State), s.up ∧ n < 8 ∧ Table.get noAlarm s.nt.armed n = some (T, late) ∧ s.due T = false) ∧
    (∃ (n : Nat) (T : Nat) (late : Bool) (s : State), s.up ∧ n < 8 ∧ Table.get noAlarm s.nt.armed n = some (T, late) ∧ s.due T = true ∧ s.get (Reg.NT_ALARM_PERIOD.PERIOD n) = 0) ∧
    (∃ (n : Nat) (T : Nat) (late : Bool) (s : State), s.up ∧ n < 8 ∧ Table.get noAlarm s.nt.armed n = some (T, late) ∧ s.due T = true ∧ s.get (Reg.NT_ALARM_PERIOD.PERIOD n) ≠ 0) :=
  ⟨⟨7, 200, false, timed, by decide +kernel⟩,
   ⟨0, 0, true, timed, by decide +kernel⟩,
   ⟨0, 0, true, (put timed [(Reg.NT_ALARM_PERIOD.PERIOD 0, 9999)]), by decide +kernel⟩⟩

theorem wit_AlarmsAndFrames_1_2_2_1 :
    (∃ (s : State), s.up ∧ (s.get Reg.NT_PPS_CFG.MODE = 1 ∨ s.get Reg.NT_PPS_CFG.MODE = 2) ∧ s.nt.ppsHigh = false ∧ (∃ l, l ∈ s.ppsLags ∧ 0 ≤ l ∧ l < 5)) ∧
    (∃ (s : State), s.up ∧ (s.get Reg.NT_PPS_CFG.MODE = 1 ∨ s.get Reg.NT_PPS_CFG.MODE = 2) ∧ s.nt.ppsHigh = false ∧ (∀ (l : Int), l ∈ s.ppsLags → l < 0 ∨ 5 ≤ l)) :=
  ⟨⟨(put timed [(Reg.NT_PPS_CFG.MODE, 1), (Reg.NT_PPS_CFG.WIDTH, 0)]), by decide +kernel⟩,
   ⟨(put {timed with deck := {timed.deck with started := true, frameNum := 7}} [(Reg.NT_PPS_CFG.MODE, 2), (Reg.NT_PPS_CFG.WIDTH, 255)]), by decide +kernel⟩⟩

theorem wit_AlarmsAndFrames_1_2_2_2 : ∃ (s : State), s.up ∧ s.nt.ppsHigh = true ∧ s.nt.ppsFallAt ≤ s.nt.now8 :=
  ⟨{timed with nt := {timed.nt with ppsHigh := true}}, by decide +kernel⟩

theorem wit_AlarmsAndFrames_2_1 :
    (∃ (s : State) (x : Nat) (msg : List Byte), s.up ∧ x < 2 ∧ s.mrState x = mrActive ∧ (s.mp x).m2Want = false ∧ ptpIsEvent msg = true ∧ (s.txq x).length < 32) ∧
    (∃ (s : State) (x : Nat) (msg : List Byte), s.up ∧ x < 2 ∧ s.mrState x = mrActive ∧ (s.mp x).m2Want = false ∧ ptpIsEvent msg = true ∧ 32 ≤ (s.txq x).length) ∧
    (∃ (s : State) (x : Nat) (msg : List Byte), s.up ∧ x < 2 ∧ s.mrState x = mrActive ∧ (s.mp x).m2Want = false ∧ ptpIsEvent msg = false) ∧
    (∃ (s : State) (x : Nat), s.up ∧ x < 2 ∧ s.mrState x = mrActive ∧ (s.mp x).m2Want = true) :=
  ⟨⟨(put (mrIn mrActive) [(Reg.NT_LAT_TX.LAT 0, 77)]), 0, (List.replicate 60 (3:Byte)), by decide +kernel⟩,
   ⟨{put (mrIn mrActive) [(Reg.NT_TXQ_STAT.LEVEL 0, 32)] with nt := {resetNt with txqA := List.replicate 32 [1,2]}}, 0, (List.replicate 60 (3:Byte)), by decide +kernel⟩,
   ⟨(mrIn mrActive), 0, (List.replicate 60 (8:Byte)), by decide +kernel⟩,
   ⟨((mrIn mrActive).setMp 0 { (mrIn mrActive).mp 0 with m2Want := true }), 0, by decide +kernel⟩⟩

/-- A TIME frame that is whole with room and without, one with a wrong CRC, and one cut off. -/
theorem wit_AlarmsAndFrames_2_2_1 :
    ∀ q ∈ [(0, rxT [0, 2, 3, 4], 0), (15, rxT [0, 2, 3, 4], 0), (16, rxT [0, 2, 3, 4], 1), (16, rxT [0, 2, 3, 4], 2),
      (0, rxTb [0, 2, 3, 4], 3), (0, ({ rxT [0, 2, 3, 4] with cut := true } : RxEnd), 4), (0, { rxT [0, 2, 3, 4] with blocks := 2 }, 4)],
    ∃ (s : State) (x done : Nat) (e : RxEnd) (msg : List Byte) (c w : Nat), s.up ∧ x < 2 ∧ s.mrState x = mrActive ∧
      c = crc32 (sofBytes 4 true true msg.length 0xFFFF ++ msg) ∧ w = (s.mp x).timeWait - done ∧ (s.mp x).timeWait = q.1 ∧ e = q.2.1 ∧
      (q.2.2 = 0 → (e.cut = false ∧ e.crc = c ∧ e.blocks = ceilDiv msg.length 8 ∧ 1 ≤ msg.length ∧ msg.length ≤ 512) ∧ w < 16) ∧
      (q.2.2 = 1 → (e.cut = false ∧ e.crc = c ∧ e.blocks = ceilDiv msg.length 8 ∧ 1 ≤ msg.length ∧ msg.length ≤ 512) ∧ 16 ≤ w) ∧
      (q.2.2 = 2 → (e.cut = false ∧ e.crc = c ∧ e.blocks = ceilDiv msg.length 8 ∧ 1 ≤ msg.length ∧ msg.length ≤ 512) ∧ w < 16 ∧ done = 1) ∧
      (q.2.2 = 3 → e.cut = false ∧ e.crc ≠ c) ∧
      (q.2.2 = 4 → ¬ (e.cut = false ∧ e.crc = c ∧ e.blocks = ceilDiv msg.length 8 ∧ 1 ≤ msg.length ∧ msg.length ≤ 512) ∧ (e.cut = true ∨ e.crc = c)) := by
  intro q hq
  simp only [List.mem_cons, List.not_mem_nil, or_false] at hq
  rcases hq with rfl | rfl | rfl | rfl | rfl | rfl | rfl
  · exact ⟨mrWaits 0, 0, 0, _, [0, 2, 3, 4], _, _, by decide +kernel, by decide, by decide +kernel, rfl, rfl, rfl, rfl, by decide +kernel⟩
  · exact ⟨mrWaits 15, 0, 0, _, [0, 2, 3, 4], _, _, by decide +kernel, by decide, by decide +kernel, rfl, rfl, rfl, rfl, by decide +kernel⟩
  · exact ⟨mrWaits 16, 0, 0, _, [0, 2, 3, 4], _, _, by decide +kernel, by decide, by decide +kernel, rfl, rfl, rfl, rfl, by decide +kernel⟩
  · exact ⟨mrWaits 16, 0, 1, _, [0, 2, 3, 4], _, _, by decide +kernel, by decide, by decide +kernel, rfl, rfl, rfl, rfl, by decide +kernel⟩
  · exact ⟨mrWaits 0, 0, 0, _, [0, 2, 3, 4], _, _, by decide +kernel, by decide, by decide +kernel, rfl, rfl, rfl, rfl, by decide +kernel⟩
  · exact ⟨mrWaits 0, 0, 0, _, [0, 2, 3, 4], _, _, by decide +kernel, by decide, by decide +kernel, rfl, rfl, rfl, rfl, by decide +kernel⟩
  · exact ⟨mrWaits 0, 0, 0, _, [0, 2, 3, 4], _, _, by decide +kernel, by decide, by decide +kernel, rfl, rfl, rfl, rfl, by decide +kernel⟩


theorem wit_AlarmsAndFrames_2_2_2 : ∃ (r : Req) (s : State) (x : Nat), x < 2 ∧ s.mayRead r (Reg.NT_TXQ x) ∧ (s.txq x).length ≤ 32 :=
  ⟨.sup, {mrIn 5 with nt := {resetNt with txqA := [[1,2],[3]], txqB := [[7]]}}, 0, by decide +kernel⟩

theorem wit_Clocks_1_1 : ∃ (s : State) (check : Bool), s.up ∧ s.clk.state = AdpllState.search ∧ s.refOk s.clk.ref = true ∧ (s.bandCodes = none ∨ check = false) :=
  ⟨{locked false with clk := {(locked false).clk with state := .search}}, true, by decide +kernel⟩

theorem wit_Clocks_1_2_1 :
    (∃ (s : State) (e : Int), s.up ∧ s.clk.state = AdpllState.acquire ∧ s.boot.hbmWait = false ∧ e.natAbs ≤ 20 ∧ s.phaseDone = true ∧ s.clk.quietAt + 80000 ≤ s.isl ∧ s.nt.held = none) ∧
    (∃ (s : State) (e : Int), s.up ∧ s.clk.state = AdpllState.acquire ∧ s.boot.hbmWait = false ∧ (20 < e.natAbs ∨ s.phaseDone = false ∨ s.isl < s.clk.quietAt + 80000)) :=
  ⟨⟨{timed with clk := {(locked false).clk with state := .acquire, quietAt := 0}, nt := {timed.nt with isl8 := 80000}}, 20, by decide +kernel⟩,
   ⟨{timed with clk := {(locked false).clk with state := .acquire, quietAt := 0}, nt := {timed.nt with isl8 := 79999}}, 20, by decide +kernel⟩⟩

theorem wit_Clocks_1_2_2_1 : ∃ (s : State), s.up ∧ (s.clk.state = AdpllState.locked ∨ s.clk.state = AdpllState.acquire) :=
  ⟨locked false, by decide +kernel⟩

/-- The limits of R258: three counted edges keep the reference, four lose it, to the other one or to holdover. -/
theorem wit_Clocks_1_2_2_2_1 :
    (∃ (s : State) (ref : Bool) (why : RefFault), s.up ∧ s.refOk ref = true ∧ s.clk.ref = ref ∧ s.clk.state = .locked ∧ why = .edges 3 ∧
      ¬ ((∃ n, why = .edges n ∧ 4 ≤ n) ∨ (∃ n, why = .cycles n ∧ (n < 990 ∨ 1010 < n)) ∨ (∃ p, why = .phase p ∧ 1000 < p.natAbs))) ∧
    (∃ (s : State) (ref : Bool) (why : RefFault), s.up ∧ s.refOk ref = true ∧ s.clk.ref = ref ∧ s.clk.state = .locked ∧ s.refUsable (!ref) = true ∧
      ((∃ n, why = .edges n ∧ 4 ≤ n) ∨ (∃ n, why = .cycles n ∧ (n < 990 ∨ 1010 < n)) ∨ (∃ p, why = .phase p ∧ 1000 < p.natAbs))) ∧
    (∃ (s : State) (ref : Bool) (why : RefFault), s.up ∧ s.refOk ref = true ∧ s.clk.ref = ref ∧ s.clk.state = .locked ∧ s.refUsable (!ref) = false ∧
      ((∃ n, why = .edges n ∧ 4 ≤ n) ∨ (∃ n, why = .cycles n ∧ (n < 990 ∨ 1010 < n)) ∨ (∃ p, why = .phase p ∧ 1000 < p.natAbs))) :=
  ⟨⟨locked true, (locked true).clk.ref, .edges 3, by decide +kernel, by decide +kernel, rfl, rfl, rfl, by
      rintro (⟨n, h, k⟩ | ⟨n, h, -⟩ | ⟨p, h, -⟩)
      · cases h; exact absurd k (by decide)
      · cases h
      · cases h⟩,
   ⟨locked true, (locked true).clk.ref, .edges 4, by decide +kernel, by decide +kernel, rfl, rfl, by decide +kernel, Or.inl ⟨4, rfl, by decide⟩⟩,
   ⟨locked false, (locked false).clk.ref, .cycles 1011, by decide +kernel, by decide +kernel, rfl, rfl, by decide +kernel,
      Or.inr (Or.inl ⟨1011, rfl, by decide⟩)⟩⟩


theorem wit_Clocks_1_2_2_2_2_1 :
    (∃ (s : State) (ref : Bool) (since : Nat), s.up ∧ s.refOk ref = false ∧ s.clk.state = AdpllState.holdover ∧ (since = if ref = true then s.clk.mraSince else s.clk.refclkSince) ∧ (ref = s.primaryRef ∨ s.flag Reg.CLK_REF_CFG.FALLBACK_EN = true) ∧ since + 80000000 ≤ s.isl) ∧
    (∃ (s : State) (ref : Bool) (since : Nat), s.up ∧ s.refOk ref = false ∧ s.clk.state = AdpllState.holdover ∧ (since = if ref = true then s.clk.mraSince else s.clk.refclkSince) ∧ (ref = s.primaryRef ∨ s.flag Reg.CLK_REF_CFG.FALLBACK_EN = true) ∧ s.isl < since + 80000000) :=
  ⟨⟨{holding true with nt := {resetNt with isl8 := 80000000}}, false, 0, by decide +kernel⟩,
   ⟨(holding false), true, 0, by decide +kernel⟩⟩

theorem wit_Clocks_1_2_2_2_2_2 : ∃ (s : State), s.up ∧ s.flag Reg.CLK_REF_CFG.REVERT = true ∧ s.clk.ref ≠ s.primaryRef ∧ s.refOk s.primaryRef = true ∧ ((if s.primaryRef = true then s.clk.mraSince else s.clk.refclkSince) + 10 * oneSecond ≤ s.isl) ∧ s.clk.state = AdpllState.locked :=
  ⟨{locked true with clk := {(locked true).clk with ref := !(locked true).primaryRef}, nt := {resetNt with isl8 := 10*oneSecond*8}}, by decide +kernel⟩

theorem wit_Clocks_2_1 :
    (∃ (s : State) (ppm : Int), s.up ∧ -1000 ≤ ppm ∧ ppm ≤ 1000) ∧
    (∃ (s : State) (ppm : Int), s.up ∧ (ppm < -1000 ∨ 1000 < ppm)) :=
  ⟨⟨(locked true), 1000, by decide +kernel⟩,
   ⟨(locked true), 1001, by decide +kernel⟩⟩

/-- The limits of R261: one cycle of the clocks, and 40 of the island oscillator, which fails against both of its references. -/
theorem wit_Clocks_2_2 :
    (∃ (s : State) (c k o : Nat) (n : Int), s.up ∧ c < 6 ∧ n = [16000, 9000, 8000, 8000, 16000, 2000].getD c 0 ∧
      ¬ ((c < 5 ∧ ¬ (c = 0 ∧ ∀ m, m < 8 → s.get (Reg.COMB_STATUS.POWER m) = 0 ∨ s.get (Reg.COMB_STATUS.POWER m) = 3) ∧ (k < n - 1 ∨ n + 1 < k)) ∨
        (c = 5 ∧ (k < 1960 ∨ 2040 < k) ∧ (s.refOk s.clk.ref = false ∨ o < 1960 ∨ 2040 < o)))) ∧
    (∃ (s : State) (c k o : Nat) (n : Int), s.up ∧ c < 6 ∧ n = [16000, 9000, 8000, 8000, 16000, 2000].getD c 0 ∧
      ((c < 5 ∧ ¬ (c = 0 ∧ ∀ m, m < 8 → s.get (Reg.COMB_STATUS.POWER m) = 0 ∨ s.get (Reg.COMB_STATUS.POWER m) = 3) ∧ (k < n - 1 ∨ n + 1 < k)) ∨
        (c = 5 ∧ (k < 1960 ∨ 2040 < k) ∧ (s.refOk s.clk.ref = false ∨ o < 1960 ∨ 2040 < o)))) ∧
    (∃ (s : State) (c k o : Nat) (n : Int), s.up ∧ c = 5 ∧ n = [16000, 9000, 8000, 8000, 16000, 2000].getD c 0 ∧
      (k < 1960 ∨ 2040 < k) ∧ s.refOk s.clk.ref = true ∧ 2040 < o) :=
  ⟨⟨locked true, 5, 1959, 1960, 2000, by decide +kernel⟩, ⟨locked true, 1, 8998, 0, 9000, by decide +kernel⟩,
   ⟨locked true, 5, 1959, 2041, 2000, by decide +kernel⟩⟩


theorem wit_MororTraining_1 :
    (∃ (s : State) (x : Nat) (n : Nat), s.up ∧ x < 2 ∧ s.mrState x = mrDetect ∧ 71280 ≤ n ∧ n ≤ 72720) ∧
    (∃ (s : State) (x : Nat) (n : Nat), s.up ∧ x < 2 ∧ s.mrState x = mrDetect ∧ (n < 71280 ∨ 72720 < n)) :=
  ⟨⟨(moror 1 1 usedPort), 1, 71280, by decide +kernel⟩,
   ⟨(moror 1 1 usedPort), 1, 72721, by decide +kernel⟩⟩

theorem wit_MororTraining_2_1 :
    (∃ (s : State) (x : Nat) (foms : List Nat) (ms : List (List Nat)), s.up ∧ x < 2 ∧ s.mrState x = mrEq ∧ (s.mp x).eqDone = false ∧ ms = (s.mp x).foms ++ [foms] ∧ ms.length < 8) ∧
    (∃ (s : State) (x : Nat) (foms : List Nat) (ms : List (List Nat)), s.up ∧ x < 2 ∧ s.mrState x = mrEq ∧ (s.mp x).eqDone = false ∧ ms = (s.mp x).foms ++ [foms] ∧ ms.length = 8) :=
  ⟨⟨(moror 1 3 {mr0 with foms := [[3],[4]]}), 1, [5,6,7,8,9,10,11,0], [[3],[4],[5,6,7,8,9,10,11,0]], by decide +kernel⟩,
   ⟨(moror 1 3 {mr0 with foms := [[3],[4],[300,400],[],[255],[256,256,256,256,256,256,256,256,0],[7]]}), 1, [5,6,7,8,9,10,11,0], [[3],[4],[300,400],[],[255],[256,256,256,256,256,256,256,256,0],[7],[5,6,7,8,9,10,11,0]], by decide +kernel⟩⟩

theorem wit_MororTraining_2_2_1 :
    (∃ (s : State) (x : Nat) (seen : List BlockSeen) (d : List Byte) (skews : List Nat) (ams : List (List Byte × Nat)), s.up ∧ x < 2 ∧ tsOk d ∧ lockAfter noLock seen = true ∧ amSkews ams = some skews ∧ s.mrState x = mrEq ∧ (s.mp x).eqDone = true ∧ bits (BitVec.toNat (d.getD 0 0)) 0 4 = mrEq ∧ bit (BitVec.toNat (d.getD 1 0)) 7 = true) ∧
    (∃ (s : State) (x : Nat) (seen : List BlockSeen) (d : List Byte) (skews : List Nat) (ams : List (List Byte × Nat)), s.up ∧ x < 2 ∧ tsOk d ∧ lockAfter noLock seen = true ∧ amSkews ams = some skews ∧ x = 0 ∧ s.mrState 0 = mrDeskew ∧ aligned skews = true) ∧
    (∃ (s : State) (x : Nat) (seen : List BlockSeen) (d : List Byte) (skews : List Nat) (ams : List (List Byte × Nat)), s.up ∧ x < 2 ∧ tsOk d ∧ lockAfter noLock seen = true ∧ amSkews ams = some skews ∧ x = 0 ∧ s.mrState 0 = mrConfig ∧ bits (BitVec.toNat (d.getD 0 0)) 0 4 = mrConfig ∧ BitVec.toNat (d.getD 2 0) = 4 * 1 + 1) :=
  ⟨⟨(moror 1 3 {mr0 with eqDone := true}), 1, seen16, (crcd [0x03,0x80,0,0,7,8]), [0, 0, 0, 0, 0, 0, 0, 0], (amsAt [3, 3, 3, 3, 3, 3, 3, 3]), by unfold tsOk; decide +kernel⟩,
   ⟨(moror 0 4 {mr0 with eqDone := true}), 0, seen16, (crcd [0x03,0x80,0,0,7,8]), [0, 1, 2, 3, 4, 5, 6, 200], (amsAt [200, 199, 198, 197, 196, 195, 194, 0]), by unfold tsOk; decide +kernel⟩,
   ⟨(moror 0 5 {usedPort with eqDone := true}), 0, seen16, (crcd [0x05,0x80,5,0,7,8]), [0, 1, 2, 3, 4, 5, 6, 200], (amsAt [200, 199, 198, 197, 196, 195, 194, 0]), by unfold tsOk; decide +kernel⟩⟩

theorem wit_MororTraining_2_2_2 : ∃ (s : State) (x : Nat), s.up ∧ x < 2 ∧ mrDetect ≤ s.mrState x ∧ s.mrState x ≤ mrConfig ∧ s.get (Reg.MR_STATUS.PARKED x) = 0 ∧ (s.mp x).since + 16000000 < s.isl :=
  ⟨(moror 1 5 usedPort), 1, by decide +kernel⟩

theorem wit_MororLoss_1 :
    (∃ (s : State) (x : Nat) (n : Nat) (seen : List (List BlockSeen)), s.up ∧ x < 2 ∧ s.mrState x = mrActive ∧ clockValid n = true ∧ (lanesLost seen = 0 ∨ s.get (Reg.MR_STATUS.PM_RX x) = 1)) ∧
    (∃ (s : State) (x : Nat) (n : Nat), s.up ∧ x < 2 ∧ s.mrState x = mrActive ∧ clockValid n = false) ∧
    (∃ (s : State) (x : Nat) (n : Nat) (seen : List (List BlockSeen)), s.up ∧ x < 2 ∧ s.mrState x = mrActive ∧ clockValid n = true ∧ lanesLost seen ≠ 0 ∧ s.get (Reg.MR_STATUS.PM_RX x) ≠ 1) :=
  ⟨⟨(moror 0 mrActive usedPort), 0, 72000, [], by decide +kernel⟩,
   ⟨(moror 0 mrActive usedPort), 0, 71279, by decide +kernel⟩,
   ⟨(moror 1 mrActive usedPort), 1, 72000, (List.replicate 7 [] ++ [List.replicate 16 .badHeader]), by decide +kernel⟩⟩

theorem wit_MororLoss_2_1 : ∃ (s : State) (x : Nat), s.up ∧ x < 2 ∧ s.mrState x = mrRecovery ∧ (s.mp x).since + 160000 ≤ s.isl :=
  ⟨(moror 1 mrRecovery usedPort), 1, by decide +kernel⟩

theorem wit_MororLoss_2_2_1 :
    (∃ (r : Req) (x : Nat) (v : Word) (s : State), x < 2 ∧ s.mayWrite r (Reg.MR_CTRL x) ∧ s.actsSup r = true ∧ bit (BitVec.toNat v) 0 = true ∧ s.mrState x = mrActive) ∧
    (∃ (r : Req) (x : Nat) (v : Word) (s : State), x < 2 ∧ s.mayWrite r (Reg.MR_CTRL x) ∧ s.actsSup r = true ∧ bit (BitVec.toNat v) 0 = true ∧ bit (BitVec.toNat v) 31 = false ∧ bit (BitVec.toNat v) 30 = false) ∧
    (∃ (r : Req) (x : Nat) (v : Word) (s : State), x < 2 ∧ s.mayWrite r (Reg.MR_CTRL x) ∧ s.actsSup r = true ∧ bit (BitVec.toNat v) 0 = false ∧ s.mrState x = mrActive) ∧
    (∃ (r : Req) (x : Nat) (s : State), x < 2 ∧ s.mayWrite r (Reg.MR_CTRL x) ∧ s.actsSup r = false) :=
  ⟨⟨.sup, 1, 0x80000001, (moror 1 mrActive usedPort), by decide +kernel⟩,
   ⟨.sup, 1, 0x00000001, (moror 1 0 usedPort), by decide +kernel⟩,
   ⟨.sup, 1, 0x00000000, (moror 1 mrActive usedPort), by decide +kernel⟩,
   ⟨.portA, 0, {moror 0 mrActive usedPort with boot := fieldLc.boot}, by decide +kernel⟩⟩

theorem wit_MororLoss_2_2_2 : ∃ (s : State), s.up ∧ s.roleAuto = true ∧ s.mrState 0 ≠ mrActive ∧ (s.mp 0).outAt + max 1 (s.get (Reg.MR_CTRL.HOLD 1)) * 8000000 ≤ s.isl :=
  ⟨(put (moror 1 1 usedPort) [(Reg.MR_CTRL.HOLD 1, 80)]), by decide +kernel⟩

theorem wit_MororReplay_1 : ∃ (s : State) (x : Nat) (d : List Byte), s.up ∧ x < 2 ∧ s.mrState x = mrActive ∧ d.length = 7 ∧ crc8 (List.take 6 d) = BitVec.toNat (d.getD 6 0) ∧ bit (leAt d 0 2) 12 = false ∧ (s.mp x).m2Sent = false ∧ (s.mp x).wait = [] ∧ (s.mp x).regQ = [] ∧ leAt d 2 1 % 16 ∈ [1, 2, 3, 5, 6] :=
  ⟨(moror 0 mrActive usedPort), 0, (crcd [7,0,2,1,2,3]), by decide +kernel⟩

theorem wit_MororReplay_2 : ∃ (s : State) (x : Nat) (f : MrFrame) (fs : List MrFrame), s.up ∧ x < 2 ∧ s.mrState x = mrActive ∧ (s.mp x).replay = f :: fs ∧ f.sentAt + 64000 ≤ s.isl :=
  ⟨(moror 0 mrActive usedPort), 0, (sentFrame 7), [sentFrame 8], by decide +kernel⟩

theorem wit_MororPowerAndTests_1_1 :
    (∃ (s : State) (x : Nat), s.up ∧ x < 2 ∧ s.mrState x = mrActive ∧ s.get (Reg.MR_PM_CFG.M1_IDLE x) ≠ 0 ∧ s.get (Reg.MR_STATUS.PM_TX x) = 0 ∧ (s.mp x).wait = [] ∧ (s.mp x).m2Want = false ∧ (s.mp x).idleAt + s.get (Reg.MR_PM_CFG.M1_IDLE x) * 8 ≤ s.isl) ∧
    (∃ (s : State) (x : Nat), s.up ∧ x < 2 ∧ s.mrState x = mrActive ∧ s.get (Reg.MR_STATUS.PM_TX x) = 1 ∧ (s.mp x).regQ = [] ∧ (s.mp x).wait = []) ∧
    (∃ (s : State) (x : Nat) (seen : List (List BlockSeen)), s.up ∧ x < 2 ∧ s.mrState x = mrActive ∧ s.get (Reg.MR_STATUS.PM_RX x) = 1 ∧ (∀ (l : Nat), l < 8 → lockAfter noLock (seen.getD l []) = true)) ∧
    (∃ (s : State) (x : Nat), s.up ∧ x < 2 ∧ s.mrState x = mrActive ∧ (s.mp x).m2Want = true ∧ (s.mp x).m2Sent = false ∧ (s.mp x).replay = []) ∧
    (∃ (s : State) (x : Nat) (f : MrFrame), s.up ∧ x < 2 ∧ s.mrState x = mrActive ∧ s.get (Reg.MR_STATUS.PM_TX x) = 1 ∧ (s.mp x).regQ = [] ∧ (s.mp x).wait = [f] ∧ (s.mp x).mayStart f = true ∧ f.cls ∈ [1, 2, 3, 5, 6] ∧ (s.mp x).m2Want = false) :=
  ⟨⟨(moror 1 mrActive {usedPort with m2Want := false}), 1, by decide +kernel⟩,
   ⟨(put (moror 1 mrActive {usedPort with m2Want := false}) [(Reg.MR_STATUS.PM_TX 1, 1), (Reg.MR_STATUS.PM_RX 1, 1)]), 1, by decide +kernel⟩,
   ⟨(put (moror 1 mrActive {usedPort with m2Want := false}) [(Reg.MR_STATUS.PM_TX 1, 1), (Reg.MR_STATUS.PM_RX 1, 1)]), 1, (List.replicate 8 seen16 : List (List BlockSeen)), by decide +kernel⟩,
   ⟨(moror 1 mrActive {usedPort with replay := []}), 1, by decide +kernel⟩,
   ⟨(put (moror 1 mrActive {usedPort with m2Want := false, wait := [{sentFrame 7 with seq := 0}], txSeq := 77}) [(Reg.MR_STATUS.PM_TX 1, 1), (Reg.MR_STATUS.PM_RX 1, 1)]), 1, ({sentFrame 7 with seq := 0} : MrFrame), by decide +kernel⟩⟩

theorem wit_MororPowerAndTests_1_2_1 : ∃ (r : Req) (x : Nat) (v : Word) (s : State), x < 2 ∧ s.mayWrite r (Reg.MR_CTRL x) ∧ s.actsSup r = true ∧ s.mrState x = mrActive ∧ bit (BitVec.toNat v) 0 = true ∧ bit (BitVec.toNat v) 31 = false :=
  ⟨.sup, 1, 1, (moror 1 mrActive {usedPort with m2Want := false}), by decide +kernel⟩

theorem wit_MororPowerAndTests_1_2_2 : ∃ (s : State) (x : Nat), s.up ∧ x < 2 ∧ s.mrState x = mrM2 :=
  ⟨(moror 1 mrM2 {usedPort with m2Want := false}), 1, by decide +kernel⟩

theorem wit_MororPowerAndTests_2_1 :
    (∃ (r : Req) (x : Nat) (v : Word) (s : State) (loop : Nat), x < 2 ∧ s.mayWrite r (Reg.MR_TEST x) ∧ s.actsSup r = true ∧ loop = fieldOf v (Reg.MR_TEST.LOOP x) ∧ loop ≠ 0 ∧ (s.mp x).test = none ∧ s.mrState x ≠ mrDisabled ∧ s.mrState x = mrActive) ∧
    (∃ (r : Req) (x : Nat) (v : Word) (s : State) (loop : Nat), x < 2 ∧ s.mayWrite r (Reg.MR_TEST x) ∧ s.actsSup r = true ∧ loop = fieldOf v (Reg.MR_TEST.LOOP x) ∧ loop ≠ 0 ∧ (s.mp x).test = none ∧ s.mrState x = mrDisabled) :=
  ⟨⟨.sup, 1, 0xFFFFFFFF, (moror 1 mrActive usedPort), 3, by decide +kernel⟩,
   ⟨.sup, 0, (putField 0 (Reg.MR_TEST.LOOP 0) 2), (moror 0 0 usedPort), 2, by decide +kernel⟩⟩

theorem wit_MororPowerAndTests_2_2_1 : ∃ (x : Nat) (s : State) (k : MrTest) (rx : List (List Bool)) (i : Instr), s.up ∧ x < 2 ∧ (s.mp x).test = some k ∧ s.mrState x = mrLoop ∧ ((∃ r v, i = Instr.mrTestStop r x v rx ∧ s.mayWrite r (Reg.MR_TEST x) ∧ s.actsSup r = true ∧ bit (BitVec.toNat v) 31 = false) ∨ i = Instr.mrTestDurationEnd x rx ∧ s.get (Reg.MR_TEST.DURATION x) ≠ 0 ∧ k.running = true ∧ k.start + s.get (Reg.MR_TEST.DURATION x) * 8000000 ≤ s.isl) :=
  ⟨1, (put (moror 1 mrLoop {usedPort with test := some ⟨1,2,true,0⟩}) [(Reg.MR_TEST.DURATION 1, 1)]), ⟨1,2,true,0⟩, rxs, (.mrTestDurationEnd 1 rxs), by decide +kernel, by decide, by decide +kernel, by decide +kernel, Or.inr ⟨rfl, by decide +kernel⟩⟩

theorem wit_MororPowerAndTests_2_2_2 : ∃ (s : State) (x : Nat), s.up ∧ x < 2 ∧ s.mrState x = mrLoop ∧ (s.mp x).granted = true ∧ (s.mp x).since + 80000 ≤ s.isl :=
  ⟨(moror 1 mrLoop {usedPort with granted := true}), 1, by decide +kernel⟩

theorem wit_SceneAndCtrl_1 :
    (∃ (s : State) (x : Nat) (seq : Nat) (first : Bool) (last : Bool) (d : List Byte) (b : List Byte) (e : RxEnd), s.up ∧ s.expects x 1 seq d.length false ∧ frameWhole e 1 seq first last d ∧ s.hbmServes ∧ (first = true ∧ (s.mp x).scene = none ∧ b = d ∨ first = false ∧ ∃ o, (s.mp x).scene = some o ∧ b = o ++ d) ∧ last = false) ∧
    (∃ (s : State) (x : Nat) (seq : Nat) (first : Bool) (last : Bool) (d : List Byte) (e : RxEnd), s.up ∧ x < 2 ∧ s.mrState x = mrActive ∧ (s.mp x).m2Sent = false ∧ e.cut = false ∧ e.crc ≠ crc32 (sofBytes 1 first last d.length seq ++ d) ∧ (s.mp x).nak = none) ∧
    (∃ (s : State) (x : Nat) (seq : Nat) (first : Bool) (last : Bool) (d : List Byte) (e : RxEnd), s.up ∧ x < 2 ∧ s.mrState x = mrActive ∧ (s.mp x).m2Sent = false ∧ (e.cut = true ∨ e.crc = crc32 (sofBytes 1 first last d.length seq ++ d) ∧ (e.blocks ≠ ceilDiv d.length 8 ∨ lenOk 1 d.length = false))) ∧
    (∃ (s : State) (x : Nat) (seq : Nat) (first : Bool) (last : Bool) (d : List Byte) (b : List Byte) (e : RxEnd), s.up ∧ s.expects x 1 seq d.length false ∧ frameWhole e 1 seq first last d ∧ s.hbmServes ∧ (first = true ∧ (s.mp x).scene = none ∧ b = d ∨ first = false ∧ ∃ o, (s.mp x).scene = some o ∧ b = o ++ d) ∧ last = true ∧ 24 ≤ b.length ∧ b.length = 24 + (necHdr b).len ∧ (List.map (fun x ↦ x.snd) (s.ringPlace b.length)).sum = b.length ∧ (∀ (y : Nat × Nat), y ∈ s.ringPlace b.length → y.fst + y.snd ≤ hbmSize)) ∧
    (∃ (s : State) (x : Nat) (seq : Nat) (first : Bool) (last : Bool) (d : List Byte) (b : List Byte) (e : RxEnd), s.up ∧ s.expects x 1 seq d.length false ∧ frameWhole e 1 seq first last d ∧ s.hbmServes ∧ (first = true ∧ (s.mp x).scene = none ∧ b = d ∨ first = false ∧ ∃ o, (s.mp x).scene = some o ∧ b = o ++ d) ∧ last = true ∧ (b.length < 24 ∨ b.length ≠ 24 + (necHdr b).len)) ∧
    (∃ (s : State) (x : Nat) (seq : Nat) (first : Bool) (last : Bool) (d : List Byte) (e : RxEnd), s.up ∧ s.expects x 1 seq d.length false ∧ frameWhole e 1 seq first last d ∧ first = false ∧ (s.mp x).scene = none) :=
  ⟨⟨(served3 (chain false)), 0, 4095, true, false, [1,2], [1,2], (rxFrame 1 4095 true false [1,2]), by unfold State.expects frameWhole; decide +kernel⟩,
   ⟨(chain false), 0, 4095, true, false, [1,2], ⟨1, 5, false⟩, by decide +kernel⟩,
   ⟨(chain false), 0, 4095, true, false, [1,2], ⟨1, 5, true⟩, by decide +kernel⟩,
   ⟨((ringed (chain false)).setMp 0 {readyPort with scene := some ((sceneBlock 8).take 20)}), 0, 4095, false, true, ((sceneBlock 8).drop 20), (sceneBlock 8), (rxFrame 1 4095 false true ((sceneBlock 8).drop 20)), by unfold State.expects frameWhole; decide +kernel⟩,
   ⟨((served3 (chain false)).setMp 0 {readyPort with scene := some ((sceneBlock 8).take 20)}), 0, 4095, false, true, ((sceneBlock 8).drop 21), ((sceneBlock 8).take 20 ++ (sceneBlock 8).drop 21), (rxFrame 1 4095 false true ((sceneBlock 8).drop 21)), by unfold State.expects frameWhole; decide +kernel⟩,
   ⟨(served3 (chain false)), 0, 4095, false, true, [1], (rxFrame 1 4095 false true [1]), by unfold State.expects frameWhole; decide +kernel⟩⟩

theorem wit_SceneAndCtrl_2_1 :
    (∃ (s : State) (x : Nat) (a : Nat), s.up ∧ x < 2 ∧ s.upstream x = true ∧ (a / 2 ^ 24 = 17 ∨ a / 2 ^ 24 = 19 ∨ a / 2 ^ 24 = 21) ∧ ctrlAddr a = true) ∧
    (∃ (s : State) (x : Nat) (a : Nat), s.up ∧ x < 2 ∧ s.upstream x = true ∧ ctrlAddr a = false ∧ s.canSend x 5 (telemItem 2 65535 (leBytes 1 1 ++ leBytes 1 3 ++ leBytes 2 0 ++ leBytes 4 0))) :=
  ⟨⟨(chainField false), 0, 0x11000014, by decide +kernel⟩,
   ⟨(chainField false), 0, 0x13000000, by unfold State.canSend; decide +kernel⟩⟩

theorem wit_SceneAndCtrl_2_2_1 : ∃ (s : State) (x : Nat) (tag : Nat) (target : Nat) (timed : Bool) (u : State), s.up ∧ x < 2 ∧ s.upstream x = true ∧ target < 2 ^ 48 ∧ (u = s.commitGo Writer.host tag (if timed = true then some target else none)) ∧ s.canSend x 5 (telemItem 2 65535 (leBytes 1 2 ++ leBytes 1 0 ++ leBytes 2 (u.get Reg.DECK_COMMIT_SEQ.LAST) ++ leBytes 4 (tag % 256))) :=
  ⟨(chainField false), 0, 300, 5, false, ((chainField false).commitGo .host 300 none), by unfold State.canSend; decide +kernel⟩

theorem wit_SceneAndCtrl_2_2_2_1 : ∃ (s : State) (x : Nat), s.up ∧ x < 2 ∧ s.upstream x = true ∧ s.mayWrite Req.portA Reg.DECK_COMMIT ∧ s.actsSup Req.portA = false :=
  ⟨{chainField false with deck := (validating false).deck}, 0, by decide +kernel⟩

theorem wit_SceneAndCtrl_2_2_2_2_1 : ∃ (s : State) (x : Nat) (v : Nat) (seq : Nat) (e : RxEnd), s.up ∧ x < 2 ∧ s.upstream x = true ∧ s.canSend x 5 (telemItem 2 65535 (leBytes 1 4 ++ leBytes 1 0 ++ leBytes 2 0 ++ leBytes 4 v)) ∧ s.expects x 2 seq 8 false ∧ frameWhole e 2 seq true true (leBytes 1 4 ++ leBytes 1 1 ++ leBytes 2 0 ++ leBytes 4 v) :=
  ⟨(chain true), 0, 0x12345678, 4095, rxFrame 2 4095 true true (leBytes 1 4 ++ leBytes 1 1 ++ leBytes 2 0 ++ leBytes 4 0x12345678), by unfold State.expects State.canSend frameWhole; decide +kernel⟩

theorem wit_SceneAndCtrl_2_2_2_2_2 : ∃ (s : State) (x : Nat) (seq : Nat) (d : List Byte) (e : RxEnd), s.up ∧ x < 2 ∧ s.mrState x = mrActive ∧ (s.mp x).m2Sent = false ∧ frameWhole e 2 seq true true d ∧ lenOk 2 d.length = true ∧ 0 < diff12 seq (s.mp x).rxSeq ∧ (s.mp x).nak = none :=
  ⟨(chain true), 0, 0, [1], (rxFrame 2 0 true true [1]), by unfold frameWhole; decide +kernel⟩

theorem wit_RegRequests_1 :
    (∃ (s : State) (x : Nat) (seq : Nat) (tag : Nat) (a : Nat) (e : RxEnd), s.up ∧ s.expects x 3 seq 12 false ∧ (s.mp x).regQ = [] ∧ a < 2 ^ 32 ∧ tag < 65536 ∧ frameWhole e 3 seq true true (regRequest 1 tag 1 a []) ∧ a / 2 ^ 24 = 18 ∧ isActiveView a = false ∧ s.mayRead (portReq x) a ∧ s.canSend x 3 (regResponse 1 0 tag 1 a [s.rd a])) ∧
    (∃ (s : State) (x : Nat) (seq : Nat) (tag : Nat) (a : Nat) (e : RxEnd) (c : Nat), s.up ∧ s.expects x 3 seq 12 false ∧ (s.mp x).regQ = [] ∧ a < 2 ^ 32 ∧ tag < 65536 ∧ frameWhole e 3 seq true true (regRequest 1 tag 1 a []) ∧ s.refusal (portReq x) a false = c ∧ c ≠ accOk ∧ regionOf a ≠ Region.hbm ∧ s.canSend x 3 (regResponse 1 c tag 0 a [])) :=
  ⟨⟨(chain false), 0, 4095, 65535, 0x12000004, (rxFrame 3 4095 true true (regRequest 1 65535 1 0x12000004 [])), by unfold State.expects State.canSend frameWhole; decide +kernel⟩,
   ⟨(chainField false), 0, 4095, 65535, 0x13000002, (rxFrame 3 4095 true true (regRequest 1 65535 1 0x13000002 [])), 3, by unfold State.expects State.canSend frameWhole; decide +kernel⟩⟩

theorem wit_RegRequests_2 :
    (∃ (s : State) (x : Nat) (seq : Nat) (tag : Nat) (a : Nat) (v : Word) (e : RxEnd), s.up ∧ s.expects x 3 seq 16 false ∧ (s.mp x).regQ = [] ∧ a < 2 ^ 32 ∧ tag < 65536 ∧ frameWhole e 3 seq true true (regRequest 2 tag 1 a [v]) ∧ a / 2 ^ 24 = 19 ∧ rwsMask a ≠ 0 ∧ isActiveView a = false ∧ s.mayWrite (portReq x) a ∧ s.canSend x 3 (regResponse 2 0 tag 1 a [])) ∧
    (∃ (s : State) (x : Nat) (seq : Nat) (tag : Nat) (a : Nat) (v : Word) (e : RxEnd) (c : Nat), s.up ∧ s.expects x 3 seq 16 false ∧ (s.mp x).regQ = [] ∧ a < 2 ^ 32 ∧ tag < 65536 ∧ frameWhole e 3 seq true true (regRequest 2 tag 1 a [v]) ∧ s.refusal (portReq x) a true = c ∧ c ≠ accOk ∧ regionOf a ≠ Region.hbm ∧ s.canSend x 3 (regResponse 2 c tag 0 a [])) :=
  ⟨⟨(chain false), 0, 4095, 65535, (Reg.COMB_RECIPE 0), 0xFFFFFFFF, (rxFrame 3 4095 true true (regRequest 2 65535 1 (Reg.COMB_RECIPE 0) [0xFFFFFFFF])), by unfold State.expects State.canSend frameWhole; decide +kernel⟩,
   ⟨(chainField false), 0, 4095, 65535, 0x13000002, 0xFFFFFFFF, (rxFrame 3 4095 true true (regRequest 2 65535 1 0x13000002 [0xFFFFFFFF])), 3, by unfold State.expects State.canSend frameWhole; decide +kernel⟩⟩

theorem wit_RelayAndTelem_1 :
    (∃ (s : State) (seq : Nat) (c : Nat) (n : Nat) (f : Bool) (l : Bool) (inner : List Byte) (e : RxEnd), s.up ∧ s.upstream 0 = true ∧ c ∈ [1, 2, 3, 5] ∧ n = inner.length ∧ s.expects 0 6 seq (n + 8) false ∧ n < 1024 ∧ frameWhole e 6 seq true true (relayWrap c f l inner) ∧ s.mrHost 1 = true ∧ s.canSend 1 c inner) ∧
    (∃ (s : State) (seq : Nat) (c : Nat) (n : Nat) (f : Bool) (l : Bool) (inner : List Byte) (e : RxEnd), s.up ∧ s.upstream 0 = true ∧ c ∈ [1, 2, 3, 5] ∧ n = inner.length ∧ s.expects 0 6 seq (n + 8) false ∧ n < 1024 ∧ frameWhole e 6 seq true true (relayWrap c f l inner) ∧ s.mrState 1 ≠ mrActive) :=
  ⟨⟨(chain true), 4095, 3, 12, true, false, (leBytes 12 5), (rxFrame 6 4095 true true (relayWrap 3 true false (leBytes 12 5))), by unfold State.expects State.canSend frameWhole; decide +kernel⟩,
   ⟨(chain false), 4095, 3, 12, true, false, (leBytes 12 5), (rxFrame 6 4095 true true (relayWrap 3 true false (leBytes 12 5))), by unfold State.expects frameWhole; decide +kernel⟩⟩

theorem wit_RelayAndTelem_2_1 : ∃ (s : State) (seq : Nat) (c : Nat) (f : Bool) (l : Bool) (d : List Byte) (e : RxEnd), s.up ∧ s.mrHost 1 = true ∧ s.expects 1 c seq d.length (bit (leAt d 0 1) 7) ∧ c ≠ 4 ∧ c ≠ 6 ∧ frameWhole e c seq f l d ∧ d.length < 1024 ∧ s.upstream 0 = true ∧ s.canSend 0 6 (relayWrap c f l d) :=
  ⟨(chain true), 4095, 5, true, false, (leBytes 12 5), (rxFrame 5 4095 true false (leBytes 12 5)), by unfold State.expects State.canSend frameWhole; decide +kernel⟩

theorem wit_RelayAndTelem_2_2_1 : ∃ (s : State) (p : Nat) (kind : Nat) (x : Nat) (w : Win) (seen : List BlockSeen) (b : List Byte) (d : List Byte) (item : List Byte), s.inBurst p w [RevPkt.tile kind d] ∧ turnGood seen b ∧ (s.pr p).test = none ∧ s.pierState p ≠ 1 ∧ 128 ≤ kind ∧ kind ≤ 255 ∧ s.upPort = some x ∧ item = telemItem 3 p (leBytes 1 kind ++ leBytes 3 0 ++ padWord d) ∧ s.canSend x 5 item :=
  ⟨{chain true with piers := [(511, inBurst [.tile 0x80 [1,2,3]])]}, 511, 0x80, 0, (winOf [.tile 0x80 [1,2,3]]), seen16, turnD, [1,2,3], (telemItem 3 511 (leBytes 1 0x80 ++ leBytes 3 0 ++ padWord [1,2,3])), by unfold State.canSend State.inBurst turnGood; decide +kernel⟩

theorem wit_RelayAndTelem_2_2_2 : ∃ (s : State) (r : EvRec) (rs : List EvRec) (x : Nat), s.up ∧ s.evt.hostQ = r :: rs ∧ s.upPort = some x ∧ s.canSend x 5 (telemItem 1 65535 r.bytes) :=
  ⟨{chain true with evt := {State.reset.evt with hostQ := [⟨1,2,true,3,4,5,[6,7,8,9]⟩]}}, ⟨1,2,true,3,4,5,[6,7,8,9]⟩, [], 0, by unfold State.canSend; decide +kernel⟩

theorem wit_HbmUpkeep_1 : ∃ (pc : Nat) (s : State), s.up ∧ pc < 16 ∧ s.get Reg.HBM_STATUS.STATE = 3 ∧ Table.get (fun x ↦ 0) s.hc.behind pc < 8 :=
  ⟨5, (hbmIn 3 (duePc 0)), by decide +kernel⟩

theorem wit_HbmUpkeep_2_1 : ∃ (src : Nat) (s : State), s.up ∧ src ≤ 11 :=
  ⟨10, (hbmIn 3 {duePc 0 with aged := [(10,1)]}), by decide +kernel⟩

theorem wit_HbmUpkeep_2_2_1 : ∃ (x : Nat) (s : State), s.up ∧ 3 ≤ s.get Reg.HBM_STATUS.STATE ∧ x < 256 :=
  ⟨85, (hbmIn 3 (duePc 0)), by decide +kernel⟩

theorem wit_HbmUpkeep_2_2_2_1 :
    (∃ (s : State), s.up ∧ s.get Reg.HBM_STATUS.STATE = 3 ∧ s.get Reg.HBM_PM_CFG.SR_EN = 1 ∧ s.isl < s.hc.lastReq + 8000 * max 1 (s.get Reg.HBM_PM_CFG.SR_IDLE)) ∧
    (∃ (s : State), s.up ∧ s.get Reg.HBM_STATUS.STATE = 3 ∧ s.get Reg.HBM_PM_CFG.SR_EN = 1 ∧ s.hc.lastReq + 8000 * max 1 (s.get Reg.HBM_PM_CFG.SR_IDLE) ≤ s.isl) :=
  ⟨⟨(hbmIn 3 (duePc 0)), by decide +kernel⟩,
   ⟨{hbmIn 3 {duePc 0 with lastReq := 800000, rows := [(160, some 3)]} with nt := { resetNt with isl8 := 9000000 }}, by decide +kernel⟩⟩

theorem wit_HbmUpkeep_2_2_2_2_1 : ∃ (s : State), s.up ∧ s.get Reg.HBM_STATUS.STATE = 4 :=
  ⟨(hbmIn 4 (duePc 0)), by decide +kernel⟩

theorem wit_HbmUpkeep_2_2_2_2_2 :
    (∃ (s : State), s.up ∧ s.get Reg.HBM_STATUS.STATE = 3 ∧ s.get Reg.HBM_SCRUB_CFG.EN = 1 ∧ s.hc.scrubPos % 32 = 0 ∧ s.hc.scrubPos < hbmSize) ∧
    (∃ (s : State) (a : Nat), s.up ∧ s.get Reg.HBM_STATUS.STATE = 3 ∧ s.get Reg.HBM_SCRUB_CFG.EN = 1 ∧ (¬inLog a)) ∧
    (∃ (f : HbmFind) (s : State), s.up ∧ s.get Reg.HBM_STATUS.STATE = 3 ∧ s.get Reg.HBM_SCRUB_CFG.EN = 1 ∧ (f = HbmFind.clean ∨ f = HbmFind.parity false ∨ s.hbmFailed s.hc.scrubPos = true)) ∧
    (∃ (f : HbmFind) (s : State) (errs : List (Nat × Byte)), s.up ∧ s.get Reg.HBM_STATUS.STATE = 3 ∧ s.get Reg.HBM_SCRUB_CFG.EN = 1 ∧ f = HbmFind.damaged errs ∧ rsDecode (s.damaged s.hc.scrubPos errs) = none ∧ s.hbmFailed s.hc.scrubPos = false) ∧
    (∃ (f : HbmFind) (s : State), s.up ∧ s.get Reg.HBM_STATUS.STATE = 3 ∧ s.get Reg.HBM_SCRUB_CFG.EN = 1 ∧ f = HbmFind.parity true ∧ s.hbmFailed s.hc.scrubPos = false) :=
  ⟨⟨(hbmIn 3 {duePc 0 with scrubPos := 2^34 - 32, rows := [(160, some 3), (0, some 9)]}), by decide +kernel⟩,
   ⟨(hbmIn 3 {duePc 0 with scrubPos := 2^34 - 32, rows := [(160, some 3), (0, some 9)]}), 0, by unfold inLog; decide +kernel⟩,
   ⟨(.clean), (hbmIn 3 {duePc 0 with scrubPos := 2^34 - 32, rows := [(160, some 3), (0, some 9)]}), by decide +kernel⟩,
   ⟨(.damaged [(1,1),(2,2),(3,3)]), (hbmIn 3 {duePc 0 with scrubPos := 256, rows := [(160, some 3), (0, some 9)]}), ([(1,1),(2,2),(3,3)] : List (Nat × Byte)), by decide +kernel⟩,
   ⟨(.parity true), (hbmIn 3 {duePc 0 with scrubPos := 256, rows := [(160, some 3), (0, some 9)]}), by decide +kernel⟩⟩

theorem wit_HbmTraining_1 :
    (∃ (r : Req) (s : State), s.up ∧ s.mayWrite r Reg.SYS_BOOT_CTRL ∧ s.actsSup r = true ∧ s.sup.released = true ∧ s.get Reg.HBM_STATUS.STATE = 0 ∧ s.boot.hbmWait = false ∧ s.pwr.stageOff.contains 2 = false ∧ s.clk.state = AdpllState.locked) ∧
    (∃ (r : Req) (s : State), s.up ∧ s.mayWrite r Reg.SYS_BOOT_CTRL ∧ s.actsSup r = true ∧ s.sup.released = true ∧ s.get Reg.HBM_STATUS.STATE = 0 ∧ s.boot.hbmWait = false ∧ s.pwr.stageOff.contains 2 = false ∧ s.clk.state ≠ AdpllState.locked) :=
  ⟨⟨.sup, {locked false with sup := {State.reset.sup with released := true}}, by decide +kernel⟩,
   ⟨.sup, {holding false with sup := {State.reset.sup with released := true}, boot := {resetBoot with rescue := true}}, by decide +kernel⟩⟩

theorem wit_HbmTraining_2_1 : ∃ (us : Nat) (s : State), s.up ∧ (s.get Reg.HBM_STATUS.STATE = 1 ∨ s.get Reg.HBM_STATUS.STATE = 2) ∧ (s.mp 0).regQ = [] ∧ (s.mp 1).regQ = [] ∧ s.nec.playReq = false ∧ (s.blt.cur.isSome = true ∨ s.get Reg.BLT_CTRL.EN = 0 ∨ s.get Reg.BLT_Q_HEAD.HEAD = s.get Reg.BLT_Q_TAIL.TAIL) ∧ s.hc.waiting.length ≤ 1 ∧ (∀ (q : HbmReq), q ∈ s.hc.waiting → q.addr + q.data.length ≤ hbmSize) ∧ us < 2 ^ 32 :=
  ⟨0xFFFFFFFF, {put (hbmIn 2 (duePc 0)) [(Reg.HBM_STATUS.FAILED, 0x4002)] with hbm := [(0, 3), (256, 7)]}, by decide +kernel⟩

theorem wit_HbmTraining_2_2_1 : ∃ (r : Req) (s : State), s.mayWrite r Reg.HBM_TRAIN_REQ ∧ s.actsSup r = true :=
  ⟨.sup, (hbmIn 3 (duePc 2)), by decide +kernel⟩

theorem wit_HbmTraining_2_2_2 :
    (∃ (pc : Nat) (eye : Nat) (s : State), s.up ∧ s.get Reg.HBM_STATUS.STATE = 3 ∧ s.get Reg.HBM_TRAIN_CFG.EN = 1 ∧ s.pauseDue = true ∧ s.trainTriggers.trainNext = some pc ∧ eye < max 1 (s.get Reg.HBM_TRAIN_CFG.MIN_EYE) ∧ Table.get (fun x ↦ 0) s.trainTriggers.hc.fails pc < 3) ∧
    (∃ (pc : Nat) (eye : Nat) (s : State), s.up ∧ s.get Reg.HBM_STATUS.STATE = 3 ∧ s.get Reg.HBM_TRAIN_CFG.EN = 1 ∧ s.pauseDue = true ∧ s.trainTriggers.trainNext = some pc ∧ eye < max 1 (s.get Reg.HBM_TRAIN_CFG.MIN_EYE) ∧ Table.get (fun x ↦ 0) s.trainTriggers.hc.fails pc = 3) ∧
    (∃ (pc : Nat) (eye : Nat) (s : State), s.up ∧ s.get Reg.HBM_STATUS.STATE = 3 ∧ s.get Reg.HBM_TRAIN_CFG.EN = 1 ∧ s.pauseDue = true ∧ s.trainTriggers.trainNext = some pc ∧ max 1 (s.get Reg.HBM_TRAIN_CFG.MIN_EYE) ≤ eye) :=
  ⟨⟨5, 1, (hbmIn 3 {duePc 2 with rows := [(160, some 3), (191, some 3), (192, some 3)]}), by decide +kernel⟩,
   ⟨5, 8, (put (hbmIn 3 (duePc 3)) [(Reg.HBM_TRAIN_CFG.MIN_EYE, 9)]), by decide +kernel⟩,
   ⟨9, 9, {hbmIn 3 {duePc 0 with due := [(9, some 1)]} with deck := {atLatch.deck with phase := .blank, latch8 := 800000-64000}}, by decide +kernel⟩⟩

theorem wit_Resets :
    (∃ (r : Req) (v : Word) (e : BootIn) (c : Instr) (s : State), s.boot.lcRec.op = 0 ∧ (c = Instr.powerOnReset e ∨ c = Instr.sysrstPin e ∨ c = Instr.sysrst r v e ∧ s.mayWrite r Reg.SYS_RESET ∧ bits (BitVec.toNat v) 16 16 = 23063 ∧ bit (BitVec.toNat v) 0 = true ∧ (r = Req.sup ∨ (r = Req.portA ∨ r = Req.portB) ∧ (s.boot.lc = LcState.test ∨ s.boot.lc = LcState.service))) ∧ c = Instr.powerOnReset e) ∧
    (∃ (r : Req) (v : Word) (e : BootIn) (c : Instr) (s : State), s.boot.lcRec.op = 0 ∧ (c = Instr.powerOnReset e ∨ c = Instr.sysrstPin e ∨ c = Instr.sysrst r v e ∧ s.mayWrite r Reg.SYS_RESET ∧ bits (BitVec.toNat v) 16 16 = 23063 ∧ bit (BitVec.toNat v) 0 = true ∧ (r = Req.sup ∨ (r = Req.portA ∨ r = Req.portB) ∧ (s.boot.lc = LcState.test ∨ s.boot.lc = LcState.service))) ∧ c ≠ Instr.powerOnReset e) :=
  ⟨⟨.sup, 0, (bootIn 0), (.powerOnReset (bootIn 0)), (busyDevice .field), by decide +kernel⟩,
   ⟨.sup, 0, (bootIn 3), (.sysrstPin (bootIn 3)), (busyDevice .service), by decide +kernel⟩⟩

theorem wit_SupervisorRelease_2 : ∃ (s : State), s.boot.loading = true ∧ s.sup.released = false ∧ s.boot.mode ≤ 3 ∧ s.deck.dev ≠ DevState.safeHalt ∧ (s.boot.lc = LcState.retired ∨ s.boot.mode = 3 ∨ List.find? (fun e ↦ e.snd == bootOk) (s.trySlots (slotOrder s.boot.mode s.boot.lcRec)) = none) :=
  ⟨(phase4 .field 3), by decide +kernel⟩

theorem wit_LifeCycleOperations_1 :
    (∃ (r : Req) (arg : Nat) (op : Nat) (c : Instr) (s : State), s.mayWrite r Reg.LC_CMD ∧ arg < 256 ∧ (c, op) ∈ [(Instr.field r arg, 1), (Instr.enterService r arg, 2), (Instr.leaveService r arg, 3), (Instr.retire r arg, 4), (Instr.advanceRollback r arg, 5), (Instr.revokeKey r arg, 6), (Instr.programKeys r arg, 7), (Instr.setSlot r arg, 8), (Instr.confirmSlot r arg, 9)] ∧ s.lcRight r op = true ∧ s.lcCheck op (s.lcArg op arg) = 0 ∧ op ≤ 7) ∧
    (∃ (r : Req) (arg : Nat) (op : Nat) (c : Instr) (s : State), s.mayWrite r Reg.LC_CMD ∧ arg < 256 ∧ (c, op) ∈ [(Instr.field r arg, 1), (Instr.enterService r arg, 2), (Instr.leaveService r arg, 3), (Instr.retire r arg, 4), (Instr.advanceRollback r arg, 5), (Instr.revokeKey r arg, 6), (Instr.programKeys r arg, 7), (Instr.setSlot r arg, 8), (Instr.confirmSlot r arg, 9)] ∧ s.lcRight r op = false) ∧
    (∃ (r : Req) (arg : Nat) (op : Nat) (c : Instr) (s : State), s.mayWrite r Reg.LC_CMD ∧ arg < 256 ∧ (c, op) ∈ [(Instr.field r arg, 1), (Instr.enterService r arg, 2), (Instr.leaveService r arg, 3), (Instr.retire r arg, 4), (Instr.advanceRollback r arg, 5), (Instr.revokeKey r arg, 6), (Instr.programKeys r arg, 7), (Instr.setSlot r arg, 8), (Instr.confirmSlot r arg, 9)] ∧ s.lcRight r op = true ∧ s.lcCheck op (s.lcArg op arg) ≠ 0) ∧
    (∃ (r : Req) (arg : Nat) (op : Nat) (c : Instr) (s : State), s.mayWrite r Reg.LC_CMD ∧ arg < 256 ∧ (c, op) ∈ [(Instr.field r arg, 1), (Instr.enterService r arg, 2), (Instr.leaveService r arg, 3), (Instr.retire r arg, 4), (Instr.advanceRollback r arg, 5), (Instr.revokeKey r arg, 6), (Instr.programKeys r arg, 7), (Instr.setSlot r arg, 8), (Instr.confirmSlot r arg, 9)] ∧ s.lcRight r op = true ∧ s.lcCheck op (s.lcArg op arg) = 0 ∧ op = 8) ∧
    (∃ (r : Req) (arg : Nat) (op : Nat) (c : Instr) (s : State), s.mayWrite r Reg.LC_CMD ∧ arg < 256 ∧ (c, op) ∈ [(Instr.field r arg, 1), (Instr.enterService r arg, 2), (Instr.leaveService r arg, 3), (Instr.retire r arg, 4), (Instr.advanceRollback r arg, 5), (Instr.revokeKey r arg, 6), (Instr.programKeys r arg, 7), (Instr.setSlot r arg, 8), (Instr.confirmSlot r arg, 9)] ∧ s.lcRight r op = true ∧ s.lcCheck op (s.lcArg op arg) = 0 ∧ op = 9 ∧ s.boot.rescue = false) :=
  ⟨⟨.portA, 255, 1, (.field .portA 255), (busyDevice .test), by decide +kernel⟩,
   ⟨.portA, 255, 1, (.field .portA 255), (busyDevice .field), by decide +kernel⟩,
   ⟨.portA, 255, 2, (.enterService .portA 255), (busyDevice .field), by decide +kernel⟩,
   ⟨.sup, 1, 8, (.setSlot .sup 1), (busyDevice .field), by decide +kernel⟩,
   ⟨.sup, 1, 9, (.confirmSlot .sup 1), (busyDevice .field), by decide +kernel⟩⟩

theorem wit_LifeCycleOperations_2 :
    (∃ (e : BootIn) (t0 : Nat) (s : State), s.boot.lcResetAt = some t0 ∧ t0 ≤ s.isl ∧ s.boot.lcRec.op ≠ 0 ∧ e.fuseFails = false) ∧
    (∃ (e : BootIn) (t0 : Nat) (s : State), s.boot.lcResetAt = some t0 ∧ t0 ≤ s.isl ∧ s.boot.lcRec.op ≠ 0 ∧ e.fuseFails = true) ∧
    (∃ (t0 : Nat) (s : State), s.boot.lcResetAt = some t0 ∧ s.isl < t0) :=
  ⟨⟨(bootIn 0), 0, (lcDue 1), by decide +kernel⟩,
   ⟨{bootIn 0 with fuseFails := true}, 0, (lcDue 4), by decide +kernel⟩,
   ⟨5, {lcDue 7 with boot := {(lcDue 7).boot with lcResetAt := some 5}}, by decide +kernel⟩⟩

theorem wit_RescueAndLateStart_1_1 : ∃ (r : Req) (s : State), s.mayWrite r Reg.SYS_RESCUE ∧ s.boot.rescue = true ∧ s.boot.lc ≠ LcState.retired ∧ s.boot.prog = none ∧ s.deck.dev ≠ DevState.safeHalt ∧ s.checkStaged ≠ bootOk :=
  ⟨.sup, (rescuing none), by decide +kernel⟩

theorem wit_RescueAndLateStart_1_2 :
    (∃ (result : Nat) (slot : Nat) (s : State), s.boot.prog = some slot ∧ s.deck.dev ≠ DevState.safeHalt ∧ slot < 2 ∧ s.memWf ∧ result % 256 = 0 ∧ leAt (memRead s.hbm 8 4) 0 4 ≤ slotSize) ∧
    (∃ (result : Nat) (slot : Nat) (s : State), s.boot.prog = some slot ∧ s.deck.dev ≠ DevState.safeHalt ∧ slot < 2 ∧ s.memWf ∧ result % 256 ≠ 0) :=
  ⟨⟨0, 1, (rescuing (some 1)), by unfold State.memWf; decide +kernel⟩,
   ⟨257, 0, (rescuing (some 0)), by unfold State.memWf; decide +kernel⟩⟩

theorem wit_RescueAndLateStart_2_1 : ∃ (s : State), s.up ∧ s.get Reg.SYS_BOOT_STATUS.PHASE = 7 :=
  ⟨(phase 7), by decide +kernel⟩

theorem wit_RescueAndLateStart_2_2 : ∃ (s : State), s.up ∧ s.sup.released = true ∧ s.boot.rescue = false ∧ s.deck.running = false :=
  ⟨(phase 8), by decide +kernel⟩

theorem wit_BlitterBurst : ∀ e ∈ [(Instr.fill .clean, 1), (.copy .clean, 2), (.convert .clean, 3), (.expand .clean, 4), (.text .clean, 5)],
    ∃ (s : State) (c : BltRun), s.up ∧ s.blt.cur = some c ∧ c.done = false ∧ c.waiting = false ∧ s.blt.pauseTo ≤ s.nt.now8 ∧
      s.hbmServes ∧ s.bltCheck c = 0 ∧ c.pos < c.total ∧ c.kind = e.2 ∧
      ∀ x y, x < c.wd → y < c.hd → (c.reads x y).2 = 0 ∨ (c.reads x y).1 + (c.reads x y).2 ≤ c.dst + c.dy * c.fld 0x10 4 ∨
        extentEnd c.dst (c.fld 0x10 4) c.dstFmt c.dx c.dy c.wd c.hd ≤ (c.reads x y).1 := by
  have far : ∀ k, k < 6 → 1 ≤ k → ∀ x, x < (runOf k).wd → ∀ y, y < (runOf k).hd → ((runOf k).reads x y).2 = 0 ∨
      ((runOf k).reads x y).1 + ((runOf k).reads x y).2 ≤ (runOf k).dst + (runOf k).dy * (runOf k).fld 0x10 4 ∨
      extentEnd (runOf k).dst ((runOf k).fld 0x10 4) (runOf k).dstFmt (runOf k).dx (runOf k).dy (runOf k).wd (runOf k).hd
        ≤ ((runOf k).reads x y).1 := by decide +kernel
  have ok : ∀ k, k < 6 → 1 ≤ k → (blitting (some (runOf k))).up ∧ (blitting (some (runOf k))).blt.cur = some (runOf k) ∧
      (runOf k).done = false ∧ (runOf k).waiting = false ∧
      (blitting (some (runOf k))).blt.pauseTo ≤ (blitting (some (runOf k))).nt.now8 ∧
      (blitting (some (runOf k))).hbmServes ∧ (blitting (some (runOf k))).bltCheck (runOf k) = 0 ∧
      (runOf k).pos < (runOf k).total ∧ (runOf k).kind = k := by decide +kernel
  have kinds : ∀ e ∈ [(Instr.fill .clean, 1), (.copy .clean, 2), (.convert .clean, 3), (.expand .clean, 4), (.text .clean, 5)],
      e.2 < 6 ∧ 1 ≤ e.2 := by decide
  intro e he
  obtain ⟨h6, h1⟩ := kinds e he
  obtain ⟨a, b, c, d, f, g, i, j, l⟩ := ok e.2 h6 h1
  exact ⟨blitting (some (runOf e.2)), runOf e.2, a, b, c, d, f, g, i, j, l, fun x y hx hy => far e.2 h6 h1 x hx y hy⟩


theorem wit_BlitterQueue_1 :
    (∃ (r : Req) (v : Word) (s : State), s.up ∧ s.mayWrite r Reg.BLT_Q_TAIL ∧ s.actsSup r = true ∧ s.blt.cur = none ∧ s.get Reg.BLT_CTRL.EN = 1 ∧ 16 ≤ s.bltSize ∧ s.get Reg.BLT_Q_HEAD.HEAD ≠ BitVec.toNat v % 1024 ∧ s.blt.pauseTo ≤ s.nt.now8 ∧ s.hbmServes) ∧
    (∃ (r : Req) (s : State), s.up ∧ s.mayWrite r Reg.BLT_Q_TAIL ∧ s.actsSup r = false) ∧
    (∃ (r : Req) (s : State), s.up ∧ s.mayWrite r Reg.BLT_Q_TAIL ∧ s.actsSup r = true ∧ s.get Reg.HBM_STATUS.STATE < 3) :=
  ⟨⟨.sup, 0xFFFFFFFF, (blitting none), by decide +kernel⟩,
   ⟨.portA, {blitting none with boot := fieldLc.boot}, by decide +kernel⟩,
   ⟨.sup, (put (blitting none) [(Reg.HBM_STATUS.STATE, 2)]), by decide +kernel⟩⟩

theorem wit_BlitterQueue_2_1 :
    (∃ (s : State), s.up ∧ s.blt.pauseTo ≤ s.nt.now8 ∧ s.blt.cur = none ∧ s.get Reg.BLT_CTRL.EN = 1 ∧ 16 ≤ s.bltSize ∧ s.get Reg.BLT_Q_HEAD.HEAD ≠ s.get Reg.BLT_Q_TAIL.TAIL ∧ s.hbmServes) ∧
    (∃ (s : State), s.up ∧ (s.nt.now8 < s.blt.pauseTo ∨ s.get Reg.HBM_STATUS.STATE < 3)) :=
  ⟨⟨(blitting none), by decide +kernel⟩,
   ⟨{blitting (some (runOf 1)) with blt := ⟨none, 8⟩}, by decide +kernel⟩⟩

theorem wit_BlitterQueue_2_2_1 : ∃ (s : State) (c : BltRun), s.up ∧ s.blt.cur = some c ∧ c.waiting = true ∧ (c.go = true ∨ s.deckRunning = false) :=
  ⟨(blitting (some {runOf 1 with waiting := true})), {runOf 1 with waiting := true}, by decide +kernel⟩

theorem wit_BlitterQueue_2_2_2_1 :
    (∃ (s : State) (c : BltRun), s.up ∧ s.blt.cur = some c ∧ c.done = true ∧ s.get Reg.HBM_STATUS.FAILED = 0 ∧ s.bltAddr c.index + 64 ≤ hbmSize ∧ c.result < 256 ∧ c.rows < 2 ^ 15 ∧ c.result = 0) ∧
    (∃ (s : State) (c : BltRun), s.up ∧ s.blt.cur = some c ∧ c.done = true ∧ s.get Reg.HBM_STATUS.FAILED = 0 ∧ s.bltAddr c.index + 64 ≤ hbmSize ∧ c.result < 256 ∧ c.rows < 2 ^ 15 ∧ c.result ≠ 0 ∧ s.get Reg.BLT_CTRL.STOP_ON_ERR = 1) ∧
    (∃ (s : State) (c : BltRun), s.up ∧ s.blt.cur = some c ∧ c.done = true ∧ s.get Reg.HBM_STATUS.FAILED = 0 ∧ s.bltAddr c.index + 64 ≤ hbmSize ∧ c.result < 256 ∧ c.rows < 2 ^ 15 ∧ bit (c.fld 0 4) 7 = true) ∧
    (∃ (s : State) (c : BltRun), s.up ∧ s.blt.cur = some c ∧ c.done = true ∧ s.get Reg.HBM_STATUS.FAILED = 0 ∧ s.bltAddr c.index + 64 ≤ hbmSize ∧ c.result < 256 ∧ c.rows < 2 ^ 15 ∧ c.fence < 32 ∧ c.checked = false ∧ s.layerOwner c.fence = Writer.supervisor) :=
  ⟨⟨(blitting (some {runOf 1 with done := true})), {runOf 1 with done := true}, by decide +kernel⟩,
   ⟨(blitting (some {runOf 1 with done := true, result := 3, crossed := true, index := 15})), {runOf 1 with done := true, result := 3, crossed := true, index := 15}, by decide +kernel⟩,
   ⟨(blitting (some {runOf 1 with done := true, desc := (descrOf 1).set 5 31 |>.set 0 0x81, index := 15})), {runOf 1 with done := true, desc := (descrOf 1).set 5 31 |>.set 0 0x81, index := 15}, by decide +kernel⟩,
   ⟨(put (blitting (some {runOf 1 with done := true, desc := (descrOf 1).set 5 31, index := 15})) [(Reg.LAYER_INFO.OWNER 31, 1)]), {runOf 1 with done := true, desc := (descrOf 1).set 5 31, index := 15}, by decide +kernel⟩⟩

theorem wit_BlitterQueue_2_2_2_2 : ∃ (r : Req) (s : State), s.up ∧ s.mayWrite r Reg.BLT_CTRL ∧ s.actsSup r = true :=
  ⟨.sup, (blitting (some (runOf 2))), by decide +kernel⟩

theorem wit_ThermalSample :
    (∃ (s : State) (u : Nat), s.up ∧ s.thm.lt ≤ 7 ∧ s.thm.sampleAt = some u ∧
      u + (if s.get Reg.THM_STATUS.FAST = 1 then 8000000 else 80000000) ≤ s.isl ∧ s.thm.upAt = none ∧ s.thm.lt < 7) ∧
    (∃ (s : State), s.up ∧ s.thm.lt ≤ 7 ∧ s.thm.sampleAt = none ∧ s.fs.thermTrip = false ∧ s.key.active = 0 ∧
      s.sup.released = true) :=
  ⟨⟨warm {State.reset.thm with sampleAt := some (oneSecond - 80000000)} 3, oneSecond - 80000000, by decide +kernel⟩,
   ⟨{warm State.reset.thm 3 with sup := (phase 8).sup}, by decide +kernel⟩⟩

theorem wit_ThermalControls_1 :
    (∃ (r : Req) (v : Word) (s : State), s.mayWrite r Reg.THM_LIMITS ∧ s.actsSup r = true ∧ signed 8 (bits (BitVec.toNat v) 0 8) ≤ signed 8 (bits (BitVec.toNat v) 8 8) ∧ signed 8 (bits (BitVec.toNat v) 8 8) ≤ signed 8 (bits (BitVec.toNat v) 16 8) ∧ signed 8 (bits (BitVec.toNat v) 16 8) ≤ 115) ∧
    (∃ (r : Req) (v : Word) (s : State), s.mayWrite r Reg.THM_LIMITS ∧ (¬(s.actsSup r = true ∧ signed 8 (bits (BitVec.toNat v) 0 8) ≤ signed 8 (bits (BitVec.toNat v) 8 8) ∧ signed 8 (bits (BitVec.toNat v) 8 8) ≤ signed 8 (bits (BitVec.toNat v) 16 8) ∧ signed 8 (bits (BitVec.toNat v) 16 8) ≤ 115))) :=
  ⟨⟨.sup, 0xFF735A5A, (warm State.reset.thm 0), by decide +kernel⟩,
   ⟨.sup, 0x00745A5A, (warm State.reset.thm 0), by decide +kernel⟩⟩

theorem wit_ThermalControls_2_1 :
    (∃ (r : Req) (s : State), s.mayWrite r Reg.THM_THROTTLE ∧ s.thm.lt ≤ 7 ∧ s.actsSup r = true) ∧
    (∃ (r : Req) (s : State), s.mayWrite r Reg.THM_THROTTLE ∧ s.thm.lt ≤ 7 ∧ s.actsSup r = false) :=
  ⟨⟨.sup, (warm State.reset.thm 0), by decide +kernel⟩,
   ⟨.portA, {warm State.reset.thm 0 with boot := fieldLc.boot}, by decide +kernel⟩⟩

theorem wit_ThermalControls_2_2_1 :
    (∃ (t0 : Nat) (s : State), s.up ∧ s.thm.tripAt = some t0 ∧ t0 + 800000000 ≤ s.isl ∧ s.key.active = 0 ∧ s.sup.released = true) ∧
    (∃ (t0 : Nat) (s : State), s.up ∧ s.thm.tripAt = some t0 ∧ s.isl < t0 + 800000000) ∧
    (∃ (t0 : Nat) (s : State), s.up ∧ s.thm.tripAt = some t0 ∧ t0 + 800000000 ≤ s.isl ∧ s.key.active ≠ 0) :=
  ⟨⟨0, {warm {State.reset.thm with tripAt := some 0} 0 with sup := (phase 8).sup}, by decide +kernel⟩,
   ⟨(oneSecond), {warm {State.reset.thm with tripAt := some (oneSecond)} 0 with sup := (phase 8).sup}, by decide +kernel⟩,
   ⟨0, {warm {State.reset.thm with tripAt := some 0} 0 with key := {resetKey with active := 3}, sup := (phase 8).sup}, by decide +kernel⟩⟩

theorem wit_ThermalControls_2_2_2 : ∃ (s : State), s.up ∧ s.sup.released = true :=
  ⟨{busyDevice .field with sup := (phase 8).sup}, by decide +kernel⟩

theorem wit_Calibration_1_1 :
    (∃ (r : Req) (s : State), s.mayWrite r Reg.CAL_CFG ∧ s.actsSup r = true) ∧
    (∃ (r : Req) (s : State), s.mayWrite r Reg.CAL_CFG ∧ s.actsSup r = false) :=
  ⟨⟨.sup, (calibrating 0 State.reset.cal), by decide +kernel⟩,
   ⟨.portA, {calibrating 0 State.reset.cal with boot := fieldLc.boot}, by decide +kernel⟩⟩

theorem wit_Calibration_1_2_1 :
    (∃ (tr : Nat) (s : State), s.up ∧ s.calTrigger = some tr ∧ s.get Reg.CAL_STATUS.STATE < 2 ∧ (∀ (t0 : Nat), s.cal.lastAt = some t0 → t0 + max 1 (s.get Reg.CAL_CFG.MIN_INTERVAL) * 8000000000 ≤ s.isl) ∧ s.clk.state = AdpllState.locked) ∧
    (∃ (tr : Nat) (s : State), s.up ∧ s.calTrigger = some tr ∧ s.get Reg.CAL_STATUS.STATE < 2 ∧ (∃ t0, s.cal.lastAt = some t0 ∧ s.isl < t0 + max 1 (s.get Reg.CAL_CFG.MIN_INTERVAL) * 8000000000)) ∧
    (∃ (tr : Nat) (s : State), s.up ∧ s.calTrigger = some tr ∧ s.get Reg.CAL_STATUS.STATE < 2 ∧ (∀ (t0 : Nat), s.cal.lastAt = some t0 → t0 + max 1 (s.get Reg.CAL_CFG.MIN_INTERVAL) * 8000000000 ≤ s.isl) ∧ s.clk.state ≠ AdpllState.locked) :=
  ⟨⟨0, (calibrating 0 State.reset.cal), by decide +kernel⟩,
   ⟨3, (calibrating 1 {measured with due := some 3, lastAt := some (99*oneSecond)}), by decide +kernel⟩,
   ⟨3, {calibrating 1 {measured with due := some 3, lastAt := some (98*oneSecond), done := []} with clk := (holding true).clk}, by decide +kernel⟩⟩

theorem wit_Calibration_1_2_2_1 :
    (∃ (p : Nat) (vals : Option (List Int)) (s : State) (l : List Int), s.up ∧ p < 512 ∧ p ∈ s.calOpen ∧ (¬p ∈ s.cal.cut) ∧ (s.get Reg.CAL_STATUS.STATE = 3 ∨ s.get Reg.CAL_STATUS.STATE = 5) ∧ vals = some l ∧ s.calFree p = true) ∧
    (∃ (p : Nat) (vals : Option (List Int)) (s : State), s.up ∧ p < 512 ∧ p ∈ s.calOpen ∧ (¬p ∈ s.cal.cut) ∧ (s.get Reg.CAL_STATUS.STATE = 3 ∨ s.get Reg.CAL_STATUS.STATE = 5) ∧ vals = none) ∧
    (∃ (p : Nat) (vals : Option (List Int)) (s : State) (l : List Int), s.up ∧ p < 512 ∧ p ∈ s.calOpen ∧ (¬p ∈ s.cal.cut) ∧ (s.get Reg.CAL_STATUS.STATE = 3 ∨ s.get Reg.CAL_STATUS.STATE = 5) ∧ vals = some l ∧ s.calFree p = false) :=
  ⟨⟨511, (some [7,8,9]), passing1, [7,8,(9:Int)], by decide +kernel, by decide +kernel, by rw [State.calOpen, passing1_tiles]; decide +kernel, by decide +kernel, by decide +kernel, by decide +kernel⟩,
   ⟨511, none, passing2, by decide +kernel, by decide +kernel, by rw [State.calOpen, passing2_tiles]; decide +kernel, by decide +kernel, by decide +kernel, by decide +kernel⟩,
   ⟨511, (some [7,8,9]), passing3, [7,8,(9:Int)], by decide +kernel, by decide +kernel, by rw [State.calOpen, passing3_tiles]; decide +kernel, by decide +kernel, by decide +kernel, by decide +kernel, by decide +kernel⟩⟩

theorem wit_Calibration_1_2_2_2_2 :
    (∃ (s : State), s.up ∧ s.get Reg.CAL_STATUS.STATE = 4 ∧ s.cal.gapAt + 8000000000 ≤ s.isl) ∧
    (∃ (s : State), s.up ∧ s.get Reg.CAL_STATUS.STATE = 4 ∧ s.isl < s.cal.gapAt + 8000000000) :=
  ⟨⟨(calibrating 4 {measured with gapAt := 99*oneSecond}), by decide +kernel⟩,
   ⟨(calibrating 4 {measured with gapAt := 99*oneSecond+1}), by decide +kernel⟩⟩

theorem wit_Calibration_2_1 : ∃ (s : State), s.up ∧ s.get Reg.CAL_STATUS.STATE = 5 ∧ s.calOpen = [] ∧ (∀ (p : Nat), p ∈ s.cal.done → p < 512) :=
  ⟨passed, by decide +kernel, by decide +kernel, by rw [State.calOpen, passed_tiles]; decide +kernel, by decide +kernel⟩

theorem wit_Calibration_2_2 :
    (∃ (s : State) (r : FieldRec), s.up ∧ s.get Reg.CAL_STATUS.STATE = 6 ∧ s.cal.store = some r ∧ s.cal.field ≠ none ∧ s.cal.newer1 = false) ∧
    (∃ (s : State) (r : FieldRec), s.up ∧ s.get Reg.CAL_STATUS.STATE = 6 ∧ s.cal.store = some r ∧ r.seq = ((Option.map (fun x ↦ x.seq) s.cal.field).getD 0 + 1) % 2 ^ 32) ∧
    (∃ (s : State) (r : FieldRec), s.up ∧ s.get Reg.CAL_STATUS.STATE = 6 ∧ s.cal.store = some r ∧ (s.cal.field = none ∨ s.cal.newer1 = true)) :=
  ⟨⟨(calibrating 6 {measured with store := some (fieldRec 10)}), (fieldRec 10), by decide +kernel⟩,
   ⟨(calibrating 6 {measured with store := some (fieldRec 10)}), (fieldRec 10), by decide +kernel⟩,
   ⟨(calibrating 6 {measured with slot0 := none, slot1 := some (fieldRec 0xFFFFFFFF), store := some (fieldRec 0)}), (fieldRec 0), by decide +kernel⟩⟩

theorem wit_Power_1_1 :
    (∃ (s : State) (r : Nat), s.up ∧ s.sup.released = true ∧ s.pwr.retryAt = none ∧ s.pwr.wait = none ∧ s.nextRail = some r) ∧
    (∃ (s : State) (r : Nat) (t0 : Nat), s.up ∧ s.sup.released = true ∧ s.pwr.retryAt = none ∧ s.pwr.wait = some (r, t0)) :=
  ⟨⟨(railing {State.reset.pwr with on := [0,1]}), 2, by decide +kernel⟩,
   ⟨(railing {State.reset.pwr with on := [0,1,2], wait := some (6, 5)}), 6, 5, by decide +kernel⟩⟩

theorem wit_Power_1_2_1 :
    (∃ (r : Nat) (t0 : Nat) (s : State), s.up ∧ s.pwr.wait = some (r, t0) ∧ 2 ≤ r ∧ r ≤ 6 ∧ t0 + 160000000 ≤ s.isl ∧ r = 6) ∧
    (∃ (r : Nat) (t0 : Nat) (s : State), s.up ∧ s.pwr.wait = some (r, t0) ∧ 2 ≤ r ∧ r ≤ 6 ∧ t0 + 160000000 ≤ s.isl ∧ r < 6) ∧
    (∃ (r : Nat) (t0 : Nat) (s : State), s.up ∧ s.pwr.wait = some (r, t0) ∧ 2 ≤ r ∧ r ≤ 6 ∧ t0 + 160000000 ≤ s.isl ∧ r < 5) ∧
    (∃ (r : Nat) (t0 : Nat) (s : State), s.up ∧ s.pwr.wait = some (r, t0) ∧ 2 ≤ r ∧ r ≤ 6 ∧ s.isl < t0 + 160000000) :=
  ⟨⟨6, 5, (railing {State.reset.pwr with on := [0,1,2,3,5], tries4 := 1, wait := some (6, 5)}), by decide +kernel⟩,
   ⟨4, 5, (railing {State.reset.pwr with on := [0,1,2,3,5], wait := some (4, 5)}), by decide +kernel⟩,
   ⟨4, 5, (railing {State.reset.pwr with on := [0,1,2,3,5], wait := some (4, 5)}), by decide +kernel⟩,
   ⟨5, (100*oneSecond), (railing {State.reset.pwr with on := [0,1,2,3,4], wait := some (5, 100*oneSecond)}), by decide +kernel⟩⟩

theorem wit_Power_1_2_2_1 :
    (∃ (t0 : Nat) (s : State), s.up ∧ s.pwr.retryAt = some t0 ∧ t0 ≤ s.isl) ∧
    (∃ (t0 : Nat) (s : State), s.up ∧ s.pwr.retryAt = some t0 ∧ s.isl < t0) :=
  ⟨⟨5, (railing {State.reset.pwr with retryAt := some 5}), by decide +kernel⟩,
   ⟨(100*oneSecond+1), (railing {State.reset.pwr with retryAt := some (100*oneSecond+1)}), by decide +kernel⟩⟩

theorem wit_Power_1_2_2_2 : ∃ (s : State), s.up ∧ s.sup.released = true :=
  ⟨(put (railing State.reset.pwr) [(Reg.CAL_STATUS.VALID,1)]), by decide +kernel⟩

theorem wit_Power_2_1 : ∃ (vout : Nat) (s : State), s.up ∧ s.get Reg.PWR_AVS_CFG.EN = 1 ∧ s.pwr.avsAt + 8000000 ≤ s.isl ∧ 700 ≤ s.get Reg.PWR_AVS.TARGET ∧ s.get Reg.PWR_AVS.TARGET ≤ 850 ∧ vout < 1024 :=
  ⟨1023, (railing State.reset.pwr), by decide +kernel⟩

theorem wit_Power_2_2_1 : ∃ (s : State), (s.get Reg.PWR_AVS_CFG.EN = 0 ∨ s.isl < s.pwr.avsAt + 8000000) :=
  ⟨(railing {State.reset.pwr with avsAt := 100*oneSecond}), by decide +kernel⟩

theorem wit_Power_2_2_2_1 : ∃ (r : Req) (s : State), s.up ∧ s.mayWrite r Reg.PWR_PMB_CMD ∧ s.actsSup r = true ∧ s.get Reg.PWR_PMB_DATA.BUSY = 0 :=
  ⟨.sup, (put (railing State.reset.pwr) [(Reg.PWR_PMB_DATA.DATA, 0xABCD)]), by decide +kernel⟩

theorem wit_Power_2_2_2_2 : ∃ (err : Nat) (a : Nat) (c : Nat) (n : Nat) (rd : Bool) (s : State), s.up ∧ s.pwr.pmb = some (a, c, rd, n) ∧ err < 8 ∧ n ≤ 2 :=
  ⟨0, 1, 2, 2, true, (railing {State.reset.pwr with pmb := some (1,2,true,2)}), by decide +kernel⟩

theorem wit_Calibration_1_2_2_2_1 : ∃ (p : Nat) (s : State), p ∈ s.cal.cut :=
  ⟨511, {passing1 with cal := { passing1.cal with cut := [511] } }, by decide +kernel⟩

theorem wit_WatchdogAndCores_1 :
    (∃ (r : Req) (v : Word) (s : State), s.mayWrite r Reg.SUP_WDT_KICK ∧ s.actsSup r = true ∧ s.sup.wdtOn = true ∧ s.deck.dev ≠ DevState.safeHalt ∧ (bits (BitVec.toNat v) 0 16 = if s.get Reg.SUP_WDT_STATUS.NEXT = 0 then 23235 else 50010) ∧ s.sup.wdtAt + s.wdtOpen * 8000000 ≤ s.isl) ∧
    (∃ (r : Req) (v : Word) (s : State), s.mayWrite r Reg.SUP_WDT_KICK ∧ s.actsSup r = true ∧ s.sup.wdtOn = true ∧ s.deck.dev ≠ DevState.safeHalt ∧ ((bits (BitVec.toNat v) 0 16 ≠ if s.get Reg.SUP_WDT_STATUS.NEXT = 0 then 23235 else 50010) ∨ s.isl < s.sup.wdtAt + s.wdtOpen * 8000000)) :=
  ⟨⟨.sup, 0x5AC3, (watched 500), by decide +kernel⟩,
   ⟨.sup, 0xC35A, (watched 500), by decide +kernel⟩⟩

theorem wit_WatchdogAndCores_2_1 :
    (∃ (s : State), s.sup.wdtOn = true ∧ s.deck.dev ≠ DevState.safeHalt ∧ s.sup.wdtAt + max 10 (s.get Reg.SUP_WDT_CFG.TIMEOUT) * 8000000 ≤ s.isl) ∧
    (∃ (s : State), s.sup.wdtOn = true ∧ s.deck.dev ≠ DevState.safeHalt ∧ s.sup.wdtWarned = false ∧ s.sup.wdtAt + max 10 (s.get Reg.SUP_WDT_CFG.TIMEOUT) * 6000000 ≤ s.isl) ∧
    (∃ (s : State), s.sup.wdtOn = true ∧ s.deck.dev ≠ DevState.safeHalt ∧ s.isl < s.sup.wdtAt + max 10 (s.get Reg.SUP_WDT_CFG.TIMEOUT) * 8000000) :=
  ⟨⟨(watched 1000), by decide +kernel⟩,
   ⟨(watched 1000), by decide +kernel⟩,
   ⟨(watched 750), by decide +kernel⟩⟩

theorem wit_WatchdogAndCores_2_2_1 :
    (∃ (r : Req) (s : State), s.mayWrite r Reg.SUP_WDT_CFG ∧ s.actsSup r = true ∧ s.get Reg.SUP_WDT_CFG.LOCK = 0) ∧
    (∃ (r : Req) (s : State), s.mayWrite r Reg.SUP_WDT_CFG ∧ (s.actsSup r = false ∨ s.get Reg.SUP_WDT_CFG.LOCK = 1)) :=
  ⟨⟨.sup, (watched 10), by decide +kernel⟩,
   ⟨.sup, (put (watched 10) [(Reg.SUP_WDT_CFG.LOCK, 1)]), by decide +kernel⟩⟩

theorem wit_WatchdogAndCores_2_2_2_1 : ∃ (x : Nat) (s : State) (c : Instr) (lo : Byte), s.deck.dev ≠ DevState.safeHalt ∧ ((c, lo) ∈ [(Instr.lockstepMismatch x, 4), (Instr.tcmEccError x true, 5)]) :=
  ⟨5, (watched 10), (.lockstepMismatch 5), 4, by decide +kernel⟩

theorem wit_WatchdogAndCores_2_2_2_2 : ∃ (s : State), s.deck.dev ≠ DevState.safeHalt :=
  ⟨(put (watched 10) [(Reg.SUP_TCM_ECC.CORR, 65535)]), by decide +kernel⟩

theorem wit_EventRecords_1 :
    (∃ (r : Req) (v : Word) (s : State), s.mayWrite r Reg.EVT_POST ∧ s.actsSup r = true ∧ 32768 ≤ bits (BitVec.toNat v) 16 16 ∧ s.boot.loading = false ∧ s.deck.dev ≠ DevState.safeHalt) ∧
    (∃ (r : Req) (v : Word) (s : State), s.mayWrite r Reg.EVT_POST ∧ (s.actsSup r = false ∨ bits (BitVec.toNat v) 16 16 < 32768)) :=
  ⟨⟨.sup, 0x80FF031F, (evtQueued 511 true), by decide +kernel⟩,
   ⟨.sup, 0x7FFF0005, (evtQueued 512 false), by decide +kernel⟩⟩

theorem wit_EventRecords_2_1 : ∃ (r : Req) (s : State) (w : Nat), s.mayRead r (Reg.EVT_REC 0) ∧ r ≠ Req.ctrl ∧ 1 ≤ w ∧ w ≤ 7 :=
  ⟨.sup, (evtQueued 3 true), 1, by decide +kernel⟩

theorem wit_EventRecords_2_2_1 :
    (∃ (r : Req) (s : State), s.mayWrite r Reg.EVT_LOG_CTRL ∧ s.boot.lc = LcState.service ∧ s.deck.dev ≠ DevState.safeHalt ∧ 0 < s.refill.evt.tokens) ∧
    (∃ (r : Req) (s : State), s.mayWrite r Reg.EVT_LOG_CTRL ∧ s.boot.lc ≠ LcState.service) :=
  ⟨⟨.sup, (watched 3), by decide +kernel⟩,
   ⟨.sup, fieldLc, by decide +kernel⟩⟩

theorem wit_EventRecords_2_2_2 : ∃ (s : State), s.up ∧ s.evt.suppressed ≠ 0 ∧ 0 < s.refill.evt.tokens :=
  ⟨(evtQueued 3 true), by decide +kernel⟩

theorem wit_MailboxAndSemaphores_1 :
    (∃ (r : Req) (d : Nat) (v : Word) (c : Instr) (s : State), (c, d) ∈ [(Instr.mbxH2sSend r v, 0), (Instr.mbxS2hSend r v, 1)] ∧ s.mayWrite r (mbxCtrl d) ∧ mbxSends d r = true ∧ s.get (mbxField d Reg.SUP_MBX_H2S_CTRL.BUSY) = 0 ∧ d = 0) ∧
    (∃ (r : Req) (d : Nat) (v : Word) (c : Instr) (s : State), (c, d) ∈ [(Instr.mbxH2sSend r v, 0), (Instr.mbxS2hSend r v, 1)] ∧ s.mayWrite r (mbxCtrl d) ∧ mbxSends d r = true ∧ s.get (mbxField d Reg.SUP_MBX_H2S_CTRL.BUSY) = 1) :=
  ⟨⟨.portA, 0, 0xFFFFFFFF, (.mbxH2sSend .portA 0xFFFFFFFF), fieldLc, by decide +kernel⟩,
   ⟨.portB, 0, 5, (.mbxH2sSend .portB 5), (put fieldLc [(mbxField 0 Reg.SUP_MBX_H2S_CTRL.BUSY, 1)]), by decide +kernel⟩⟩

theorem wit_MailboxAndSemaphores_2_1 :
    (∃ (r : Req) (d : Nat) (v : Word) (c : Instr) (s : State), (c, d) ∈ [(Instr.mbxH2sAck r v, 0), (Instr.mbxS2hAck r v, 1)] ∧ s.mayWrite r (mbxCtrl d) ∧ mbxReceives d r = true ∧ s.get (mbxField d Reg.SUP_MBX_H2S_CTRL.BUSY) = 1 ∧ d = 1) ∧
    (∃ (r : Req) (d : Nat) (v : Word) (c : Instr) (s : State), (c, d) ∈ [(Instr.mbxH2sAck r v, 0), (Instr.mbxS2hAck r v, 1)] ∧ s.mayWrite r (mbxCtrl d) ∧ mbxReceives d r = true ∧ s.get (mbxField d Reg.SUP_MBX_H2S_CTRL.BUSY) = 0) :=
  ⟨⟨.portA, 1, 0, (.mbxS2hAck .portA 0), (put fieldLc [(mbxField 1 Reg.SUP_MBX_H2S_CTRL.BUSY, 1)]), by decide +kernel⟩,
   ⟨.portA, 1, 0, (.mbxS2hAck .portA 0), fieldLc, by decide +kernel⟩⟩

theorem wit_MailboxAndSemaphores_2_2_1 : ∃ (r : Req) (n : Nat) (s : State), n < 16 ∧ s.mayRead r (Reg.SUP_SEM n) ∧ r ≠ Req.ctrl :=
  ⟨.portB, 15, {fieldLc with sup := {State.reset.sup with sems := [(3, 1)]}}, by decide +kernel⟩

theorem wit_MailboxAndSemaphores_2_2_2_1 :
    (∃ (r : Req) (n : Nat) (s : State), n < 16 ∧ s.mayWrite r (Reg.SUP_SEM n) ∧ r ≠ Req.ctrl ∧ s.semOwner n ≠ ownerCode r) ∧
    (∃ (r : Req) (n : Nat) (s : State), n < 16 ∧ s.mayWrite r (Reg.SUP_SEM n) ∧ r ≠ Req.ctrl ∧ s.semOwner n = ownerCode r) :=
  ⟨⟨.portB, 3, {fieldLc with sup := {State.reset.sup with sems := [(3, 1)]}}, by decide +kernel⟩,
   ⟨.portB, 3, {fieldLc with sup := {State.reset.sup with sems := [(3, ownerCode .portB), (5, 2)]}}, by decide +kernel⟩⟩

theorem wit_MailboxAndSemaphores_2_2_2_2 :
    (∃ (r : Req) (n : Nat) (s : State), n < 16 ∧ s.mayWrite r (Reg.SUP_SEM n) ∧ s.actsSup r = false) ∧
    (∃ (r : Req) (n : Nat) (s : State), n < 16 ∧ s.mayWrite r (Reg.SUP_SEM n) ∧ s.actsSup r = true) :=
  ⟨⟨.portB, 3, {fieldLc with sup := {State.reset.sup with sems := [(3, 1)]}}, by decide +kernel⟩,
   ⟨.sup, 3, {fieldLc with sup := {State.reset.sup with sems := [(3, 2), (4,2)]}}, by decide +kernel⟩⟩

theorem wit_SafetyIsland_1_1 :
    (∃ (rail : Nat) (s : State), rail ∈ s.pwr.on ∧ 6 ≤ rail ∧ rail ≤ 9 ∧ s.deck.dev ≠ DevState.safeHalt) ∧
    (∃ (rail : Nat) (s : State), rail ∈ s.pwr.on ∧ (rail = 0 ∨ rail = 1)) :=
  ⟨⟨7, (watched 5), by decide +kernel⟩,
   ⟨0, (watched 5), by decide +kernel⟩⟩

theorem wit_SafetyIsland_1_2_1 :
    (∃ (bad : Nat) (s : State), s.fs.selftestAt ≤ s.isl ∧ bad < 256 ∧ bad = 0 ∧ s.flag Reg.FS_CAUSE.SELFTEST = false) ∧
    (∃ (bad : Nat) (s : State), s.fs.selftestAt ≤ s.isl ∧ bad < 256 ∧ bad ≠ 0) :=
  ⟨⟨0, (watched 1000), by decide +kernel⟩,
   ⟨255, (watched 1000), by decide +kernel⟩⟩

theorem wit_SafetyIsland_1_2_2 :
    (∃ (s : State), s.fs.hbRun = true ∧ s.fs.hbAt + 80000000 ≤ s.isl) ∧
    (∃ (s : State), (s.fs.hbRun = false ∨ s.isl < s.fs.hbAt + 80000000)) :=
  ⟨⟨{watched 1000 with fs := {State.reset.fs with hbRun := true, hbLevel := true}}, by decide +kernel⟩,
   ⟨{watched 9 with fs := {State.reset.fs with hbRun := true, hbLevel := true}}, by decide +kernel⟩⟩

theorem wit_SafetyIsland_2_1 :
    (∃ (r : Req) (s : State), s.mayWrite r Reg.FS_TEST ∧ s.actsSup r = true ∧ s.flag Reg.KEY_STATUS.HW_REQ = false ∧ s.flag Reg.FS_CAUSE.TEST = false) ∧
    (∃ (r : Req) (s : State), s.mayWrite r Reg.FS_TEST ∧ s.actsSup r = true ∧ s.flag Reg.KEY_STATUS.HW_REQ = true) ∧
    (∃ (r : Req) (s : State), s.mayWrite r Reg.FS_TEST ∧ s.actsSup r = false) :=
  ⟨⟨.sup, (watched 9), by decide +kernel⟩,
   ⟨.sup, (put (watched 9) [(Reg.KEY_STATUS.HW_REQ, 1)]), by decide +kernel⟩,
   ⟨.portA, {watched 9 with boot := fieldLc.boot}, by decide +kernel⟩⟩

theorem wit_SafetyIsland_2_2_1 :
    (∃ (e : Nat) (s : State), s.fs.testEnd = some e ∧ e ≤ s.isl) ∧
    (∃ (e : Nat) (s : State), s.fs.testEnd = some e ∧ s.isl < e) :=
  ⟨⟨8000000000, (put (faulting 8000000000) [(Reg.FS_CAUSE.TEST, 1)]), by decide +kernel⟩,
   ⟨8000000001, (put (faulting 8000000001) [(Reg.FS_CAUSE.TEST, 1)]), by decide +kernel⟩⟩

theorem wit_SafetyIsland_2_2_2_1 :
    (∃ (r : Req) (s : State), s.mayWrite r Reg.FS_CAUSE ∧ s.actsSup r = true) ∧
    (∃ (r : Req) (s : State), s.mayWrite r Reg.FS_CAUSE ∧ s.actsSup r = false) :=
  ⟨⟨.sup, (faulting 0), by decide +kernel⟩,
   ⟨.portA, {faulting 0 with boot := fieldLc.boot}, by decide +kernel⟩⟩

theorem wit_SafetyIsland_2_2_2_2_1 : ∃ (r : Req) (w : Nat) (s : State), w < 16 ∧ s.mayWrite r (Reg.FS_PIER w) ∧ s.actsSup r = true :=
  ⟨.sup, 1, (faulting 0), by decide +kernel⟩

theorem wit_SafetyIsland_2_2_2_2_2 :
    (∃ (s : State), s.fs.faultLow = true ∧ s.rd Reg.FS_CAUSE = 0 ∧ s.deck.dev ≠ DevState.safeHalt ∧ s.fs.assertedAt + 800000000 ≤ s.isl) ∧
    (∃ (s : State), s.fs.faultLow = true ∧ s.rd Reg.FS_CAUSE = 0 ∧ s.deck.dev ≠ DevState.safeHalt ∧ s.isl < s.fs.assertedAt + 800000000) :=
  ⟨⟨(put (watched 100) [(Reg.FS_CAUSE.BOOT, 0), (Reg.FS_CAUSE.NOT_READY, 0)]), by decide +kernel⟩,
   ⟨(put (watched 99) [(Reg.FS_CAUSE.BOOT, 0), (Reg.FS_CAUSE.NOT_READY, 0)]), by decide +kernel⟩⟩

theorem wit_IdleStep :
    (∃ (s : State), s.pending = [] ∧ s.deck.phase ≠ Phase.blank ∧ (s.deck.dev = DevState.safeHalt ∨ s.clk.state = AdpllState.off)) ∧
    (∃ (s : State), s.pending = [] ∧ s.deck.phase ≠ Phase.blank ∧ s.deck.dev ≠ DevState.safeHalt ∧ s.clk.state ≠ AdpllState.off ∧ s.nt.half < 2000000000 ∧ s.nt.sec + 1 < 2 ^ 48) :=
  ⟨⟨(watched 9), by decide +kernel⟩,
   ⟨{locked true with nt := {resetNt with half := 1999999999, sec := 5}}, by decide +kernel⟩⟩

/-! The package (18 R434, R435): the four piers of R434's example, and R435's count of the balls of three nets. -/

/-- How many of the 5,184 balls carry a net. -/
def balls (n : Net) : Nat := ((List.range' 1 72).map fun r => (List.range' 1 72).countP fun c => ballNet r c == n).sum

theorem test_pier_balls :
    ([70, 160, 300, 511].map fun p => ((rowName (tpBall p false).1, (tpBall p false).2), (rowName (tpBall p true).1, (tpBall p true).2)))
      = [(("E", 19), ("E", 20)), (("A", 70), ("B", 70)), (("CN", 36), ("CN", 35)), (("AH", 8), ("AG", 8))] ∧
    ∀ p ∈ [70, 160, 300, 511], ballNet (tpBall p false).1 (tpBall p false).2 = .tp p false := by decide +kernel

theorem test_ball_counts : balls .vss = 2455 ∧ balls (.supply .core) = 1080 ∧ balls (.supply .io) = 41 := by decide +kernel

end Sys2Proof.Tests
end

section
/-! The row code of Nectar (06 R131 to R139): the decoder reads back what the encoder writes. From the bits up: numbers and bytes
as bits, one Golomb-Rice code, the error mapping, the range of a prediction, one pixel, one run, one row. -/

namespace Sys2Proof.Machine

/-! Numbers as bits, least significant first. -/

@[simp] theorem length_lowBits (k m : Nat) : (lowBits k m).length = k := by
  induction k generalizing m with
  | zero => rfl
  | succ k ih => simp [lowBits, ih]

theorem bitsNat_lowBits (k m : Nat) : bitsNat (lowBits k m) = m % 2 ^ k := by
  induction k generalizing m with
  | zero => simp [lowBits, bitsNat, Nat.mod_one]
  | succ k ih =>
    have hbit : (if (m % 2 == 1) = true then 1 else 0) = m % 2 := by
      rcases Nat.mod_two_eq_zero_or_one m with h | h <;> simp [h]
    rw [lowBits, bitsNat, ih, hbit, Nat.pow_succ', Nat.mod_mul]

theorem lowBits_zero (k : Nat) : lowBits k 0 = List.replicate k false := by
  induction k with
  | zero => rfl
  | succ k ih => simp [lowBits, ih, List.replicate_succ]

theorem bitsNat_lt (bs : List Bool) : bitsNat bs < 2 ^ bs.length := by
  induction bs with
  | nil => simp [bitsNat]
  | cons b bs ih =>
    rw [bitsNat, List.length_cons, Nat.pow_succ']
    split <;> omega

/-- Bits that a longer field holds come back with 0 bits above them. -/
theorem lowBits_bitsNat (bs : List Bool) (j : Nat) :
    lowBits (bs.length + j) (bitsNat bs) = bs ++ List.replicate j false := by
  induction bs with
  | nil => simp [bitsNat, lowBits_zero]
  | cons b bs ih =>
    have hdiv : bitsNat (b :: bs) / 2 = bitsNat bs := by rw [bitsNat]; split <;> omega
    have hmod : (bitsNat (b :: bs) % 2 == 1) = b := by cases b <;> simp [bitsNat]
    rw [List.length_cons, Nat.add_right_comm, lowBits, hdiv, hmod, ih, List.cons_append]

/-! Bits as bytes (R138). -/

/-- A byte of a row: the next eight bits, with 0 bits where the row has ended. -/
theorem lowBits_byte_take (bs : List Bool) :
    lowBits 8 (byte (bitsNat (bs.take 8))).toNat = bs.take 8 ++ List.replicate (8 - bs.length) false := by
  have hlen : (bs.take 8).length ≤ 8 := List.length_take_le 8 bs
  have hlt : bitsNat (bs.take 8) < 2 ^ 8 :=
    Nat.lt_of_lt_of_le (bitsNat_lt _) (Nat.pow_le_pow_right (by decide) hlen)
  have hfield : (bs.take 8).length + (8 - bs.length) = 8 := by rw [List.length_take]; omega
  rw [BitVec.toNat_ofNat, Nat.mod_eq_of_lt hlt, ← lowBits_bitsNat, hfield]

theorem bytesToBits_append (xs ys : List Byte) : bytesToBits (xs ++ ys) = bytesToBits xs ++ bytesToBits ys :=
  List.flatMap_append

theorem length_bytesToBits (bs : List Byte) : (bytesToBits bs).length = bs.length * 8 := by
  simp only [bytesToBits, List.length_flatMap, length_lowBits, List.map_const', List.sum_replicate_nat]

theorem bitsToBytes_nil (n : Nat) : bitsToBytes n [] = [] := by
  cases n <;> rfl

theorem bytesToBits_bitsToBytes_succ {bs : List Bool} (h : bs ≠ []) (n : Nat) :
    bytesToBits (bitsToBytes (n + 1) bs)
      = bs.take 8 ++ List.replicate (8 - bs.length) false ++ bytesToBits (bitsToBytes n (bs.drop 8)) := by
  have hemp : bs.isEmpty = false := by simpa using h
  rw [← lowBits_byte_take]
  simp [bitsToBytes, hemp, bytesToBits]

/-- Bits packed into bytes come back followed by less than a byte of padding. -/
theorem bytesToBits_bitsToBytes (n : Nat) (bs : List Bool) (h : bs.length < n) :
    ∃ pad < 8, bytesToBits (bitsToBytes n bs) = bs ++ List.replicate pad false := by
  induction n generalizing bs with
  | zero => omega
  | succ n ih =>
    by_cases hne : bs = []
    · subst hne
      exact ⟨0, by decide, by rw [bitsToBytes_nil]; rfl⟩
    · have hpos : 0 < bs.length := List.length_pos_iff.mpr hne
      rw [bytesToBits_bitsToBytes_succ hne]
      rcases Nat.lt_or_ge bs.length 8 with hshort | hlong
      · refine ⟨8 - bs.length, by omega, ?_⟩
        rw [List.drop_eq_nil_of_le (Nat.le_of_lt hshort), bitsToBytes_nil, List.take_of_length_le (Nat.le_of_lt hshort)]
        exact List.append_nil _
      · obtain ⟨pad, hpad, hrest⟩ := ih (bs.drop 8) (by rw [List.length_drop]; omega)
        refine ⟨pad, hpad, ?_⟩
        rw [hrest, Nat.sub_eq_zero_of_le hlong, List.replicate_zero, List.append_nil, ← List.append_assoc,
          List.take_append_drop]

/-! One Golomb-Rice code (R136). -/

theorem zeros_terminated {q lim : Nat} (h : q < lim) (bs : List Bool) :
    zeros lim (List.replicate q false ++ true :: bs) = some (q, true :: bs) := by
  induction q generalizing lim with
  | zero => obtain ⟨lim, rfl⟩ := Nat.exists_eq_add_one.mpr h; rfl
  | succ q ih =>
    obtain ⟨lim, rfl⟩ := Nat.exists_eq_add_one.mpr (Nat.zero_lt_of_lt h)
    simp [List.replicate_succ, zeros, ih (Nat.lt_of_succ_lt_succ h)]

theorem zeros_limit (lim : Nat) (bs : List Bool) : zeros lim (List.replicate lim false ++ bs) = some (lim, bs) := by
  induction lim with
  | zero => rfl
  | succ lim ih => simp [List.replicate_succ, zeros, ih]

theorem takeBits_lowBits (k m : Nat) (bs : List Bool) : takeBits k (lowBits k m ++ bs) = some (m % 2 ^ k, bs) := by
  have htake : (lowBits k m ++ bs).take k = lowBits k m := List.take_left' (length_lowBits k m)
  have hdrop : (lowBits k m ++ bs).drop k = bs := List.drop_left' (length_lowBits k m)
  simp [takeBits, htake, hdrop, bitsNat_lowBits]

/-- A code of `m` reads back as `m` in the same state, whether it is terminated or an escape. -/
theorem grDecode_grEncode (st : GrState) {n m : Nat} (hm : m < 2 ^ n) (bs : List Bool) :
    grDecode st n (grEncode st n m ++ bs) = some (m, bs) := by
  rcases Nat.lt_or_ge (m / 2 ^ grK st n) (2 * n) with hq | hq
  · have hcode : grEncode st n m ++ bs
        = List.replicate (m / 2 ^ grK st n) false ++ true :: (lowBits (grK st n) m ++ bs) := by simp [grEncode, hq]
    simp [grDecode, hcode, zeros_terminated hq, Nat.ne_of_lt hq, takeBits_lowBits, Nat.div_add_mod']
  · have hcode : grEncode st n m ++ bs = List.replicate (2 * n) false ++ (lowBits n m ++ bs) := by
      simp [grEncode, Nat.not_lt.mpr hq]
    simp [grDecode, hcode, zeros_limit, takeBits_lowBits, Nat.mod_eq_of_lt hm]

/-! The error mapping (R135). -/

theorem two_mul_half_range {n : Nat} (hn : 0 < n) : 2 * 2 ^ (n - 1) = 2 ^ n := by
  rw [Nat.mul_comm, Nat.pow_pred_mul hn]

theorem mapErr_lt {n x p : Nat} (hn : 0 < n) : mapErr n x p < 2 ^ n := by
  have hN := two_mul_half_range hn
  have he : (x + 2 ^ n - p) % 2 ^ n < 2 ^ n := Nat.mod_lt _ (Nat.two_pow_pos n)
  simp only [mapErr]
  split <;> omega

/-- The signed error: the representative of x − p modulo 2^n in −2^(n − 1) … 2^(n − 1) − 1. -/
def signedErr (n x p : Nat) : Int :=
  if 2 ^ (n - 1) ≤ ((x : Int) - p) % 2 ^ n then ((x : Int) - p) % 2 ^ n - 2 ^ n else ((x : Int) - p) % 2 ^ n

theorem mapErr_eq_signedErr {n x p : Nat} (hn : 0 < n) (hp : p < 2 ^ n) :
    (mapErr n x p : Int) = if 0 ≤ signedErr n x p then 2 * signedErr n x p else -2 * signedErr n x p - 1 := by
  have hN := two_mul_half_range hn
  have hcast (k : Nat) : (2 : Int) ^ k = (2 ^ k : Nat) := by norm_cast
  have hmod : ((x : Int) - p) % (2 ^ n : Nat) = ((x + 2 ^ n - p) % 2 ^ n : Nat) := by
    have hshift : ((x + 2 ^ n - p : Nat) : Int) = (x : Int) - p + (2 ^ n : Nat) := by omega
    rw [Int.natCast_emod, hshift, Int.add_emod_right]
  have hlt : (x + 2 ^ n - p) % 2 ^ n < 2 ^ n := Nat.mod_lt _ (Nat.two_pow_pos n)
  simp only [mapErr, signedErr, hcast, hmod]
  generalize (x + 2 ^ n - p) % 2 ^ n = d at hlt ⊢
  generalize 2 ^ n = N at *
  generalize 2 ^ (n - 1) = H at *
  rcases Nat.lt_or_ge d H with hd | hd
  · have hsigned : ¬ (H : Int) ≤ d := by omega
    rw [if_neg hsigned, if_neg (Nat.not_le.mpr hd), if_pos (by omega)]
    omega
  · have hsigned : (H : Int) ≤ d := by omega
    rw [if_pos hsigned, if_pos hd, if_neg (by omega)]
    omega

/-- The signed error is congruent to x − p, so that p + e is x modulo 2^n. -/
theorem add_signedErr_emod {n x : Nat} (hx : x < 2 ^ n) (p : Nat) : ((p : Int) + signedErr n x p) % 2 ^ n = x := by
  have hcong : signedErr n x p % 2 ^ n = ((x : Int) - p) % 2 ^ n := by
    unfold signedErr; split <;> simp
  have hsum : (p : Int) + (x - p) = x := by omega
  rw [Int.add_emod, hcong, ← Int.add_emod, hsum]
  exact Int.emod_eq_of_lt (by omega) (by exact_mod_cast hx)

/-- The decoder's inversion: p plus the error modulo 2^n, from either sign of the error. -/
theorem unmapErr_mapErr {n x p : Nat} (hn : 0 < n) (hx : x < 2 ^ n) (hp : p < 2 ^ n) :
    unmapErr n (mapErr n x p) p = x := by
  have hN := two_mul_half_range hn
  have hlt : (x + 2 ^ n - p) % 2 ^ n < 2 ^ n := Nat.mod_lt _ (Nat.two_pow_pos n)
  have hsum : (p + (x + 2 ^ n - p) % 2 ^ n) % 2 ^ n = x := by
    rw [Nat.add_mod_mod, Nat.add_sub_cancel' (by omega), Nat.add_mod_right, Nat.mod_eq_of_lt hx]
  simp only [mapErr]
  generalize (x + 2 ^ n - p) % 2 ^ n = d at hlt hsum ⊢
  rcases Nat.lt_or_ge d (2 ^ (n - 1)) with hd | hd
  · have hval : p + 2 * d / 2 = p + d := by omega
    rw [if_neg (Nat.not_le.mpr hd), unmapErr, if_pos (by omega), hval, hsum]
  · have hval : p + 2 ^ n - (2 * (2 ^ n - d) - 1 + 1) / 2 = p + d := by omega
    rw [if_pos hd, unmapErr, if_neg (by omega), hval, hsum]

/-! Predictions lie in the range of their component (R132, R133). -/

theorem med_mem_range {a b c N : Int} (ha : 0 ≤ a ∧ a < N) (hb : 0 ≤ b ∧ b < N) : 0 ≤ med a b c ∧ med a b c < N := by
  unfold med
  split
  · omega
  · split <;> omega

theorem toNat_med_lt {a b c N : Nat} (ha : a < N) (hb : b < N) : (med a b c).toNat < N := by
  have h := med_mem_range (a := a) (b := b) (c := c) (N := N) (by omega) (by omega)
  omega

theorem neighbours_lt {n left up upLeft : Nat} {x0 y0 : Bool} (hn : 0 < n) (hl : left < 2 ^ n) (hu : up < 2 ^ n) :
    (neighbours n x0 y0 left up upLeft).1 < 2 ^ n ∧ (neighbours n x0 y0 left up upLeft).2.1 < 2 ^ n := by
  have hmid : 2 ^ (n - 1) < 2 ^ n := Nat.pow_lt_pow_right (by decide) (by omega)
  cases x0 <;> cases y0 <;> simp [neighbours, hl, hu, hmid]

theorem toNat_clampI_lt (v : Int) (n : Nat) : (clampI v 0 (2 ^ n - 1)).toNat < 2 ^ n := by
  have hpos : 0 < 2 ^ n := Nat.two_pow_pos n
  rw [show (2 : Int) ^ n = (2 ^ n : Nat) by norm_cast]
  unfold clampI
  split
  · exact hpos
  · split <;> omega

theorem predict_lt {c : RowCtx} {cur : PixRow} {x q n : Nat} (hn : 0 < n) (hcur : cur.at (x - 1) q < 2 ^ n)
    (hup : c.inter = false → c.up.at x q < 2 ^ n) : (predict c cur x q n).1 < 2 ^ n := by
  cases hi : c.inter with
  | true =>
    simp only [predict, hi, if_true]
    exact toNat_clampI_lt _ n
  | false =>
    obtain ⟨ha, hb⟩ := neighbours_lt (x0 := x == 0) (y0 := c.first) (upLeft := c.up.at (x - 1) q) hn hcur (hup hi)
    simp only [predict, hi, Bool.false_eq_true, if_false]
    exact toNat_med_lt ha hb

theorem comps_width_pos {fmt : Nat} {e : Nat × Nat} (he : e ∈ comps fmt) : 0 < e.2 := by
  have hw : ∀ n ∈ compWidths fmt, 0 < n := by unfold compWidths; split <;> decide
  obtain ⟨i, hi, rfl⟩ := List.mem_mapIdx.mp he
  exact hw _ (List.getElem_mem hi)

theorem PixRow.at_lt {fmt : Nat} {r : PixRow} (hr : PixRow.fits fmt r) {e : Nat × Nat} (he : e ∈ comps fmt) (x : Nat) :
    r.at x e.1 < 2 ^ e.2 := by
  rcases Nat.lt_or_ge x r.length with hx | hx
  · simpa [PixRow.at, hx] using (hr _ (List.getElem_mem hx)).2 e he
  · have hout : r.at x e.1 = 0 := by simp [PixRow.at, hx]
    rw [hout]
    exact Nat.two_pow_pos _

/-- The prediction of every component of the format fits it, when the row so far and, in INTRA, the row above do. -/
theorem predict_fits {c : RowCtx} {cur : PixRow} (hcur : PixRow.fits c.fmt cur)
    (hup : c.inter = false → PixRow.fits c.fmt c.up) (x : Nat) {e : Nat × Nat} (he : e ∈ comps c.fmt) :
    (predict c cur x e.1 e.2).1 < 2 ^ e.2 :=
  predict_lt (comps_width_pos he) (PixRow.at_lt hcur he _) fun hi => PixRow.at_lt (hup hi) he _

/-! One pixel (R131, R136, R137). -/

/-- A pixel is the list of its components in coding order. -/
theorem map_comps_getD {fmt : Nat} {px : List Nat} (h : px.length = (compWidths fmt).length) :
    (comps fmt).map (fun e => px.getD e.1 0) = px := by
  refine List.ext_getElem (by simp [comps, h]) fun i _ hi => ?_
  simp [comps, hi]

theorem decodePixel_encodePixel (c : RowCtx) (cur : PixRow) (x : Nat) (px : List Nat) (qs : List (Nat × Nat))
    (sts : List GrState) (bs : List Bool)
    (h : ∀ e ∈ qs, 0 < e.2 ∧ px.getD e.1 0 < 2 ^ e.2 ∧ (predict c cur x e.1 e.2).1 < 2 ^ e.2) :
    decodePixel c cur x qs sts ((encodePixel c cur x px qs sts).1 ++ bs)
      = some (qs.map (fun e => px.getD e.1 0), (encodePixel c cur x px qs sts).2.1, bs, (encodePixel c cur x px qs sts).2.2) := by
  induction qs generalizing sts with
  | nil => rfl
  | cons e qs ih =>
    obtain ⟨⟨hn, hx, hp⟩, hqs⟩ := List.forall_mem_cons.mp h
    simp only [encodePixel, decodePixel, List.append_assoc, grDecode_grEncode _ (mapErr_lt hn), ih _ hqs,
      unmapErr_mapErr hn hx hp, List.map_cons]

/-- A pixel that fits the format decodes to itself. -/
theorem decodePixel_comps {c : RowCtx} {cur : PixRow} {px : List Nat} (hcur : PixRow.fits c.fmt cur)
    (hup : c.inter = false → PixRow.fits c.fmt c.up) (hpx : PixRow.fits c.fmt [px]) (x : Nat) (sts : List GrState) (bs : List Bool) :
    decodePixel c cur x (comps c.fmt) sts ((encodePixel c cur x px (comps c.fmt) sts).1 ++ bs)
      = some (px, (encodePixel c cur x px (comps c.fmt) sts).2.1, bs, (encodePixel c cur x px (comps c.fmt) sts).2.2) := by
  obtain ⟨hlen, hval⟩ := hpx px (List.mem_singleton_self px)
  rw [decodePixel_encodePixel, map_comps_getD hlen]
  exact fun e he => ⟨comps_width_pos he, hval e he, predict_fits hcur hup x he⟩

/-! A run (R139). -/

theorem runLength_le (c : RowCtx) (cur todo : PixRow) : runLength c cur todo ≤ todo.length := by
  induction todo generalizing cur with
  | nil => simp [runLength]
  | cons px rest ih =>
    rw [runLength]
    split
    · simpa using ih (cur ++ [px])
    · exact Nat.zero_le _

/-- The predictions of a run restore the pixels that the encoder counted into it. -/
theorem predictRun_runLength {c : RowCtx} {todo : PixRow} (htodo : PixRow.fits c.fmt todo) (cur : PixRow) :
    predictRun c (runLength c cur todo) cur = cur ++ todo.take (runLength c cur todo) := by
  induction todo generalizing cur with
  | nil => simp [runLength, predictRun]
  | cons px rest ih =>
    obtain ⟨⟨hlen, _⟩, hrest⟩ := List.forall_mem_cons.mp htodo
    rw [runLength]
    split
    · next hall =>
      have hpx : (comps c.fmt).map (fun e => (predict c cur cur.length e.1 e.2).1) = px := by
        refine (List.map_congr_left fun e he => ?_).trans (map_comps_getD hlen)
        exact (beq_iff_eq.mp (List.all_eq_true.mp hall e he)).symm
      rw [predictRun, hpx, ih hrest, List.take_succ_cons, List.append_assoc, List.singleton_append]
    · simp [predictRun]

/-! One row (R138, R139). A pixel is coded in run mode when `runTest` holds; what follows a run is coded as if it did not. -/

/-- The run test of a pixel with `cur` before it: run mode enabled, the previous pixel coded with m = 0, and not at x = 0. -/
def runTest (run zero : Bool) (cur : PixRow) : Bool := run && zero && decide (0 < cur.length)

theorem length_pos_of_runTest {run zero : Bool} {cur : PixRow} (h : runTest run zero cur = true) : 0 < cur.length :=
  of_decide_eq_true (Bool.and_eq_true_iff.mp h).2

/-- The states after a run of `r` pixels. -/
def afterRun (c : RowCtx) (sts : List GrState) (r : Nat) : List GrState :=
  sts.set (runIdx c.inter) (grNext (sts.getD (runIdx c.inter) (0, 0)) r)

theorem encodePixels_nil (c : RowCtx) (run : Bool) (fuel : Nat) (cur : PixRow) (zero : Bool) (sts : List GrState) :
    encodePixels c run fuel cur [] zero sts = ([], sts) := by
  cases fuel <;> simp [encodePixels]

theorem encodePixels_cons {c : RowCtx} {run zero : Bool} {cur : PixRow} (hrun : runTest run zero cur = false) (fuel : Nat)
    (px : List Nat) (rest : PixRow) (sts : List GrState) :
    encodePixels c run (fuel + 1) cur (px :: rest) zero sts =
      let e := encodePixel c cur cur.length px (comps c.fmt) sts
      let t := encodePixels c run fuel (cur ++ [px]) rest e.2.2 e.2.1
      (e.1 ++ t.1, t.2) := by
  unfold runTest at hrun
  simp [encodePixels, hrun]

theorem encodePixels_run {c : RowCtx} {run zero : Bool} {cur todo : PixRow} (hrun : runTest run zero cur = true) (htodo : todo ≠ [])
    (fuel : Nat) (sts : List GrState) :
    encodePixels c run (fuel + 1) cur todo zero sts =
      let r := runLength c cur todo
      let t := encodePixels c run (fuel + 1) (cur ++ todo.take r) (todo.drop r) false (afterRun c sts r)
      (grEncode (sts.getD (runIdx c.inter) (0, 0)) 12 r ++ t.1, t.2) := by
  have hemp : todo.isEmpty = false := by simpa using htodo
  unfold runTest at hrun
  cases hrest : todo.drop (runLength c cur todo) <;> simp [encodePixels, hrun, hemp, hrest, afterRun]

theorem decodePixels_done {c : RowCtx} {run : Bool} {w : Nat} {cur : PixRow} (hw : w ≤ cur.length) (fuel : Nat) (zero : Bool)
    (sts : List GrState) (bs : List Bool) : decodePixels c run w fuel cur zero sts bs = some (cur, sts, bs) := by
  cases fuel <;> simp [decodePixels, hw]

theorem decodePixels_pixel {c : RowCtx} {run zero z : Bool} {w : Nat} {cur : PixRow} {px : List Nat} {sts sts' : List GrState}
    {bs bs' : List Bool} (hrun : runTest run zero cur = false) (hw : cur.length < w)
    (hpx : decodePixel c cur cur.length (comps c.fmt) sts bs = some (px, sts', bs', z)) (fuel : Nat) :
    decodePixels c run w (fuel + 1) cur zero sts bs = decodePixels c run w fuel (cur ++ [px]) z sts' bs' := by
  unfold runTest at hrun
  simp [decodePixels, hrun, hpx, Nat.not_le.mpr hw]

theorem decodePixels_run {c : RowCtx} {run zero : Bool} {w r : Nat} {cur next : PixRow} {sts : List GrState} {bs bs' : List Bool}
    (hrun : runTest run zero cur = true) (hw : cur.length < w)
    (hr : grDecode (sts.getD (runIdx c.inter) (0, 0)) 12 bs = some (r, bs')) (hfit : cur.length + r ≤ w)
    (hnext : predictRun c r cur = next) (fuel : Nat) :
    decodePixels c run w (fuel + 1) cur zero sts bs = decodePixels c run w (fuel + 1) next false (afterRun c sts r) bs' := by
  subst hnext
  unfold runTest at hrun
  by_cases hend : w ≤ (predictRun c r cur).length <;>
    simp only [decodePixels, hrun, hr, hend, Nat.not_le.mpr hw, Nat.not_lt.mpr hfit, afterRun, Bool.and_false, Bool.false_and,
      Bool.false_eq_true, if_true, if_false]

/-- Bits of the pixels still to code read back: with `cur` decoded, the decoder restores `todo` and the states. -/
def RowReads (c : RowCtx) (run : Bool) (fuel : Nat) (cur todo : PixRow) (zero : Bool) (sts : List GrState) : Prop :=
  ∀ bs, decodePixels c run (cur ++ todo).length fuel cur zero sts ((encodePixels c run fuel cur todo zero sts).1 ++ bs)
    = some (cur ++ todo, (encodePixels c run fuel cur todo zero sts).2, bs)

theorem rowReads_nil (c : RowCtx) (run : Bool) (fuel : Nat) (cur : PixRow) (zero : Bool) (sts : List GrState) :
    RowReads c run fuel cur [] zero sts := fun bs => by
  simp [encodePixels_nil, decodePixels_done]

theorem rowReads_cons {c : RowCtx} {run zero : Bool} {cur rest : PixRow} {px : List Nat} (hrun : runTest run zero cur = false)
    (hcur : PixRow.fits c.fmt cur) (hup : c.inter = false → PixRow.fits c.fmt c.up) (hpx : PixRow.fits c.fmt [px]) (fuel : Nat)
    (sts : List GrState) (hrest : ∀ z sts, RowReads c run fuel (cur ++ [px]) rest z sts) :
    RowReads c run (fuel + 1) cur (px :: rest) zero sts := fun bs => by
  have hw : cur.length < (cur ++ px :: rest).length := by simp
  rw [encodePixels_cons hrun, List.append_assoc, decodePixels_pixel hrun hw (decodePixel_comps hcur hup hpx _ _ _)]
  simpa only [List.append_assoc, List.singleton_append] using hrest _ _ bs

/-- A run stays below 2^12, which is all that its escape can spell, because it begins after the first of at most 4,096 pixels. -/
theorem rowReads_run {c : RowCtx} {run zero : Bool} {cur todo : PixRow} (hrun : runTest run zero cur = true) (hne : todo ≠ [])
    (htodo : PixRow.fits c.fmt todo) (hlen : (cur ++ todo).length ≤ 4096) (fuel : Nat) (sts : List GrState)
    (hrest : ∀ r sts, RowReads c run (fuel + 1) (cur ++ todo.take r) (todo.drop r) false sts) :
    RowReads c run (fuel + 1) cur todo zero sts := fun bs => by
  have hpos : 0 < todo.length := List.length_pos_iff.mpr hne
  have hle := runLength_le c cur todo
  have hx := length_pos_of_runTest hrun
  rw [List.length_append] at hlen
  have hr : runLength c cur todo < 2 ^ 12 := by omega
  rw [encodePixels_run hrun hne, List.append_assoc,
    decodePixels_run hrun (by rw [List.length_append]; omega) (grDecode_grEncode _ hr _) (by rw [List.length_append]; omega)
      (predictRun_runLength htodo cur)]
  simpa only [List.append_assoc, List.take_append_drop] using hrest _ _ bs

/-- With fuel for every pixel still to code, the decoder reads back the row. -/
theorem rowReads {c : RowCtx} {run : Bool} (hup : c.inter = false → PixRow.fits c.fmt c.up) (fuel : Nat) (cur todo : PixRow)
    (zero : Bool) (sts : List GrState) (hcur : PixRow.fits c.fmt cur) (htodo : PixRow.fits c.fmt todo)
    (hlen : (cur ++ todo).length ≤ 4096) (hfuel : todo.length ≤ fuel) : RowReads c run fuel cur todo zero sts := by
  induction fuel generalizing cur todo zero sts with
  | zero =>
    obtain rfl := List.eq_nil_of_length_eq_zero (Nat.le_zero.mp hfuel)
    exact rowReads_nil _ _ _ _ _ _
  | succ fuel ih =>
    have hnormal : ∀ cur todo zero sts, runTest run zero cur = false → PixRow.fits c.fmt cur → PixRow.fits c.fmt todo →
        (cur ++ todo).length ≤ 4096 → todo.length ≤ fuel + 1 → RowReads c run (fuel + 1) cur todo zero sts := by
      intro cur todo zero sts hrun hcur htodo hlen hfuel
      cases todo with
      | nil => exact rowReads_nil _ _ _ _ _ _
      | cons px rest =>
        obtain ⟨hpx, hrest⟩ := List.forall_mem_cons.mp htodo
        have hpx : PixRow.fits c.fmt [px] := List.forall_mem_singleton.mpr hpx
        exact rowReads_cons hrun hcur hup hpx fuel sts fun z sts =>
          ih _ _ z sts (List.forall_mem_append.mpr ⟨hcur, hpx⟩) hrest (by simpa using hlen) (by simpa using hfuel)
    cases hrun : runTest run zero cur with
    | false => exact hnormal cur todo zero sts hrun hcur htodo hlen hfuel
    | true =>
      by_cases hne : todo = []
      · subst hne
        exact rowReads_nil _ _ _ _ _ _
      · refine rowReads_run hrun hne htodo hlen fuel sts fun r sts => ?_
        refine hnormal _ _ _ _ (by simp [runTest]) ?_ ?_ ?_ ?_
        · exact List.forall_mem_append.mpr ⟨hcur, fun px h => htodo px (List.mem_of_mem_take h)⟩
        · exact fun px h => htodo px (List.mem_of_mem_drop h)
        · rwa [List.append_assoc, List.take_append_drop]
        · rw [List.length_drop]; omega

/-- Dropping to the byte boundary removes the padding that the encoder appended (R138). -/
theorem drop_padding {pad : Nat} (hpad : pad < 8) (rest : List Byte) :
    (List.replicate pad false ++ bytesToBits rest).drop ((List.replicate pad false ++ bytesToBits rest).length % 8)
      = bytesToBits rest := by
  have hmod : (List.replicate pad false ++ bytesToBits rest).length % 8 = pad := by
    rw [List.length_append, List.length_replicate, length_bytesToBits]; omega
  rw [hmod]
  exact List.drop_left' (List.length_replicate ..)

theorem decodeRow_encodeRow (c : RowCtx) (run : Bool) (sts : List GrState) (row : PixRow) (rest : List Byte)
    (hrow : PixRow.fits c.fmt row) (hup : c.inter = false → PixRow.fits c.fmt c.up) (hlen : row.length ≤ 4096) :
    decodeRow c run row.length sts (bytesToBits ((encodeRow c run sts row).1 ++ rest))
      = some (row, (encodeRow c run sts row).2, bytesToBits rest) := by
  have hread := rowReads (run := run) hup (row.length + 1) [] row false sts (by simp [PixRow.fits]) hrow hlen (Nat.le_succ _)
  obtain ⟨pad, hpad, hbits⟩ := bytesToBits_bitsToBytes _ (encodePixels c run (row.length + 1) [] row false sts).1 (Nat.lt_succ_self _)
  have hpix := hread (List.replicate pad false ++ bytesToBits rest)
  rw [List.nil_append] at hpix
  simp only [encodeRow, decodeRow, bytesToBits_append, hbits, List.append_assoc, hpix, Option.map_some, drop_padding hpad]

/-- Settles O13: the row by induction on the pixels still to code, a run in front of each that continues one; the mapping by the
two signs of the error. -/
theorem rowRoundTrip : Obligations.RowRoundTrip := by
  refine ⟨decodeRow_encodeRow, fun n x p e hn hx hp he => ?_⟩
  obtain rfl : e = signedErr n x p := he
  have hinv := unmapErr_mapErr hn hx hp
  exact ⟨mapErr_eq_signedErr hn hp, mapErr_lt hn, by rw [hinv, add_signedErr_emod hx], hinv⟩

end Sys2Proof.Machine
end

section
/-! The values of FILL, COPY and CONVERT (13 R323): the fields of a pixel word, what each kind writes, the refusal of a pair without
a conversion, and the rounding of the two divisions. -/

namespace Sys2Proof.Machine

/-! A pixel word of three colour components of `n` bits and an alpha above them (R63). -/

theorem bits_add_mul_low {n c : Nat} (hc : c < 2 ^ n) (w : Nat) : bits (c + 2 ^ n * w) 0 n = c := by
  rw [bits, Nat.pow_zero, Nat.div_one, Nat.add_mul_mod_self_left, Nat.mod_eq_of_lt hc]

theorem bits_add_mul_high {n c : Nat} (hc : c < 2 ^ n) (w lo len : Nat) : bits (c + 2 ^ n * w) (n + lo) len = bits w lo len := by
  rw [bits, bits, Nat.pow_add, ← Nat.div_div_eq_div_mul, Nat.add_mul_div_left _ _ (Nat.two_pow_pos n), Nat.div_eq_of_lt hc,
    Nat.zero_add]

theorem bits_pixelFields {n m c0 c1 c2 a w : Nat} (h0 : c0 < 2 ^ n) (h1 : c1 < 2 ^ n) (h2 : c2 < 2 ^ n) (ha : a < 2 ^ m)
    (hw : w = c0 + 2 ^ n * (c1 + 2 ^ n * (c2 + 2 ^ n * a))) :
    bits w 0 n = c0 ∧ bits w n n = c1 ∧ bits w (n + n) n = c2 ∧ bits w (n + (n + n)) m = a := by
  subst hw
  have halpha : bits a 0 m = a := by rw [bits, Nat.pow_zero, Nat.div_one, Nat.mod_eq_of_lt ha]
  refine ⟨bits_add_mul_low h0 _, ?_, ?_, ?_⟩
  · exact (bits_add_mul_high h0 _ 0 n).trans (bits_add_mul_low h1 _)
  · rw [bits_add_mul_high h0]
    exact (bits_add_mul_high h1 _ 0 n).trans (bits_add_mul_low h2 _)
  · rw [bits_add_mul_high h0, bits_add_mul_high h1]
    exact (bits_add_mul_high h2 _ 0 m).trans halpha

theorem convertPix_C8A8 {c0 c1 c2 a : Nat} (h0 : c0 < 2 ^ 8) (h1 : c1 < 2 ^ 8) (h2 : c2 < 2 ^ 8) (ha : a < 2 ^ 8) :
    convertPix 1 (c0 + c1 * 2 ^ 8 + c2 * 2 ^ 16 + a * 2 ^ 24)
      = code8 c0 + code8 c1 * 2 ^ 12 + code8 c2 * 2 ^ 24 + alpha4 a * 2 ^ 36 := by
  obtain ⟨e0, e1, e2, ea⟩ := bits_pixelFields h0 h1 h2 ha (w := c0 + c1 * 2 ^ 8 + c2 * 2 ^ 16 + a * 2 ^ 24) (by omega)
  simp only [convertPix, e0, e1, e2, ea]

theorem convertPix_C12A4 {c0 c1 c2 a : Nat} (h0 : c0 < 2 ^ 12) (h1 : c1 < 2 ^ 12) (h2 : c2 < 2 ^ 12) (ha : a < 2 ^ 4) :
    convertPix 0 (c0 + c1 * 2 ^ 12 + c2 * 2 ^ 24 + a * 2 ^ 36)
      = comp12to8 c0 + comp12to8 c1 * 2 ^ 8 + comp12to8 c2 * 2 ^ 16 + a * 17 * 2 ^ 24 := by
  obtain ⟨e0, e1, e2, ea⟩ := bits_pixelFields h0 h1 h2 ha (w := c0 + c1 * 2 ^ 12 + c2 * 2 ^ 24 + a * 2 ^ 36) (by omega)
  simp only [convertPix, e0, e1, e2, ea]

/-- The LUT index of R77: the four high bits of the component fill the four low bits of the code. -/
theorem code8_eq_shift_or {c : Nat} (hc : c < 256) : code8 c = (c <<< 4) ||| (c >>> 4) := by
  have hlow : c >>> 4 < 2 ^ 4 := by rw [Nat.shiftRight_eq_div_pow]; omega
  rw [← Nat.shiftLeft_add_eq_or_of_lt hlow, Nat.shiftLeft_eq, Nat.shiftRight_eq_div_pow]
  rfl

/-- With an odd divisor `2 * h + 1`, adding `h` before the division rounds to the nearest integer and meets no tie. -/
theorem odd_div_nearest (h x : Nat) :
    2 * (((2 * h + 1) * ((x + h) / (2 * h + 1)) : Nat) - (x : Int)).natAbs < 2 * h + 1 := by
  have hdiv := Nat.div_add_mod (x + h) (2 * h + 1)
  have hmod : (x + h) % (2 * h + 1) < 2 * h + 1 := Nat.mod_lt _ (by omega)
  omega

/-! What each kind writes. -/

theorem State.bltValue_fill (s : State) {c : BltRun} (x y : Nat) (hk : c.kind = 1) : s.bltValue c x y = some (c.fld 0x30 5) := by
  simp only [State.bltValue, hk]

theorem State.bltValue_copy (s : State) {c : BltRun} (x y : Nat) (hk : c.kind = 2) :
    s.bltValue c x y = some (s.pixelWord (c.src + (c.sy + y) * c.fld 0x28 4) c.srcFmt (c.sx + x)) := by
  simp only [State.bltValue, hk]

theorem State.bltValue_convert (s : State) {c : BltRun} (x y : Nat) (hk : c.kind = 3) :
    s.bltValue c x y = some (convertPix c.srcFmt (s.pixelWord (c.src + (c.sy + y) * c.fld 0x28 4) c.srcFmt (c.sx + x))) := by
  simp only [State.bltValue, hk]

/-! The refusal of a pair without a conversion (R331). -/

theorem BltRun.formatBad_of_unpaired {c : BltRun} (hk : c.kind = 3) (hpair : (c.srcFmt, c.dstFmt) ∉ [(1, 0), (0, 1), (3, 2)]) :
    c.formatBad = true := by
  simp only [List.mem_cons, List.not_mem_nil, Prod.mk.injEq, or_false] at hpair
  simp only [BltRun.formatBad, hk, Bool.or_eq_true]
  right
  rw [Bool.not_eq_true', Bool.eq_false_iff]
  simp only [ne_eq, Bool.or_eq_true, Bool.and_eq_true, beq_iff_eq, or_assoc]
  exact hpair

theorem State.bltCheck_of_formatBad (s : State) {c : BltRun} (hknown : ¬(c.kind = 0 ∨ 5 < c.kind)) (hbad : c.formatBad = true) :
    s.bltCheck c = 2 := by
  rw [State.bltCheck, if_neg hknown, if_pos hbad]

/-- Settles O45: a case per kind, the fields of the two pixel words, and one fact on division by an odd number for both
roundings. -/
theorem blitterConversions : Obligations.BlitterConversions := by
  unfold Obligations.BlitterConversions
  exact ⟨fun s _ x y => s.bltValue_fill x y, fun s _ x y => s.bltValue_copy x y, fun s _ x y => s.bltValue_convert x y,
    fun s _ hk hpair => s.bltCheck_of_formatBad (by omega) (BltRun.formatBad_of_unpaired hk hpair),
    fun _ _ _ _ => convertPix_C8A8, fun _ _ _ _ => convertPix_C12A4, fun _ => rfl, fun _ => code8_eq_shift_or,
    fun a _ => odd_div_nearest 8 a, fun c _ => odd_div_nearest 2047 (c * 255)⟩

end Sys2Proof.Machine
end


section
/-! A sample of the diode (14 R335 to R344): what each part of the thermal monitor does to the state, and what the whole sample does. Each
part is the change of a few fields of the monitor, up to register words of its own and the event it may post. -/

namespace Sys2Proof.Machine

/-! What a part of the monitor leaves alone. -/

/-- `t` differs from `s` at most in the words `as`, in what posting an event may change, and in parts of the state that the sample's rules
do not speak of. -/
structure ThmFrame (as : List Nat) (s t : State) : Prop where
  regs : RegsBut (as ++ evtWords) s t
  mem : MemSame s t
  thm : t.thm = s.thm
  trip : t.fs.thermTrip = s.fs.thermTrip
  dev : t.deck.dev = s.deck.dev
  key : t.key = s.key
  sup : t.sup = s.sup
  nt : t.nt = s.nt

theorem ThmFrame.refl (as : List Nat) (s : State) : ThmFrame as s s :=
  ⟨RegsBut.refl _ s, MemSame.refl s, rfl, rfl, rfl, rfl, rfl, rfl⟩

theorem ThmFrame.trans {as : List Nat} {s t u : State} (h1 : ThmFrame as s t) (h2 : ThmFrame as t u) : ThmFrame as s u :=
  ⟨h1.regs.trans h2.regs, h1.mem.trans h2.mem, h2.thm.trans h1.thm, h2.trip.trans h1.trip, h2.dev.trans h1.dev,
    h2.key.trans h1.key, h2.sup.trans h1.sup, h2.nt.trans h1.nt⟩

theorem ThmFrame.mono {as bs : List Nat} {s t : State} (h : ThmFrame as s t) (hsub : as ⊆ bs) : ThmFrame bs s t := by
  have hwords : as ++ evtWords ⊆ bs ++ evtWords := fun _ hm => List.mem_append.2 ((List.mem_append.1 hm).imp_left (hsub ·))
  exact { h with regs := fun a ha => h.regs a (mt (hwords ·) ha) }

theorem ThmFrame.set {as : List Nat} (s : State) (f : Field) (v : Nat) (h : f.addr ∈ as) : ThmFrame as s (s.set f v) :=
  ⟨RegsBut.set s v (List.mem_append_left _ h), MemSame.of_eq (by simp) (by simp) (by simp), by simp, by simp, by simp, by simp,
    by simp, by simp⟩

theorem PostFrame.thmFrame {s t : State} (h : PostFrame s t) (as : List Nat) : ThmFrame as s t :=
  ⟨fun a ha => h.regs a fun hm => ha (List.mem_append_right _ hm),
    ⟨fun a => by rw [State.hbmByte, h.hbm]; rfl, fun a => by rw [State.tcmByte, h.tcm]; rfl, h.log⟩,
    h.thm, by rw [h.fs], by rw [h.deck], h.key, h.sup, h.nt⟩

theorem ThmFrame.post (as : List Nat) (s : State) (code sev : Nat) (pl : List Byte) : ThmFrame as s (s.post code sev pl) :=
  (PostFrame.post s code sev pl).thmFrame as

theorem ThmFrame.emit (as : List Nat) (s : State) (o : Out) : ThmFrame as s (s.emit o) :=
  ⟨RegsBut.refl _ s, MemSame.refl s, rfl, rfl, rfl, rfl, rfl, rfl⟩

/-- The same fields of the monitor set on both sides. -/
theorem ThmFrame.withThm {as : List Nat} {s t : State} (h : ThmFrame as s t) (x : Thm) :
    ThmFrame as { s with thm := x } { t with thm := x } :=
  ⟨h.regs, h.mem, rfl, h.trip, h.dev, h.key, h.sup, h.nt⟩

theorem ThmFrame.ite {as : List Nat} {s t u : State} {c : Prop} [Decidable c] (ht : c → ThmFrame as s t)
    (hu : ¬ c → ThmFrame as s u) : ThmFrame as s (if c then t else u) := by
  split
  · exact ht ‹_›
  · exact hu ‹_›

theorem ThmFrame.foldl {as : List Nat} {β : Type} {f : State → β → State} {l : List β}
    (h : ∀ x ∈ l, ∀ s, ThmFrame as s (f s x)) (s : State) : ThmFrame as s (l.foldl f s) := by
  induction l generalizing s with
  | nil => exact ThmFrame.refl as s
  | cons x l ih =>
    exact (h x List.mem_cons_self s).trans (ih (fun y hy => h y (List.mem_cons_of_mem _ hy)) (f s x))

/-- A change of the Deck that keeps the state of the device. -/
theorem ThmFrame.deck (as : List Nat) (s : State) {d : Deck} (h : d.dev = s.deck.dev) : ThmFrame as s { s with deck := d } :=
  ⟨RegsBut.refl _ s, MemSame.refl s, rfl, rfl, h, rfl, rfl, rfl⟩

/-- A change of the safety island that keeps THERM_TRIP_N. -/
theorem ThmFrame.fs (as : List Nat) (s : State) {x : Fs} (h : x.thermTrip = s.fs.thermTrip) : ThmFrame as s { s with fs := x } :=
  ⟨RegsBut.refl _ s, MemSame.refl s, rfl, h, rfl, rfl, rfl, rfl⟩

theorem ThmFrame.get {as : List Nat} {s t : State} (h : ThmFrame as s t) {f : Field} (hf : f.addr ∉ as ++ evtWords) :
    t.get f = s.get f := by
  rw [State.get, State.get, h.regs _ hf]

/-! The sensor, the limits and the rate of rise (R336 to R339). -/

/-- A sensor failure is latched: the first code found stays (R337). -/
theorem State.thmSensor_frame (s : State) (a b : Int) (stuckA stuckB : Bool) :
    ThmFrame [Reg.THM_STATUS] { s with thm := { s.thm with
      sensor := if s.thm.sensor ≠ 0 then s.thm.sensor else sensorCode a b stuckA stuckB } }
      (s.thmSensor a b stuckA stuckB) := by
  delta State.thmSensor
  extract_lets x c
  by_cases hs : s.thm.sensor ≠ 0
  · rw [if_pos hs, if_pos (Or.inl hs)]
    exact ThmFrame.refl _ s
  · rw [if_neg hs]
    by_cases hc : c = 0
    · rw [if_pos (Or.inr hc), show sensorCode a b stuckA stuckB = s.thm.sensor from hc.trans (Decidable.not_not.1 hs).symm]
      exact ThmFrame.refl _ s
    · rw [if_neg (not_or.2 ⟨hs, hc⟩)]
      exact (ThmFrame.set _ _ _ (by decide)).trans (ThmFrame.post ..)

/-- The three limits are judged by the Tj of the sample (R338). -/
theorem State.thmLimits_frame (s : State) :
    ThmFrame [Reg.THM_STATUS] { s with thm := { s.thm with
      warn := s.limitState Reg.THM_LIMITS.WARN s.thm.warn
      throttle := s.limitState Reg.THM_LIMITS.THROTTLE s.thm.throttle
      critical := s.limitState Reg.THM_LIMITS.CRITICAL s.thm.critical } } s.thmLimits := by
  delta State.thmLimits
  extract_lets x w t c tj s1 s2 s3 y
  have h1 : ThmFrame [Reg.THM_STATUS] s s1 := ThmFrame.ite (fun _ => ThmFrame.refl _ s) fun _ => ThmFrame.post ..
  have h2 : ThmFrame [Reg.THM_STATUS] s1 s2 := ThmFrame.ite (fun _ => ThmFrame.refl _ s1) fun _ => ThmFrame.post ..
  have h3 : ThmFrame [Reg.THM_STATUS] s s3 :=
    ((h1.trans h2).trans (ThmFrame.set s2 _ _ (by decide))).trans (ThmFrame.set _ _ _ (by decide))
  rw [show y = x from h3.thm]
  exact (h3.withThm _).trans (ThmFrame.set _ _ _ (by decide))

/-- The check of the rate of rise keeps its own samples and counts (R339). -/
theorem State.thmRise_frame (s : State) : ∃ hist riseRun fastN, ThmFrame [Reg.THM_STATUS]
    { s with thm := { s.thm with hist := hist, riseRun := riseRun, fastN := fastN } } s.thmRise := by
  delta State.thmRise
  extract_lets x fast s1 h y s2 lim n z s3 s4
  split
  · exact ⟨_, _, _, ThmFrame.refl _ s1⟩
  split
  · exact ⟨_, _, _, ThmFrame.refl _ s2⟩
  split
  · split
    · exact ⟨_, _, _, ThmFrame.refl _ s3⟩
    have h4 : ThmFrame [Reg.THM_STATUS] s3 s4 := ThmFrame.set _ _ _ (by decide)
    split
    · exact ⟨_, _, _, h4⟩
    · exact ⟨_, _, _, h4.trans ((PostFrame.postOncePer ..).thmFrame _)⟩
  · exact ⟨_, _, _, ThmFrame.set _ _ _ (by decide)⟩

/-- Fast sampling keeps its own times (R336). -/
theorem State.thmFast_frame (s : State) : ∃ calmAt fastN, ThmFrame [Reg.THM_STATUS]
    { s with thm := { s.thm with calmAt := calmAt, fastN := fastN } } s.thmFast := by
  rw [State.thmFast]
  split
  · exact ⟨_, _, ThmFrame.set _ _ _ (by decide)⟩
  split
  · exact ⟨_, _, ThmFrame.set s _ _ (by decide)⟩
  · exact ⟨_, _, ThmFrame.refl _ s⟩

/-! The level, the trip and the level in effect (R340, R342, R343). -/

/-- The cause of THERM_TRIP_N (R342). -/
def Thm.tripping (m : Thm) : Bool := decide (m.sensor ≠ 0) || m.critical

theorem Thm.tripping_iff (m : Thm) : m.tripping = true ↔ m.sensor ≠ 0 ∨ m.critical = true := by simp [Thm.tripping]

theorem Thm.tripping_eq_false (m : Thm) (h1 : m.sensor = 0) (h2 : m.critical = false) : m.tripping = false := by
  simp [Thm.tripping, h1, h2]

/-- How the thermal level moves from `old` to `new` (R340): 7 at once under a cause of the trip, and otherwise by at most one step, which
under THROTTLE is upwards when no step up has been taken before. -/
structure LevelMoves (old new : Thm) : Prop where
  top : new.tripping = true → new.lt = 7
  step : new.tripping = false → new.lt = old.lt ∨ (new.lt = old.lt + 1 ∧ old.lt < 7) ∨ new.lt + 1 = old.lt
  up : new.tripping = false → new.throttle = true → old.upAt = none → old.lt < 7 → new.lt = old.lt + 1

theorem LevelMoves.le_seven {old new : Thm} (h : LevelMoves old new) (hold : old.lt ≤ 7) : new.lt ≤ 7 := by
  cases ht : new.tripping with
  | true => exact Nat.le_of_eq (h.top ht)
  | false => have := h.step ht; omega

theorem State.thmLevel_eq (s : State) : ∃ lt ltAt upAt,
    s.thmLevel = { s with thm := { s.thm with lt := lt, ltAt := ltAt, upAt := upAt } } ∧
    LevelMoves s.thm { s.thm with lt := lt, ltAt := ltAt, upAt := upAt } := by
  delta State.thmLevel
  extract_lets rise t put mayRise
  by_cases h : s.thm.tripping = true
  · rw [if_pos (s.thm.tripping_iff.1 h)]
    exact ⟨_, _, _, rfl, fun _ => rfl, fun hn => absurd h (Bool.eq_false_iff.1 hn), fun hn => absurd h (Bool.eq_false_iff.1 hn)⟩
  rw [if_neg (mt s.thm.tripping_iff.2 h)]
  split
  next hup =>
    split
    next hlt => exact ⟨_, _, _, rfl, fun hn => absurd hn h, fun _ => .inr (.inl ⟨rfl, hlt.2⟩), fun _ _ _ _ => rfl⟩
    next hno =>
      refine ⟨_, _, _, rfl, fun hn => absurd hn h, fun _ => .inl rfl, fun _ _ hnone hlt => ?_⟩
      exact absurd ⟨by simp only [mayRise, t, hnone], hlt⟩ hno
  next hno =>
    have hthr : ¬ s.thm.throttle = true := fun hthr => hno (.inl hthr)
    split
    · exact ⟨s.thm.lt - 1, _, _, rfl, fun hn => absurd hn h, fun _ => by dsimp only; omega, fun _ ht => absurd ht hthr⟩
    · exact ⟨_, _, _, rfl, fun hn => absurd hn h, fun _ => .inl rfl, fun _ ht => absurd ht hthr⟩

theorem State.faultAssert_frame (s : State) : ThmFrame [Reg.FS_STATUS] s s.faultAssert := by
  rw [State.faultAssert]
  split
  · exact ThmFrame.refl _ s
  · refine ((ThmFrame.fs _ s ?_).trans (ThmFrame.set _ Reg.FS_STATUS.FAULT 1 (by decide))).trans (ThmFrame.emit ..)
    rfl

theorem State.faultSync_frame (s : State) : ThmFrame [Reg.FS_STATUS] s s.faultSync := by
  delta State.faultSync
  extract_lets clear s1
  have h1 : ThmFrame [Reg.FS_STATUS] s s1 := ThmFrame.set s _ _ (by decide)
  exact h1.trans (ThmFrame.ite (fun _ => ThmFrame.refl _ s1) fun _ => s1.faultAssert_frame)

theorem State.setCause_frame (s : State) {f : Field} (hf : f.addr = Reg.FS_CAUSE) (on : Bool) :
    ThmFrame [Reg.FS_CAUSE, Reg.FS_STATUS] s (s.setCause f on) := by
  rw [State.setCause]
  refine ThmFrame.ite (fun _ => ThmFrame.refl _ s) fun _ => ?_
  exact ((ThmFrame.set s f _ (by simp [hf])).trans (ThmFrame.post ..)).trans ((State.faultSync_frame _).mono (by decide))

/-- THERM_TRIP_N follows its cause; asserted while no page of Keystone is active, it starts the wait for the power-down, and the supervisor
sheds all layers (R342, R343). -/
theorem State.thmTrip_frame (s : State) : ∃ tripAt,
    ThmFrame [Reg.DECK_SHED_CFG, Reg.THM_STATUS, Reg.FS_CAUSE, Reg.FS_STATUS] { s with
      fs := { s.fs with thermTrip := s.thm.tripping }, thm := { s.thm with tripAt := tripAt } } s.thmTrip ∧
    (s.thm.tripping = true → s.fs.thermTrip = false → s.key.active = 0 → tripAt = some s.isl ∧
      (s.sup.released = true → s.thmTrip.get Reg.DECK_SHED_CFG.FORCE_ALL = 1)) := by
  delta State.thmTrip
  extract_lets x y on alone z s1 s2
  by_cases hon : on = s.fs.thermTrip
  · rw [if_pos hon, show s.thm.tripping = s.fs.thermTrip from hon]
    exact ⟨s.thm.tripAt, ThmFrame.refl _ s, fun ht hf => by simp [ht] at hf⟩
  · rw [if_neg hon]
    have h1 := ThmFrame.deck [Reg.DECK_SHED_CFG] { s with
      fs := { s.fs with thermTrip := s.thm.tripping }, thm := s1.thm } (d := s1.deck) rfl
    have h2 : ThmFrame [Reg.DECK_SHED_CFG] s1 s2 :=
      ThmFrame.ite (fun _ => ThmFrame.set s1 _ _ (by decide)) fun _ => ThmFrame.refl _ s1
    have h3 : ThmFrame [Reg.THM_STATUS, Reg.FS_CAUSE, Reg.FS_STATUS] s2
        (((s2.set Reg.THM_STATUS.TRIP (ofBool on)).emit (.pin "THERM_TRIP_N" !on)).setCause Reg.FS_CAUSE.THERMAL on) :=
      ((ThmFrame.set s2 _ _ (by decide)).trans (ThmFrame.emit ..)).trans ((State.setCause_frame _ rfl on).mono (by decide))
    refine ⟨_, ((h1.trans h2).mono (by decide)).trans (h3.mono (by decide)), fun htrip _ hkey => ?_⟩
    have halone : alone = true := by simp [alone, show on = true from htrip, hkey]
    refine ⟨if_pos halone, fun hrel => ?_⟩
    have hs2 : s2 = s1.set Reg.DECK_SHED_CFG.FORCE_ALL 1 := if_pos (by simp [halone, show s1.sup.released = true from hrel])
    rw [h3.get (by decide), hs2, State.get_set_same _ _ _ (by decide)]
    rfl

theorem State.thmThrottle_frame (s : State) : ThmFrame [Reg.THM_THROTTLE, Reg.COMB_THROTTLE] s s.thmThrottle := by
  delta State.thmThrottle
  extract_lets f old new cause s1
  have h1 : ThmFrame [Reg.THM_THROTTLE, Reg.COMB_THROTTLE] s s1 :=
    ((ThmFrame.set s _ _ (by decide)).trans (ThmFrame.set _ _ _ (by decide))).trans (ThmFrame.set _ _ _ (by decide))
  exact h1.trans (ThmFrame.ite (fun _ => ThmFrame.refl _ s1) fun _ => ThmFrame.post ..)

/-- The level in effect, in both registers (R340). -/
theorem State.thmThrottle_level (s : State) (hlt : s.thm.lt ≤ 7) :
    s.thmThrottle.get Reg.THM_THROTTLE.LEVEL = max s.thm.lt (s.get Reg.THM_THROTTLE.FORCE) ∧
    s.thmThrottle.get Reg.COMB_THROTTLE.LEVEL = max s.thm.lt (s.get Reg.THM_THROTTLE.FORCE) := by
  delta State.thmThrottle
  extract_lets f old new cause s1
  have hnew : new % 2 ^ 3 = new := Nat.mod_eq_of_lt (Nat.max_lt.2 ⟨by omega, s.get_lt Reg.THM_THROTTLE.FORCE⟩)
  have hthm : s1.get Reg.THM_THROTTLE.LEVEL = new := by
    rw [State.get_set_ne _ _ _ _ (by decide), State.get_set_disjoint _ _ _ _ (by decide) (by decide),
      State.get_set_same _ _ _ (by decide), hnew]
  have hcomb : s1.get Reg.COMB_THROTTLE.LEVEL = new := by rw [State.get_set_same _ _ _ (by decide), hnew]
  have hpost : ThmFrame [] s1 (if new = old then s1 else s1.post 0x0E02 sevWarn (p1 old ++ p1 new ++ p1 cause)) :=
    ThmFrame.ite (fun _ => ThmFrame.refl _ s1) fun _ => ThmFrame.post ..
  exact ⟨(hpost.get (by decide)).trans hthm, (hpost.get (by decide)).trans hcomb⟩

/-! SAFE_HALT from 128 °C (R344). -/

/-- The register words that the entry into SAFE_HALT may change beside those of its events. -/
def haltWords : List Nat :=
  [Reg.DECK_STATE, Reg.CLK_STATUS, Reg.PWR_AVS, Reg.FS_STATUS] ++ (List.range 512).map Reg.PIER_STATUS

theorem State.silence_frame (s : State) : ThmFrame haltWords s s.silence := by
  refine ThmFrame.foldl (fun p hp s => ThmFrame.ite (fun _ => ThmFrame.refl _ s) fun _ => ?_) s
  have hmem : Reg.PIER_STATUS p ∈ haltWords := List.mem_append_right _ (List.mem_map_of_mem hp)
  exact (ThmFrame.set s (Reg.PIER_STATUS.STATE p) _ hmem).trans (ThmFrame.post ..)

theorem State.safeHalt_frame (s : State) (hdev : s.deck.dev ≠ .safeHalt) (evs : List (Nat × Nat × List Byte)) (c d : Nat) :
    ThmFrame haltWords { s with deck := { s.deck with dev := .safeHalt } } (s.safeHalt evs c d) := by
  delta State.safeHalt
  rw [if_neg hdev]
  extract_lets old x y s1 s2 s3 s4 s5 s6
  have h1 : ThmFrame haltWords { s with deck := { s.deck with dev := .safeHalt } } s1 :=
    ⟨RegsBut.refl _ s, MemSame.refl s, rfl, rfl, rfl, rfl, rfl, rfl⟩
  have h2 : ThmFrame haltWords s1 s2 := (ThmFrame.set _ _ _ (by decide +kernel)).trans (ThmFrame.set _ _ _ (by decide +kernel))
  have h3 : ThmFrame haltWords s2 s3 :=
    ThmFrame.ite (fun _ => ThmFrame.set _ _ _ (by decide +kernel)) fun _ => ThmFrame.refl _ s2
  have h4 : ThmFrame haltWords s3 s4 := ThmFrame.foldl (fun e _ s => ThmFrame.post ..) s3
  have h6 : ThmFrame haltWords s4 s6 := (ThmFrame.post ..).trans (ThmFrame.post ..)
  have h7 := (s6.silence_frame.trans (ThmFrame.set _ Reg.FS_STATUS.SFK_READY 0 (by decide +kernel))).trans
    ((State.faultAssert_frame _).mono (by decide +kernel))
  exact ((((h1.trans h2).trans h3).trans h4).trans h6).trans h7

/-- The fixed limit of R344. -/
def State.thmCutOff (s : State) : State := if s.thm.sensor = 0 ∧ 128 * 64 ≤ s.tj then s.safeHalt [] 6 7 else s

theorem State.thmCutOff_frame (s : State) (hdev : s.deck.dev ≠ .safeHalt) : ∃ d : Deck,
    d.dev = (if s.thm.sensor = 0 ∧ 128 * 64 ≤ s.tj then .safeHalt else s.deck.dev) ∧
    ThmFrame haltWords { s with deck := d } s.thmCutOff := by
  rw [State.thmCutOff]
  split
  · exact ⟨_, rfl, s.safeHalt_frame hdev ..⟩
  · exact ⟨s.deck, rfl, ThmFrame.refl _ s⟩

/-! The reading (R335). -/

theorem State.warmTriggers_frame (s : State) : ThmFrame [] s s.warmTriggers := by
  rw [State.warmTriggers]
  have hdue (s : State) (pc : Nat) : ThmFrame [] s (s.trainDue pc 1) :=
    ThmFrame.ite (fun _ => ThmFrame.refl _ s)
      fun _ => ⟨RegsBut.refl _ s, MemSame.refl s, rfl, rfl, rfl, rfl, rfl, rfl⟩
  exact ThmFrame.ite (fun _ => ThmFrame.refl _ s)
    fun _ => ThmFrame.foldl (fun pc _ s => ThmFrame.ite (fun _ => hdue s pc) fun _ => ThmFrame.refl _ s) s

theorem State.calSample_frame (s : State) : ThmFrame [] s s.calSample :=
  ThmFrame.ite (fun _ => ⟨RegsBut.refl _ s, MemSame.refl s, rfl, rfl, rfl, rfl, rfl, rfl⟩) fun _ => ThmFrame.refl _ s

/-- The channels and Tj in their registers, with what a new Tj makes due elsewhere. -/
def State.thmRead (s : State) (a b : Int) : State :=
  ((((({ s with thm := { s.thm with sampleAt := some s.isl } }).set Reg.THM_TEMP.CH_A (unsignedOf 16 a)).set
    Reg.THM_TEMP.CH_B (unsignedOf 16 b)).set Reg.THM_TJ.TJ (unsignedOf 16 (Int.fdiv (a + b) 2))).warmTriggers).calSample

theorem unsignedOf_lt (n : Nat) (a : Int) : unsignedOf n a < 2 ^ n := by
  have hpos : (0 : Int) < 2 ^ n := Int.pow_pos (by decide)
  have hlt : Int.emod a (2 ^ n) < ((2 ^ n : Nat) : Int) := by
    rw [Int.natCast_pow]
    exact Int.emod_lt_of_pos a hpos
  exact (Int.toNat_lt (Int.emod_nonneg a (Int.ne_of_gt hpos))).2 hlt

theorem State.thmRead_frame (s : State) (a b : Int) : ThmFrame [Reg.THM_TEMP, Reg.THM_TJ]
    { s with thm := { s.thm with sampleAt := some s.isl } } (s.thmRead a b) :=
  ((((ThmFrame.set _ _ _ (by decide)).trans (ThmFrame.set _ _ _ (by decide))).trans (ThmFrame.set _ _ _ (by decide))).trans
    ((State.warmTriggers_frame _).mono (by decide))).trans ((State.calSample_frame _).mono (by decide))

theorem State.thmRead_get (s : State) (a b : Int) :
    (s.thmRead a b).get Reg.THM_TEMP.CH_A = unsignedOf 16 a ∧ (s.thmRead a b).get Reg.THM_TEMP.CH_B = unsignedOf 16 b ∧
    (s.thmRead a b).get Reg.THM_TJ.TJ = unsignedOf 16 (Int.fdiv (a + b) 2) := by
  have hlate {f : Field} (hf : f.addr ∉ evtWords) (u : State) : u.warmTriggers.calSample.get f = u.get f :=
    (u.warmTriggers_frame.trans (State.calSample_frame _)).get hf
  have hmod (x : Int) : unsignedOf 16 x % 2 ^ 16 = unsignedOf 16 x := Nat.mod_eq_of_lt (unsignedOf_lt 16 x)
  refine ⟨?_, ?_, ?_⟩ <;> rw [State.thmRead, hlate (by decide)]
  · rw [State.get_set_ne _ _ _ _ (by decide), State.get_set_disjoint _ _ _ _ (by decide) (by decide),
      State.get_set_same _ _ _ (by decide), hmod]
  · rw [State.get_set_ne _ _ _ _ (by decide), State.get_set_same _ _ _ (by decide), hmod]
  · rw [State.get_set_same _ _ _ (by decide), hmod]

/-! The whole sample. -/

/-- The checks of a sample: the sensor, the limits, the rate of rise, and whether sampling is fast (R336 to R339). -/
def State.thmChecks (s : State) (a b : Int) (stuckA stuckB : Bool) : State :=
  (s.thmSensor a b stuckA stuckB).thmLimits.thmRise.thmFast

/-- What follows from the checks: the level, the trip and the level in effect (R340, R342, R343). -/
def State.thmReacts (s : State) : State := s.thmLevel.thmTrip.thmThrottle

theorem State.thmSample_eq (s : State) (rawA rawB : Int) (stuckA stuckB : Bool) (hdev : s.deck.dev ≠ .safeHalt)
    (hpace : s.samplePace = true) :
    s.thmSample rawA rawB stuckA stuckB = (((s.thmRead (rawA - s.calValue qOffA) (rawB - s.calValue qOffB)).thmChecks
      (rawA - s.calValue qOffA) (rawB - s.calValue qOffB) stuckA stuckB).thmReacts).thmCutOff := by
  rw [State.thmSample, if_neg (by simp [hdev, hpace])]
  rfl

theorem State.samplePace_of_due (s : State) (h : ∀ u, s.thm.sampleAt = some u →
    u + (if s.get Reg.THM_STATUS.FAST = 1 then 8000000 else 80000000) ≤ s.isl) : s.samplePace = true := by
  have hbit : s.get Reg.THM_STATUS.FAST < 2 := s.get_lt Reg.THM_STATUS.FAST
  have hflag : s.flag Reg.THM_STATUS.FAST = true ↔ s.get Reg.THM_STATUS.FAST = 1 := by
    rw [State.flag, bne_iff_ne]; omega
  rw [State.samplePace]
  split
  next => rfl
  next u hu => simpa only [hflag, decide_eq_true_eq] using h u hu

/-- What the checks leave of the monitor. -/
theorem State.thmChecks_frame (s : State) (a b : Int) (stuckA stuckB : Bool) : ∃ m : Thm,
    ThmFrame [Reg.THM_STATUS] { s with thm := m } (s.thmChecks a b stuckA stuckB) ∧
    m.sensor = (if s.thm.sensor ≠ 0 then s.thm.sensor else sensorCode a b stuckA stuckB) ∧
    m.warn = s.limitState Reg.THM_LIMITS.WARN s.thm.warn ∧
    m.throttle = s.limitState Reg.THM_LIMITS.THROTTLE s.thm.throttle ∧
    m.critical = s.limitState Reg.THM_LIMITS.CRITICAL s.thm.critical ∧ m.lt = s.thm.lt ∧ m.upAt = s.thm.upAt := by
  have h1 := s.thmSensor_frame a b stuckA stuckB
  have h2 := State.thmLimits_frame (s.thmSensor a b stuckA stuckB)
  obtain ⟨hist, riseRun, n1, h3⟩ := State.thmRise_frame (s.thmSensor a b stuckA stuckB).thmLimits
  obtain ⟨calmAt, n2, h4⟩ := State.thmFast_frame (s.thmSensor a b stuckA stuckB).thmLimits.thmRise
  have hlim (f : Field) (hf : f.addr = Reg.THM_LIMITS) (old : Bool) :
      (s.thmSensor a b stuckA stuckB).limitState f old = s.limitState f old := by
    rw [State.limitState, State.limit, State.tj, h1.get (by rw [hf]; decide), h1.get (by decide), h1.get (by decide)]
    rfl
  rw [hlim _ rfl, hlim _ rfl, hlim _ rfl, h1.thm] at h2
  rw [h2.thm] at h3
  rw [h3.thm] at h4
  exact ⟨_, (((h1.withThm _).trans (h2.withThm _)).trans (h3.withThm _)).trans h4, rfl, rfl, rfl, rfl, rfl, rfl⟩

/-- Reached, cleared below the hysteresis, or as before (R338). -/
theorem State.limitState_cases (s : State) (f : Field) (old : Bool) :
    (signed 8 (s.get f) * 64 ≤ s.tj → s.limitState f old = true) ∧
    (s.tj < (signed 8 (s.get f) - (max 1 (s.get Reg.THM_CFG.HYST) : Nat)) * 64 → s.limitState f old = false) ∧
    (s.tj < signed 8 (s.get f) * 64 → (signed 8 (s.get f) - (max 1 (s.get Reg.THM_CFG.HYST) : Nat)) * 64 ≤ s.tj →
      s.limitState f old = old) := by
  have hpos : 1 ≤ max 1 (s.get Reg.THM_CFG.HYST) := Nat.le_max_left ..
  rw [State.limitState, State.limit, ← Int.sub_mul]
  generalize max 1 (s.get Reg.THM_CFG.HYST) = n at *
  refine ⟨fun h => if_pos h, fun h => ?_, fun h1 h2 => ?_⟩
  · rw [if_neg (by omega), if_pos h]
  · rw [if_neg (by omega), if_neg (by omega)]

/-- The register words that the reaction to the checks may change beside those of its events. -/
def reactWords : List Nat :=
  [Reg.DECK_SHED_CFG, Reg.THM_STATUS, Reg.FS_CAUSE, Reg.FS_STATUS, Reg.THM_THROTTLE, Reg.COMB_THROTTLE]

/-- What the reaction leaves of the monitor and of THERM_TRIP_N. -/
theorem State.thmReacts_frame (s : State) (hs : s.thm.lt ≤ 7) : ∃ (m : Thm) (x : Fs),
    ThmFrame reactWords { s with fs := x, thm := m } s.thmReacts ∧ LevelMoves s.thm m ∧
    m.sensor = s.thm.sensor ∧ m.warn = s.thm.warn ∧ m.throttle = s.thm.throttle ∧ m.critical = s.thm.critical ∧
    x.thermTrip = m.tripping ∧
    s.thmReacts.get Reg.THM_THROTTLE.LEVEL = max m.lt (s.get Reg.THM_THROTTLE.FORCE) ∧
    s.thmReacts.get Reg.COMB_THROTTLE.LEVEL = max m.lt (s.get Reg.THM_THROTTLE.FORCE) ∧
    (m.tripping = true → s.fs.thermTrip = false → s.key.active = 0 → m.tripAt = some s.isl ∧
      (s.sup.released = true → s.thmReacts.get Reg.DECK_SHED_CFG.FORCE_ALL = 1)) := by
  obtain ⟨lt, ltAt, upAt, hlevel, hmoves⟩ := s.thmLevel_eq
  obtain ⟨tripAt, hframe, htrip⟩ := s.thmLevel.thmTrip_frame
  rw [hlevel] at hframe htrip
  have heff := State.thmThrottle_frame s.thmLevel.thmTrip
  have hle : s.thmLevel.thmTrip.thm.lt ≤ 7 := by
    rw [hlevel, hframe.thm]
    exact hmoves.le_seven hs
  obtain ⟨hthm, hcomb⟩ := State.thmThrottle_level s.thmLevel.thmTrip hle
  rw [hlevel, hframe.thm, hframe.get (by decide)] at hthm hcomb
  rw [State.thmReacts]
  rw [hlevel] at heff ⊢
  refine ⟨_, _, (hframe.mono (by decide)).trans (heff.mono (by decide)), ⟨hmoves.top, hmoves.step, hmoves.up⟩,
    rfl, rfl, rfl, rfl, rfl, hthm, hcomb, fun h1 h2 h3 => ?_⟩
  obtain ⟨hat, hshed⟩ := htrip h1 h2 h3
  exact ⟨hat, fun hrel => (heff.get (by decide)).trans (hshed hrel)⟩

/-- What a reading leads to: from `s`, in which it stands in its registers, to `t`. -/
structure ThmResponse (a b : Int) (stuckA stuckB : Bool) (s t : State) : Prop where
  temp : ∀ f : Field, f.addr ∈ [Reg.THM_TEMP, Reg.THM_TJ] → t.get f = s.get f
  sensor : t.thm.sensor = if s.thm.sensor ≠ 0 then s.thm.sensor else sensorCode a b stuckA stuckB
  warn : t.thm.warn = s.limitState Reg.THM_LIMITS.WARN s.thm.warn
  throttle : t.thm.throttle = s.limitState Reg.THM_LIMITS.THROTTLE s.thm.throttle
  critical : t.thm.critical = s.limitState Reg.THM_LIMITS.CRITICAL s.thm.critical
  moves : LevelMoves s.thm t.thm
  level : t.get Reg.THM_THROTTLE.LEVEL = max t.thm.lt (s.get Reg.THM_THROTTLE.FORCE)
  comb : t.get Reg.COMB_THROTTLE.LEVEL = max t.thm.lt (s.get Reg.THM_THROTTLE.FORCE)
  trip : t.fs.thermTrip = t.thm.tripping
  alone : t.thm.tripping = true → s.fs.thermTrip = false → s.key.active = 0 → t.thm.tripAt = some s.isl ∧
    (s.sup.released = true → t.get Reg.DECK_SHED_CFG.FORCE_ALL = 1)
  dev : t.deck.dev = if t.thm.sensor = 0 ∧ 128 * 64 ≤ t.tj then .safeHalt else s.deck.dev
  mem : MemSame s t

theorem State.thmResponse (s : State) (a b : Int) (stuckA stuckB : Bool) (hdev : s.deck.dev ≠ .safeHalt) (hlt : s.thm.lt ≤ 7) :
    ThmResponse a b stuckA stuckB s (s.thmChecks a b stuckA stuckB).thmReacts.thmCutOff := by
  -- The states between are named and stay folded: only what the frames say of them counts.
  obtain ⟨m, hchecks, hsensor, hwarn, hthrottle, hcritical, hmlt, hmup⟩ := s.thmChecks_frame a b stuckA stuckB
  obtain ⟨u, hu⟩ : ∃ u, s.thmChecks a b stuckA stuckB = u := ⟨_, rfl⟩
  rw [hu] at hchecks ⊢
  obtain ⟨n, x, hreact, hmoves, hnsensor, hnwarn, hnthrottle, hncritical, hx, hlevel, hcomb, htrip⟩ :=
    u.thmReacts_frame (by rw [hchecks.thm]; exact Nat.le_trans (Nat.le_of_eq hmlt) hlt)
  rw [hchecks.thm] at hmoves hnsensor hnwarn hnthrottle hncritical
  rw [hchecks.get (by decide)] at hlevel hcomb
  obtain ⟨v, hv⟩ : ∃ v, u.thmReacts = v := ⟨_, rfl⟩
  rw [hv] at hreact hlevel hcomb htrip ⊢
  have hvdev : v.deck.dev = s.deck.dev := hreact.dev.trans hchecks.dev
  obtain ⟨d, hd, hcut⟩ := v.thmCutOff_frame (by rw [hvdev]; exact hdev)
  obtain ⟨t, ht⟩ : ∃ t, v.thmCutOff = t := ⟨_, rfl⟩
  rw [ht] at hcut ⊢
  obtain rfl : n = t.thm := (hcut.thm.trans hreact.thm).symm
  have htj : v.tj = t.tj := by rw [State.tj, State.tj, hcut.get (by decide +kernel)]; rfl
  exact {
    temp := fun f hf => by
      simp only [List.mem_cons, List.not_mem_nil, or_false] at hf
      obtain hf | hf := hf <;>
        exact (hcut.get (by rw [hf]; decide +kernel)).trans ((hreact.get (by rw [hf]; decide)).trans (hchecks.get (by rw [hf]; decide)))
    sensor := hnsensor.trans hsensor
    warn := hnwarn.trans hwarn
    throttle := hnthrottle.trans hthrottle
    critical := hncritical.trans hcritical
    moves := ⟨hmoves.top, hmlt ▸ hmoves.step, hmlt ▸ hmup ▸ hmoves.up⟩
    level := (hcut.get (by decide +kernel)).trans hlevel
    comb := (hcut.get (by decide +kernel)).trans hcomb
    trip := hcut.trip.trans (hreact.trip.trans hx)
    alone := fun h1 h2 h3 => by
      obtain ⟨hat, hshed⟩ := htrip h1 (hchecks.trip.trans h2) (by rw [hchecks.key]; exact h3)
      rw [State.isl, hchecks.nt] at hat
      exact ⟨hat, fun hrel => (hcut.get (by decide +kernel)).trans (hshed (by rw [hchecks.sup]; exact hrel))⟩
    dev := by
      rw [hcut.dev, ← htj, hcut.thm, ← hvdev]
      exact hd
    mem := (hchecks.mem.trans hreact.mem).trans hcut.mem }

theorem exec_thmSample_eq (a b : Int) (stuckA stuckB : Bool) (s : State) :
    exec (.thmSample a b stuckA stuckB) s = execThmSample a b stuckA stuckB s := by
  rfl

theorem State.exec_thmSample (s : State) (rawA rawB : Int) (stuckA stuckB : Bool) (hup : s.up) :
    exec (.thmSample rawA rawB stuckA stuckB) s = .next (s.thmSample rawA rawB stuckA stuckB) := by
  rw [exec_thmSample_eq, execThmSample, State.clocked, if_neg (by simp [hup.1, hup.2])]

/-- Settles O47: the reading, which leaves the limits and the settings as they were, and the response to it. -/
theorem thermalSample : Obligations.ThermalSample := by
  intro rawA rawB stuckA stuckB s hup hlt hdue
  rw [s.exec_thmSample _ _ _ _ hup, s.thmSample_eq _ _ _ _ hup.1 (s.samplePace_of_due hdue)]
  generalize rawA - s.calValue qOffA = a
  generalize rawB - s.calValue qOffB = b
  have hread := s.thmRead_frame a b
  obtain ⟨hchA, hchB, htj⟩ := s.thmRead_get a b
  obtain ⟨c, hc⟩ : ∃ c, s.thmRead a b = c := ⟨_, rfl⟩
  rw [hc] at hread hchA hchB htj ⊢
  have h := c.thmResponse a b stuckA stuckB (by rw [hread.dev]; exact hup.1) (by rw [hread.thm]; exact hlt)
  obtain ⟨t, ht⟩ : ∃ t, (c.thmChecks a b stuckA stuckB).thmReacts.thmCutOff = t := ⟨_, rfl⟩
  rw [ht] at h ⊢
  have htjt : c.tj = t.tj := by rw [State.tj, State.tj, h.temp _ (by decide)]
  have hkept (f : Field) (hf : f.addr ∉ [Reg.THM_TEMP, Reg.THM_TJ] ++ evtWords) : c.get f = s.get f := hread.get hf
  have hlim {f : Field} {old new : Bool} (hf : f.addr = Reg.THM_LIMITS) (hnew : new = c.limitState f old) := by
    have hcases := c.limitState_cases f old
    rw [← hnew, hkept f (by rw [hf]; decide), hkept Reg.THM_CFG.HYST (by decide), htjt] at hcases
    exact hcases
  have hmoves := h.moves
  rw [hread.thm] at hmoves
  refine ⟨t, rfl, (h.temp _ (by decide)).trans hchA, (h.temp _ (by decide)).trans hchB, (h.temp _ (by decide)).trans htj,
    ?_, ?_, fun hcause => hmoves.top (t.thm.tripping_iff.2 hcause),
    fun h1 h2 => hmoves.up (t.thm.tripping_eq_false h1 h2), fun h1 h2 => ?_, h.level.trans (by rw [hkept _ (by decide)]),
    h.comb.trans h.level.symm, h.trip, fun h1 h2 h3 => ?_, ?_, hread.mem.trans h.mem⟩
  · rw [h.sensor, hread.thm]
  · have hwarn := h.warn
    have hthrottle := h.throttle
    have hcritical := h.critical
    rw [hread.thm] at hwarn hthrottle hcritical
    simp only [List.forall_mem_cons]
    exact ⟨hlim rfl hwarn, hlim rfl hthrottle, hlim rfl hcritical, by simp⟩
  · exact (hmoves.step (t.thm.tripping_eq_false h1 h2)).imp_right (Or.imp_left And.left)
  · obtain ⟨hat, hshed⟩ := h.alone (h.trip.symm.trans h1) (hread.trip.trans h2) (by rw [hread.key]; exact h3)
    rw [State.isl, hread.nt] at hat
    exact ⟨hat, fun hrel => hshed (by rw [hread.sup]; exact hrel)⟩
  · rw [h.dev, hread.dev]

end Sys2Proof.Machine
end

section
/-! The event unit (15 R372 to R380): the two queues, the way of an event into them, the entry that the fault log takes of it, and the
registers of Thihoger at both ends. -/

namespace Sys2Proof.Machine

/-! The queues (R376). -/

theorem dropFirst_length {α : Type} (p : α → Bool) {l : List α} (h : ∃ x ∈ l, p x = true) :
    (dropFirst p l).length + 1 = l.length := by
  induction l with
  | nil => simp at h
  | cons y l ih =>
    rw [dropFirst]
    split
    next => rfl
    next hy =>
      obtain ⟨x, hx, hp⟩ := h
      obtain rfl | hx := List.mem_cons.1 hx
      · exact absurd hp hy
      · rw [List.length_cons, List.length_cons, ih ⟨x, hx, hp⟩]

section
variable {cap : Nat} {q : List EvRec} (mark : Bool) {r : EvRec}

theorem enqueueRec_of_room (h : q.length < cap) : enqueueRec cap q mark r = (q ++ [{ r with lost := mark }], false, false) :=
  if_pos h

theorem enqueueRec_full_drops (h : q.length = cap) (hr : r.sev < 3) : enqueueRec cap q mark r = (q, true, true) := by
  rw [enqueueRec, if_neg (by omega), if_pos hr]

/-- A SAFETY record takes the place of one of lower severity. -/
theorem enqueueRec_full_replaces (h : q.length = cap) (hr : r.sev = 3) (hlow : ∃ x ∈ q, x.sev < 3) :
    ∃ kept : List EvRec, kept.length + 1 = cap ∧
      enqueueRec cap q mark r = (kept ++ [{ r with lost := true }], false, true) := by
  have hany : ∃ x ∈ q, decide (x.sev < sevSafety) = true := by simpa using hlow
  refine ⟨_, (dropFirst_length _ hany).trans h, ?_⟩
  rw [enqueueRec, if_neg (by omega), if_neg (by rw [hr]; decide), if_pos (List.any_eq_true.2 hany)]

end

theorem State.toSupQ_evt (s : State) (r : EvRec) : (s.toSupQ r).evt = { s.evt with
    supQ := (enqueueRec 512 s.evt.supQ s.evt.supLost r).1, supLost := (enqueueRec 512 s.evt.supQ s.evt.supLost r).2.1 } := by
  rw [State.toSupQ]
  split <;> simp

theorem State.toHostQ_evt (s : State) (r : EvRec) : (s.toHostQ r).evt = { s.evt with
    hostQ := (enqueueRec 256 s.evt.hostQ s.evt.hostLost r).1, hostLost := (enqueueRec 256 s.evt.hostQ s.evt.hostLost r).2.1 } := by
  rw [State.toHostQ]
  split <;> simp

theorem State.toSupQ_regs (s : State) (r : EvRec) : RegsBut [Reg.EVT_COUNT] s (s.toSupQ r) := by
  rw [State.toSupQ]
  split
  · exact RegsBut.set _ _ (by decide)
  · exact RegsBut.refl _ s

theorem State.toHostQ_regs (s : State) (r : EvRec) : RegsBut [Reg.EVT_COUNT] s (s.toHostQ r) := by
  rw [State.toHostQ]
  split
  · exact RegsBut.set _ _ (by decide)
  · exact RegsBut.refl _ s

@[simp] theorem State.toSupQ_mram (s : State) (r : EvRec) : (s.toSupQ r).mram = s.mram := by
  rw [State.toSupQ]
  split <;> simp

@[simp] theorem State.toHostQ_mram (s : State) (r : EvRec) : (s.toHostQ r).mram = s.mram := by
  rw [State.toHostQ]
  split <;> simp

theorem State.get_bump_same (s : State) (f : Field) (n : Nat) (h : f.lo + f.len ≤ 32) :
    (s.bump f n).get f = min (s.get f + n) (2 ^ f.len - 1) := by
  have hpos : 0 < 2 ^ f.len := Nat.two_pow_pos _
  rw [State.bump, State.get_set_same _ _ _ h, Nat.mod_eq_of_lt (by omega)]

theorem State.toSupQ_dropped (s : State) (r : EvRec) (h : (enqueueRec 512 s.evt.supQ s.evt.supLost r).2.2 = true) :
    (s.toSupQ r).get Reg.EVT_COUNT.SUP_DROPPED = min (s.get Reg.EVT_COUNT.SUP_DROPPED + 1) 65535 := by
  rw [State.toSupQ, if_pos h, State.get_bump_same _ _ _ (by decide)]
  rfl

/-- A drop from the host queue is not counted as one from the supervisor queue. -/
theorem State.toHostQ_supDropped (s : State) (r : EvRec) :
    (s.toHostQ r).get Reg.EVT_COUNT.SUP_DROPPED = s.get Reg.EVT_COUNT.SUP_DROPPED := by
  rw [State.toHostQ]
  split
  · exact State.get_set_disjoint _ _ _ _ (by decide) (by decide)
  · rfl

theorem PostFrame.get {s t : State} (h : PostFrame s t) {f : Field} (hf : f.addr ∉ evtWords) : t.get f = s.get f := by
  rw [State.get, State.get, h.regs _ hf]

theorem PostFrame.memSame {s t : State} (h : PostFrame s t) : MemSame s t := (h.thmFrame []).mem

theorem PostFrame.isl {s t : State} (h : PostFrame s t) : t.isl = s.isl := by rw [State.isl, State.isl, h.nt]

/-! The way of an event into the queues (R372, R375). -/

/-- The event has the next ESEQ and has reached the supervisor queue. -/
def State.routeSup (s : State) (code sev : Nat) (payload : List Byte) : State :=
  { s with evt := { s.evt with eseq := (s.evt.eseq + 1) % 2 ^ 16 } }.toSupQ (s.evRec code sev payload)

/-- The event has reached both queues. -/
def State.route (s : State) (code sev : Nat) (payload : List Byte) : State :=
  if (s.routeSup code sev payload).toHost code sev then (s.routeSup code sev payload).toHostQ (s.evRec code sev payload)
  else s.routeSup code sev payload

theorem State.toHost_iff (s : State) (code sev : Nat) : s.toHost code sev = true ↔
    s.get Reg.EVT_CTRL.HOST_EN = 1 ∧ (s.get Reg.EVT_CTRL.HOST_MIN ≤ sev ∨ code = 0x0F02) := by
  have hbit : s.get Reg.EVT_CTRL.HOST_EN < 2 := s.get_lt Reg.EVT_CTRL.HOST_EN
  simp only [State.toHost, State.flag, Bool.and_eq_true, bne_iff_ne, Bool.or_eq_true, decide_eq_true_eq, beq_iff_eq]
  refine and_congr_left fun _ => ?_
  omega

section
variable (s : State) (code sev : Nat) (pl : List Byte)

theorem State.routeSup_frame : PostFrame s (s.routeSup code sev pl) := (PostFrame.evt s _).trans (PostFrame.toSupQ ..)

theorem State.routeSup_regs : RegsBut [Reg.EVT_COUNT] s (s.routeSup code sev pl) := State.toSupQ_regs { s with evt := _ } _

theorem State.routeSup_toHost : (s.routeSup code sev pl).toHost code sev = s.toHost code sev := by
  have h := s.routeSup_frame code sev pl
  rw [State.toHost, State.toHost, State.flag, State.flag, h.get (by decide), h.get (by decide)]

theorem State.routeSup_evt : (s.routeSup code sev pl).evt = { s.evt with
    eseq := (s.evt.eseq + 1) % 2 ^ 16
    supQ := (enqueueRec 512 s.evt.supQ s.evt.supLost (s.evRec code sev pl)).1
    supLost := (enqueueRec 512 s.evt.supQ s.evt.supLost (s.evRec code sev pl)).2.1 } := State.toSupQ_evt ..

/-- The event is in both queues or in that of the supervisor alone. -/
theorem State.route_cases :
    (s.toHost code sev = true ∧ s.route code sev pl = (s.routeSup code sev pl).toHostQ (s.evRec code sev pl)) ∨
    (s.toHost code sev = false ∧ s.route code sev pl = s.routeSup code sev pl) := by
  rw [State.route, s.routeSup_toHost]
  cases s.toHost code sev with
  | true => exact .inl ⟨rfl, rfl⟩
  | false => exact .inr ⟨rfl, rfl⟩

theorem State.route_frame : PostFrame s (s.route code sev pl) := by
  have h := s.routeSup_frame code sev pl
  obtain ⟨-, hr⟩ | ⟨-, hr⟩ := s.route_cases code sev pl <;> rw [hr]
  · exact h.trans (PostFrame.toHostQ ..)
  · exact h

theorem State.route_regs : RegsBut [Reg.EVT_COUNT] s (s.route code sev pl) := by
  have h := s.routeSup_regs code sev pl
  obtain ⟨-, hr⟩ | ⟨-, hr⟩ := s.route_cases code sev pl <;> rw [hr]
  · exact h.trans (State.toHostQ_regs _ _)
  · exact h

theorem State.route_mram : (s.route code sev pl).mram = s.mram := by
  obtain ⟨-, hr⟩ | ⟨-, hr⟩ := s.route_cases code sev pl <;> rw [hr] <;> simp [State.routeSup]

theorem State.route_supDropped (h : (enqueueRec 512 s.evt.supQ s.evt.supLost (s.evRec code sev pl)).2.2 = true) :
    (s.route code sev pl).get Reg.EVT_COUNT.SUP_DROPPED = min (s.get Reg.EVT_COUNT.SUP_DROPPED + 1) 65535 := by
  have hsup : (s.routeSup code sev pl).get Reg.EVT_COUNT.SUP_DROPPED = min (s.get Reg.EVT_COUNT.SUP_DROPPED + 1) 65535 :=
    State.toSupQ_dropped { s with evt := _ } _ h
  obtain ⟨-, hr⟩ | ⟨-, hr⟩ := s.route_cases code sev pl <;> rw [hr]
  · rw [State.toHostQ_supDropped, hsup]
  · exact hsup

theorem State.route_evt : (s.route code sev pl).evt = { s.evt with
    eseq := (s.evt.eseq + 1) % 2 ^ 16
    supQ := (enqueueRec 512 s.evt.supQ s.evt.supLost (s.evRec code sev pl)).1
    supLost := (enqueueRec 512 s.evt.supQ s.evt.supLost (s.evRec code sev pl)).2.1
    hostQ := (s.route code sev pl).evt.hostQ
    hostLost := (s.route code sev pl).evt.hostLost } := by
  obtain ⟨-, hr⟩ | ⟨-, hr⟩ := s.route_cases code sev pl <;> rw [hr]
  · rw [State.toHostQ_evt, s.routeSup_evt]
  · rw [s.routeSup_evt]

theorem State.route_hostQ : (s.route code sev pl).evt.hostQ =
    if s.toHost code sev then (enqueueRec 256 s.evt.hostQ s.evt.hostLost (s.evRec code sev pl)).1 else s.evt.hostQ := by
  obtain ⟨hh, hr⟩ | ⟨hh, hr⟩ := s.route_cases code sev pl <;> rw [hr, hh]
  · rw [State.toHostQ_evt, s.routeSup_evt]
    rfl
  · rw [s.routeSup_evt]
    rfl

theorem State.postMark_eq (f : State → List Byte → State) :
    s.postMark code sev pl f = f (s.route code sev pl) (s.evRec code sev pl).bytes := rfl

theorem State.postNow_eq (h : s.deck.dev ≠ .safeHalt) : s.postNow code sev pl =
    if sevError ≤ sev ∨ (sev = sevWarn ∧ (s.route code sev pl).flag Reg.EVT_CTRL.LOG_WARN = true) then
      (s.route code sev pl).logEvent (s.evRec code sev pl).bytes
    else s.route code sev pl := by
  have hdev : (s.route code sev pl).deck.dev ≠ .safeHalt := by rwa [(s.route_frame code sev pl).deck]
  delta State.postNow
  extract_lets r x z w y
  rw [show y = s.route code sev pl from if_neg h, if_neg hdev]

end

/-! The fault log (R378, R379). -/

theorem State.logWrite_evt (s : State) (rec : List Byte) (writer : Nat) : (s.logWrite rec writer).evt = s.evt := by
  simp [State.logWrite]

theorem State.logWrite_regs (s : State) (rec : List Byte) (writer : Nat) :
    RegsBut [Reg.EVT_LOG_STATUS, Reg.EVT_LOG_SEQ, Reg.EVT_LOG_COUNT] s (s.logWrite rec writer) :=
  RegsBut.trans (t := { s with mram := _ }) (RegsBut.refl _ s)
    (((RegsBut.set _ _ (by decide)).trans (RegsBut.set _ _ (by decide))).trans (RegsBut.set _ _ (by decide)))

theorem State.logWrite_head (s : State) (rec : List Byte) (writer : Nat) :
    (s.logWrite rec writer).get Reg.EVT_LOG_STATUS.HEAD = (s.get Reg.EVT_LOG_STATUS.HEAD + 1) % 16384 := by
  delta State.logWrite
  extract_lets head seq e x y z
  rw [State.count, State.get_set_ne _ _ _ _ (by decide), State.get_set_ne _ _ _ _ (by decide),
    State.get_set_same _ _ _ (by decide)]
  exact Nat.mod_mod ..

theorem State.logWrite_seq (s : State) (rec : List Byte) (writer : Nat) :
    (s.logWrite rec writer).get Reg.EVT_LOG_SEQ.LOGSEQ = (s.get Reg.EVT_LOG_SEQ.LOGSEQ + 1) % 2 ^ 32 := by
  delta State.logWrite
  extract_lets head seq e x y z
  rw [State.count, State.get_set_ne _ _ _ _ (by decide), State.get_set_same _ _ _ (by decide), Nat.mod_mod]

/-- An entry begins with its record. -/
theorem State.logWrite_byte (s : State) (rec : List Byte) (writer i : Nat) (h : i < rec.length) :
    (s.logWrite rec writer).mramByte (logBase + 64 * s.get Reg.EVT_LOG_STATUS.HEAD + i) = rec[i] := by
  rw [State.mramByte, State.logWrite]
  simp only [State.count, State.set_mram]
  rw [memWrite_in _ _ _ i (by simp only [logEntry, List.length_append]; omega)]
  simp [logEntry, List.getElem_append_left, h]

/-- `t` follows `s` by one entry of the fault log, which begins with `rec` and took a token. -/
structure Logged (rec : List Byte) (s t : State) : Prop where
  bytes : ∀ (i : Nat) (h : i < rec.length), t.mramByte (logBase + 64 * s.get Reg.EVT_LOG_STATUS.HEAD + i) = rec[i]
  head : t.get Reg.EVT_LOG_STATUS.HEAD = (s.get Reg.EVT_LOG_STATUS.HEAD + 1) % 16384
  seq : t.get Reg.EVT_LOG_SEQ.LOGSEQ = (s.get Reg.EVT_LOG_SEQ.LOGSEQ + 1) % 2 ^ 32
  tokens : t.evt.tokens + 1 = s.refill.evt.tokens
  suppressed : t.evt.suppressed = s.evt.suppressed

theorem State.logEvent_logged (s : State) (rec : List Byte) (h : 0 < s.refill.evt.tokens) : Logged rec s (s.logEvent rec) := by
  have heq : s.logEvent rec =
      ({ s.refill with evt := { s.refill.evt with tokens := s.refill.evt.tokens - 1 } } : State).logWrite rec 0 :=
    if_neg (Nat.ne_of_gt h)
  rw [heq]
  refine ⟨fun i hi => State.logWrite_byte _ rec 0 i hi, State.logWrite_head .., State.logWrite_seq .., ?_, ?_⟩
  · rw [State.logWrite_evt]
    exact Nat.sub_add_cancel h
  · rw [State.logWrite_evt]
    rfl

theorem State.logEvent_regs (s : State) (rec : List Byte) :
    RegsBut [Reg.EVT_LOG_STATUS, Reg.EVT_LOG_SEQ, Reg.EVT_LOG_COUNT] s (s.logEvent rec) := by
  intro a ha
  delta State.logEvent
  extract_lets x
  split
  · exact RegsBut.set (as := [Reg.EVT_LOG_STATUS, Reg.EVT_LOG_SEQ, Reg.EVT_LOG_COUNT]) _ _ (by decide) a ha
  · exact State.logWrite_regs _ _ _ a ha

/-- The fault log takes its tokens from the event unit and leaves the queues as they are. -/
theorem State.logEvent_evt (s : State) (rec : List Byte) : (s.logEvent rec).evt = { s.evt with
    tokens := (s.logEvent rec).evt.tokens, tokenAt := (s.logEvent rec).evt.tokenAt
    suppressed := (s.logEvent rec).evt.suppressed } := by
  delta State.logEvent
  extract_lets x
  split
  · rw [State.bump_evt]
    rfl
  · rw [State.logWrite_evt]
    rfl

/-- Filling the bucket again at the same time adds nothing. -/
theorem State.refill_refill_tokens (s : State) : s.refill.refill.evt.tokens = s.refill.evt.tokens := by
  have htok (u : State) : u.refill.evt.tokens = min 64 (u.evt.tokens + (u.isl - u.evt.tokenAt) / tokenTime) := rfl
  have hisl : s.refill.isl = s.isl := rfl
  rw [htok, htok, hisl]
  by_cases hfull : 64 ≤ s.evt.tokens + (s.isl - s.evt.tokenAt) / tokenTime
  · have hat : s.refill.evt.tokenAt = s.isl := if_pos hfull
    rw [hat, Nat.sub_self, Nat.zero_div]
    omega
  · have hat : s.refill.evt.tokenAt = s.evt.tokenAt + (s.isl - s.evt.tokenAt) / tokenTime * tokenTime := if_neg hfull
    rw [hat, tokenTime]
    omega

/-- Tokens depend on the bucket and the time alone. -/
theorem State.refill_tokens_congr {s t : State} (h1 : t.evt.tokens = s.evt.tokens) (h2 : t.evt.tokenAt = s.evt.tokenAt)
    (h3 : t.isl = s.isl) : t.refill.evt.tokens = s.refill.evt.tokens := by
  simp only [State.refill, h1, h2, h3]

section
variable (s : State) (code sev : Nat) (pl : List Byte)

theorem State.route_refill_tokens : (s.route code sev pl).refill.evt.tokens = s.refill.evt.tokens :=
  State.refill_tokens_congr (by rw [s.route_evt]) (by rw [s.route_evt]) (s.route_frame code sev pl).isl

/-- A record begins with its code. -/
theorem State.evRec_bytes : ∃ tl : List Byte, (s.evRec code sev pl).bytes = byte code :: byte (code / 256) :: tl := ⟨_, rfl⟩

/-- An event that finds a token is logged after it is routed. -/
theorem State.route_logged (h : 0 < s.refill.evt.tokens) :
    Logged (s.evRec code sev pl).bytes s ((s.route code sev pl).logEvent (s.evRec code sev pl).bytes) := by
  have htok := s.route_refill_tokens code sev pl
  have hregs (f : Field) (hf : f.addr ∉ [Reg.EVT_COUNT]) : (s.route code sev pl).get f = s.get f := by
    rw [State.get, State.get, s.route_regs code sev pl _ hf]
  have hlog := (s.route code sev pl).logEvent_logged (s.evRec code sev pl).bytes (by rwa [htok])
  refine ⟨fun i hi => ?_, ?_, ?_, hlog.tokens.trans htok, ?_⟩
  · rw [← hregs _ (by decide)]
    exact hlog.bytes i hi
  · rw [hlog.head, hregs _ (by decide)]
  · rw [hlog.seq, hregs _ (by decide)]
  · rw [hlog.suppressed, s.route_evt]

theorem PostFrame.postMark : PostFrame s (s.postMark code sev pl State.logEvent) := by
  rw [s.postMark_eq]
  exact (s.route_frame code sev pl).trans (PostFrame.logEvent _ _ (EvRec.bytes_length _))

/-- A marking entry names its code in its first two bytes. -/
theorem State.postMark_logged (h : 0 < s.refill.evt.tokens) :
    Logged (s.evRec code sev pl).bytes s (s.postMark code sev pl State.logEvent) ∧
    (s.postMark code sev pl State.logEvent).mramByte (logBase + 64 * s.get Reg.EVT_LOG_STATUS.HEAD) = byte code ∧
    (s.postMark code sev pl State.logEvent).mramByte (logBase + 64 * s.get Reg.EVT_LOG_STATUS.HEAD + 1) = byte (code / 256) := by
  have hlog := s.route_logged code sev pl h
  obtain ⟨tl, htl⟩ := s.evRec_bytes code sev pl
  refine ⟨hlog, (hlog.bytes 0 (by simp [htl])).trans ?_, (hlog.bytes 1 (by simp [htl])).trans ?_⟩ <;> simp [htl]

end

/-! An event posted while the clocks run. -/

section
variable {s : State} (code sev : Nat) (pl : List Byte) (h : s.deck.dev ≠ .safeHalt)
include h

theorem State.postNow_cases : s.postNow code sev pl = (s.route code sev pl).logEvent (s.evRec code sev pl).bytes ∨
    s.postNow code sev pl = s.route code sev pl := by
  rw [s.postNow_eq _ _ _ h]
  split
  · exact .inl rfl
  · exact .inr rfl

theorem State.postNow_of_error (hsev : 2 ≤ sev) :
    s.postNow code sev pl = (s.route code sev pl).logEvent (s.evRec code sev pl).bytes := by
  rw [s.postNow_eq _ _ _ h]
  exact if_pos (.inl hsev)

theorem State.postNow_info : s.postNow code 0 pl = s.route code 0 pl := by
  rw [s.postNow_eq _ _ _ h]
  exact if_neg (by simp [sevError, sevWarn])

/-- What the event unit holds after a posted event (R372, R375, R376). -/
theorem State.postNow_queues : (s.postNow code sev pl).evt.eseq = (s.evt.eseq + 1) % 2 ^ 16 ∧
    (s.postNow code sev pl).evt.supQ = (enqueueRec 512 s.evt.supQ s.evt.supLost (s.evRec code sev pl)).1 ∧
    (s.postNow code sev pl).evt.supLost = (enqueueRec 512 s.evt.supQ s.evt.supLost (s.evRec code sev pl)).2.1 ∧
    (s.postNow code sev pl).evt.hostQ =
      if s.toHost code sev then (enqueueRec 256 s.evt.hostQ s.evt.hostLost (s.evRec code sev pl)).1 else s.evt.hostQ := by
  have hlog : ∃ tokens tokenAt suppressed, (s.postNow code sev pl).evt =
      { (s.route code sev pl).evt with tokens := tokens, tokenAt := tokenAt, suppressed := suppressed } := by
    obtain ht | ht := s.postNow_cases code sev pl h <;> rw [ht]
    · exact ⟨_, _, _, State.logEvent_evt _ _⟩
    · exact ⟨_, _, _, rfl⟩
  obtain ⟨_, _, _, hevt⟩ := hlog
  rw [hevt, ← s.route_hostQ, s.route_evt]
  exact ⟨rfl, rfl, rfl, rfl⟩

theorem State.postNow_supDropped (hdrop : (enqueueRec 512 s.evt.supQ s.evt.supLost (s.evRec code sev pl)).2.2 = true) :
    (s.postNow code sev pl).get Reg.EVT_COUNT.SUP_DROPPED = min (s.get Reg.EVT_COUNT.SUP_DROPPED + 1) 65535 := by
  rw [← s.route_supDropped code sev pl hdrop]
  obtain ht | ht := s.postNow_cases code sev pl h <;> rw [ht]
  rw [State.get, State.logEvent_regs _ _ _ (by decide)]
  rfl

end

/-! The commands (R375, R377, R379, R380). -/

theorem exec_evtPost {r : Req} {s : State} (v : Word) (h : s.mayWrite r Reg.EVT_POST) :
    exec (.evtPost r v) s = .next (s.evtPost (s.actsSup r) v) := by
  rw [← State.regWrite_EVT_POST v h]
  rfl

theorem exec_clear {r : Req} {s : State} (v : Word) (h : s.mayWrite r Reg.EVT_LOG_CTRL) :
    exec (.clear r v) s = .next (s.logClear (forceBits v Reg.EVT_LOG_CTRL.CLEAR 1)) := by
  rw [← State.regWrite_EVT_LOG_CTRL _ h]
  rfl

theorem exec_logSummaryWrite {s : State} (h : s.up) : exec .logSummaryWrite s = .next s.logSummary := by
  have hrun : s.clocked State.logSummary = s.logSummary := if_neg (by simp [h.1, h.2])
  rw [← hrun]
  rfl

/-- What a write of EVT_POST by Thihoger posts: as many bytes of EVT_POST_DATA as LEN says (R377). -/
def State.postPayload (s : State) (v : Word) : List Byte :=
  ((List.range 4).flatMap fun w => leBytes 4 (s.rd (Reg.EVT_POST_DATA w)).toNat).take (min 16 (bits v.toNat 0 5))

theorem State.evtPost_ignored {s : State} {bySup : Bool} {v : Word} (h : bySup = false ∨ bits v.toNat 16 16 < 0x8000) :
    s.evtPost bySup v = s := if_pos h

theorem State.evtPost_posts {s : State} {v : Word} (h : 0x8000 ≤ bits v.toNat 16 16) (hboot : s.boot.loading = false) :
    s.evtPost true v = s.postNow (bits v.toNat 16 16) (bits v.toNat 8 2) (s.postPayload v) := by
  have hpost : s.evtPost true v = s.post (bits v.toNat 16 16) (bits v.toNat 8 2) (s.postPayload v) :=
    if_neg (not_or.2 ⟨Bool.noConfusion, Nat.not_lt.2 h⟩)
  rw [hpost, State.post, if_neg (by simp [hboot])]

/-! The read of EVT_REC0 (R375; 02 R56). -/

theorem State.capture_eq (s : State) (r : Req) (a : Nat) (ws : List Word) :
    s.capture r a ws = { s with caps := (s.capture r a ws).caps } := by
  induction ws generalizing s a with
  | nil => rfl
  | cons w ws ih =>
    rw [State.capture, ih]

theorem State.capture_below (s : State) (r : Req) {a b : Nat} (ws : List Word) (h : b < a) :
    (s.capture r a ws).captured? r b = s.captured? r b := by
  induction ws generalizing s a with
  | nil => rfl
  | cons w ws ih =>
    rw [State.capture, ih _ (by omega)]
    exact Table.get_set_ne (fun _ => none) s.caps (some w) (show capKey r b ≠ capKey r a by rw [capKey, capKey]; omega)

theorem State.capture_captured (s : State) (r : Req) (a i : Nat) (ws : List Word) (h : i < ws.length) :
    (s.capture r a ws).captured? r (a + 4 * i) = some ws[i] := by
  induction ws generalizing s a i with
  | nil => exact absurd h (Nat.not_lt_zero _)
  | cons w ws ih =>
    rw [State.capture]
    cases i with
    | zero =>
      rw [State.capture_below _ _ _ (by omega)]
      exact Table.get_set_same (fun _ => none) s.caps (capKey r a) (some w)
    | succ i =>
      have hi := ih { s with caps := s.caps.set (fun _ => none) (capKey r a) (some w) } (a + 4) i (by simpa using h)
      rwa [show a + 4 + 4 * i = a + 4 * (i + 1) by omega] at hi

theorem State.curWord_EVT_REC (s : State) (r : Req) {w : Nat} (h : w ≤ 7) : s.curWord r (Reg.EVT_REC w) = s.evtRecWord w := by
  have ha : Reg.EVT_REC w = 0x10003020 + 4 * w := rfl
  have hview : isActiveView (Reg.EVT_REC w) = false := by rw [isActiveView, ha]; simp; omega
  have hbase : Reg.EVT_REC 0 = 0x10003020 := rfl
  rw [State.curWord, hview, if_neg (by decide), ha, hbase, if_neg (by simp only [Reg.SUP_IRQ_PEND]; omega),
    if_neg (by simp only [Reg.EVT_STATUS]; omega), if_pos (by simp only [Reg.EVT_REC]; omega),
    show (0x10003020 + 4 * w - 0x10003020) / 4 = w by omega]

/-- The words that a read of EVT_REC0 captures. -/
def State.recWords (s : State) (r : Req) : List Word := (List.range 7).map fun i => s.curWord r (Reg.EVT_REC 0 + 4 * (i + 1))

theorem State.recWords_get (s : State) (r : Req) (i : Nat) (h : i < (s.recWords r).length) : (s.recWords r)[i] = s.evtRecWord (i + 1) := by
  have hi : i < 7 := by simpa [State.recWords] using h
  simp only [State.recWords, List.getElem_map, List.getElem_range]
  exact s.curWord_EVT_REC r (by omega)

/-- A read of EVT_REC0 captures the rest of the head record, and removes it. -/
theorem State.regRead_EVT_REC (s : State) (r : Req) : (s.regRead r (Reg.EVT_REC 0)).2 = { s with
    evt := { s.evt with supQ := s.evt.supQ.drop 1 }, caps := (s.capture r (Reg.EVT_REC 1) (s.recWords r)).caps } := by
  have hwide : wideAt (Reg.EVT_REC 0) = some (Reg.EVT_REC 0, 8) := by decide
  have hread : (s.regRead r (Reg.EVT_REC 0)).2 = (s.capture r (Reg.EVT_REC 1) (s.recWords r)).readRemoves (Reg.EVT_REC 0) := by
    rw [State.regRead, if_neg (by decide), hwide]
    rfl
  rw [hread, State.readRemoves, if_pos rfl, State.capture_eq]

theorem State.capture_recWords (s : State) (r : Req) (w : Nat) (h1 : 1 ≤ w) (h7 : w ≤ 7) :
    (s.capture r (Reg.EVT_REC 1) (s.recWords r)).caps.get (fun _ => none) (capKey r (Reg.EVT_REC w)) = some (s.evtRecWord w) := by
  obtain ⟨i, rfl⟩ := Nat.exists_eq_add_of_le' h1
  have hi : i < (s.recWords r).length := by simp [State.recWords]; omega
  have hcap := s.capture_captured r (Reg.EVT_REC 1) i (s.recWords r) hi
  rwa [s.recWords_get, show Reg.EVT_REC 1 + 4 * i = Reg.EVT_REC (i + 1) by simp only [Reg.EVT_REC]; omega] at hcap

theorem exec_evtRecRead {r : Req} {s : State} (h : s.mayRead r (Reg.EVT_REC 0)) : ∃ caps : Table (Option Word),
    exec (.evtRecRead r) s = .next { s with evt := { s.evt with supQ := s.evt.supQ.drop 1 }, caps := caps } ∧
    ∀ w, 1 ≤ w → w ≤ 7 → caps.get (fun _ => none) (capKey r (Reg.EVT_REC w)) = some (s.evtRecWord w) := by
  have hblock : regionOf (Reg.EVT_REC 0) = .block := by decide
  have htake : s.regTake r (Reg.EVT_REC 0) = (s.regRead r (Reg.EVT_REC 0)).2 := by
    rw [State.regTake, State.busRead, if_neg (fun hne => hne h), hblock]
    rfl
  refine ⟨(s.capture r (Reg.EVT_REC 1) (s.recWords r)).caps, ?_, s.capture_recWords r⟩
  rw [← s.regRead_EVT_REC, ← htake]
  rfl

/-! The marks of the log (R379, R380). -/

theorem exec_clear_service {r : Req} (v : Word) {s : State} (h : s.mayWrite r Reg.EVT_LOG_CTRL) (hlc : s.boot.lc = .service)
    (hdev : s.deck.dev ≠ .safeHalt) : exec (.clear r v) s =
      .next (s.postMark 0x0F07 sevInfo (p4 (s.get Reg.EVT_LOG_SEQ.LOGSEQ)) State.logEvent) := by
  have hbit : bit (forceBits v Reg.EVT_LOG_CTRL.CLEAR 1).toNat 0 = true := bit_forceBits_same v _ 0 1 (by decide)
  rw [exec_clear v h, State.logClear, if_pos ⟨hlc, hbit, hdev⟩]

theorem exec_clear_outside_service {r : Req} (v : Word) {s : State} (h : s.mayWrite r Reg.EVT_LOG_CTRL)
    (hlc : s.boot.lc ≠ .service) : exec (.clear r v) s = .next s := by
  rw [exec_clear v h, State.logClear, if_neg fun hc => hlc hc.1]

/-- A summary is a mark of the state in which the bucket is filled and no event counts as suppressed. -/
theorem State.logSummary_marks {s : State} (hdev : s.deck.dev ≠ .safeHalt) (hsup : s.evt.suppressed ≠ 0)
    (htok : 0 < s.refill.evt.tokens) : ∃ u : State, s.logSummary = u.postMark 0x0F06 sevWarn (c4 s.evt.suppressed) State.logEvent ∧
      PostFrame s u ∧ u.regs = s.regs ∧ u.evt.suppressed = 0 ∧ u.refill.evt.tokens = s.refill.evt.tokens :=
  ⟨{ s.refill with evt := { s.refill.evt with suppressed := 0 } },
    if_neg (not_or.2 ⟨hsup, not_or.2 ⟨Nat.ne_of_gt htok, hdev⟩⟩), PostFrame.evt s _, rfl, rfl, s.refill_refill_tokens⟩

/-- Settles O52: a posted event is routed to the queues and then logged, and so are the two marks of the log. -/
theorem eventRecords : Obligations.EventRecords := by
  refine ⟨fun r v s h => ⟨fun hignored => ?_, fun hsup hcode hboot hdev => ?_⟩,
    fun r s h _ => ?_, fun r v s h => ⟨exec_clear_outside_service v h, fun hlc hdev htok => ?_⟩, fun s hup hsup htok => ?_⟩
  · rw [exec_evtPost v h, State.evtPost_ignored hignored]
  · have hexec := exec_evtPost v h
    rw [hsup, State.evtPost_posts hcode hboot] at hexec
    have hother : bits v.toNat 16 16 ≠ 0x0F02 := by omega
    have hpayload : s.postPayload v = ((List.range 4).flatMap fun w => leBytes 4 (s.rd (Reg.EVT_POST_DATA w)).toNat).take
      (min 16 (bits v.toNat 0 5)) := rfl
    generalize bits v.toNat 16 16 = code at *
    generalize bits v.toNat 8 2 = sev at *
    generalize s.postPayload v = pl at *
    obtain ⟨heseq, hsupQ, hsupLost, hhostQ⟩ := State.postNow_queues code sev pl hdev
    have hframe := PostFrame.postNow s code sev pl
    have hhost := s.toHost_iff code sev
    refine ⟨_, s.evRec code sev pl, hexec, rfl, rfl, rfl, rfl, rfl, hpayload, heseq, fun hroom => ?_, fun hfull hsev => ?_,
      fun hfull hsev hlow => ?_, fun hen hmin hroom => ?_, fun hoff => ?_, fun hsev htok => ?_, fun hsev => ?_, hframe.regs,
      hframe.memSame⟩
    · rw [hsupQ, hsupLost, enqueueRec_of_room _ hroom]
      exact ⟨rfl, rfl⟩
    · have hdrop := enqueueRec_full_drops s.evt.supLost hfull hsev
      rw [hsupQ, hsupLost, State.postNow_supDropped code sev pl hdev (by rw [hdrop]), hdrop]
      exact ⟨rfl, rfl, rfl⟩
    · obtain ⟨kept, hlen, hin⟩ := enqueueRec_full_replaces s.evt.supLost hfull hsev hlow
      rw [hsupQ, hin]
      exact ⟨List.getLast?_concat .., by simpa using hlen⟩
    · rw [hhostQ, if_pos (hhost.2 ⟨hen, .inl hmin⟩), enqueueRec_of_room _ hroom]
    · rw [hhostQ, if_neg fun hto => ?_]
      obtain ⟨hen, hmin⟩ := hhost.1 hto
      have hsev : (s.evRec code sev pl).sev = sev := rfl
      omega
    · have hlog := s.route_logged code sev pl htok
      rw [← State.postNow_of_error code sev pl hdev hsev] at hlog
      exact ⟨hlog.head, hlog.seq⟩
    · obtain rfl : sev = 0 := hsev
      rw [State.postNow_info code pl hdev, s.route_mram]
  · obtain ⟨caps, hexec, hcaptured⟩ := exec_evtRecRead h
    exact ⟨_, hexec, rfl, hcaptured, rfl⟩
  · obtain ⟨hlog, hlo, hhi⟩ := s.postMark_logged 0x0F07 sevInfo (p4 (s.get Reg.EVT_LOG_SEQ.LOGSEQ)) htok
    have hframe := PostFrame.postMark s 0x0F07 sevInfo (p4 (s.get Reg.EVT_LOG_SEQ.LOGSEQ))
    exact ⟨_, exec_clear_service v h hlc hdev, hlo, hhi, hlog.head, hframe.regs, hframe.memSame⟩
  · obtain ⟨u, hsum, hfirst, hregs, hzero, hutok⟩ := State.logSummary_marks hup.1 hsup htok
    obtain ⟨hlog, hlo, hhi⟩ := u.postMark_logged 0x0F06 sevWarn (c4 s.evt.suppressed) (by rwa [hutok])
    have hframe := hfirst.trans (PostFrame.postMark u 0x0F06 sevWarn (c4 s.evt.suppressed))
    rw [State.get_congr hregs] at hlo hhi
    exact ⟨_, (exec_logSummaryWrite hup).trans (by rw [hsum]), hlog.suppressed.trans hzero, hlo, hhi, hlog.tokens.trans hutok,
      hframe.regs, hframe.memSame⟩

end Sys2Proof.Machine
end
